-- ==== Sys2Proof/Word.lean ====
section
/-! DEFINITION. The words of the device: bytes, 32-bit registers, 64-bit counts, digests, addresses of stations, and the
plainest operations on them (little-endian packing by R3, saturating counters). -/

namespace Sys2Proof

/-- A byte. -/
abbrev Byte := BitVec 8
/-- A 32-bit register word (R4). -/
abbrev Word := BitVec 32
/-- A 64-bit field. -/
abbrev Dword := BitVec 64
/-- A SHA-256 digest, its first byte in the top eight bits (R437: digests are byte strings). -/
abbrev Hash := BitVec 256
/-- An RSA-3072 modulus or signature, its first byte in the top eight bits (R437). -/
abbrev Rsa := BitVec 3072
/-- A station address, octet 0 in the top eight bits. -/
abbrev Mac := BitVec 48
/-- A run of bytes in ascending address. -/
abbrev Bytes := List Byte

/-- A saturating 32-bit count (R93 and the other register maps). -/
def satAdd (w : Word) (n : Nat) : Word := BitVec.ofNat 32 (min (w.toNat + n) 0xFFFFFFFF)

/-- One more, saturating. -/
def satInc (w : Word) : Word := satAdd w 1

/-- A 64-bit count, saturated. -/
def sat64 (n : Nat) : Nat := min n 0xFFFFFFFFFFFFFFFF

/-- The number a byte run spells in little-endian order (R3). -/
def leNat : Bytes → Nat
  | [] => 0
  | b :: bs => b.toNat + 256 * leNat bs

/-- The n little-endian bytes of a number (R3). -/
def toLe : Nat → Nat → Bytes
  | 0, _ => []
  | n + 1, v => BitVec.ofNat 8 v :: toLe n (v / 256)

/-- The number a byte run spells in big-endian order (R437, network headers). -/
def beNat (bs : Bytes) : Nat := bs.foldl (fun a b => a * 256 + b.toNat) 0

/-- The n big-endian bytes of a number. -/
def toBe (n v : Nat) : Bytes := (toLe n v).reverse

/-- A run of n zero bytes. -/
def zeros (n : Nat) : Bytes := List.replicate n 0

/-- Bytes i to i + n - 1 of a run. -/
def slice (bs : Bytes) (i n : Nat) : Bytes := (bs.drop i).take n

/-- The n-byte little-endian field at offset i of a run; bytes beyond its end count as 0. -/
def fieldAt (bs : Bytes) (i n : Nat) : Nat := leNat (slice bs i n)

/-- Read bit i of a number. -/
def bitOf (v i : Nat) : Bool := v.testBit i

/-- Bits hi down to lo of a number. -/
def bitsOf (v hi lo : Nat) : Nat := (v >>> lo) % 2 ^ (hi + 1 - lo)

/-- 1 for true. -/
def b2n (b : Bool) : Nat := if b then 1 else 0

/-- Rounding up to a multiple of m. -/
def roundUp (n m : Nat) : Nat := (n + m - 1) / m * m

/-- Quotient rounded up. -/
def ceilDiv (n m : Nat) : Nat := (n + m - 1) / m

/-- The nearest multiple of m, a tie reading as the larger. -/
def nearestMul (m v : Nat) : Nat := (v + m / 2) / m * m

/-- Clamp a number between two bounds (R7). -/
def clampNat (lo hi v : Nat) : Nat := max lo (min hi v)

/-- Clamp an integer between two bounds. -/
def clampInt (lo hi v : Int) : Int := max lo (min hi v)

/-- The nearest of the legal sizes, a tie reading as the larger (R146). -/
def nearestSize (legal : List Nat) (v : Nat) : Nat :=
  legal.foldl (fun best x =>
    let d := fun y => if y ≤ v then v - y else y - v
    if d x ≤ d best then x else best) (legal.headD 0)

/-- The signed value of the low n bits of a number. -/
def signed (n v : Nat) : Int :=
  let m := v % 2 ^ n
  if m < 2 ^ (n - 1) then (m : Int) else (m : Int) - (2 ^ n : Nat)

/-- The two's-complement n-bit word of an integer. -/
def unsigned (n : Nat) (v : Int) : Nat := (v % ((2 ^ n : Nat) : Int)).toNat

/-- Element i of a fixed table, or a stand-in beyond its end. -/
def vget {α : Type} {n : Nat} (d : α) (v : Vector α n) (i : Nat) : α := v.getD i d

/-- Set element i of a fixed table; beyond its end nothing changes. -/
def vset {α : Type} {n : Nat} (v : Vector α n) (i : Nat) (x : α) : Vector α n := v.setIfInBounds i x

/-- Change element i of a fixed table by a function. -/
def vupd {α : Type} {n : Nat} (d : α) (v : Vector α n) (i : Nat) (f : α → α) : Vector α n :=
  vset v i (f (vget d v i))

/-- Look a key up in an association list. -/
def assoc {α : Type} (k : Nat) (l : List (Nat × α)) : Option α := (l.find? (fun p => p.1 == k)).map (·.2)

/-- Put a value under a key, ascending keys, replacing an earlier one. -/
def assocSet {α : Type} (k : Nat) (x : α) : List (Nat × α) → List (Nat × α)
  | [] => [(k, x)]
  | p :: ps => if k < p.1 then (k, x) :: p :: ps else if k = p.1 then (k, x) :: ps else p :: assocSet k x ps

/-- Drop a key. -/
def assocDel {α : Type} (k : Nat) (l : List (Nat × α)) : List (Nat × α) := l.filter (fun p => p.1 != k)

end Sys2Proof
end

