-- ==== Sys2Proof/Syntax.lean ====
section
/-! DEFINITION. The commands of the block: one constructor per row of the table of operations and events. Every command
carries dt, the nanoseconds of device time since the command before it (log 2); a received frame carries what its port saw
of it; a command of an engine carries the hardware errors that the engine met (log 9). -/

namespace Sys2Proof

/-- What 802.1AE saw of a frame (R69, R71): no SecTAG, or the secure channel, association number, packet number and the
outcome of the integrity check (log 10). -/
inductive Sec where
  | plain
  | tagged (sci : Dword) (an : Nat) (pn : Nat) (icvOk : Bool)
  deriving DecidableEq, Repr

/-- What a port saw of a received frame (R66, R67, R73). -/
structure RxInfo where
  port : Nat
  dst : Mac
  src : Mac
  /-- The tag control fields of the 802.1Q tags, outermost first. -/
  tags : List (BitVec 16)
  etype : BitVec 16
  /-- Bytes from destination address to FCS. -/
  size : Nat
  fcsOk : Bool
  sec : Sec
  /-- Bytes of the port's receive buffer that hold packets not yet moved on (R88, R353). -/
  fill : Nat := 0
  deriving DecidableEq, Repr

/-- A QCP command frame (R408): its opcode is the command's row. -/
structure QcpFrame where
  rx : RxInfo
  seq : Word
  session : Word
  payload : Bytes
  deriving DecidableEq, Repr

/-- A QCP frame whose header is not a well-formed command's (R409). -/
structure RawQcp where
  rx : RxInfo
  version : Byte
  type : Byte
  length : BitVec 16
  payload : Bytes
  deriving DecidableEq, Repr

/-- An IEEE 1722 RVF packet (R76, R77). -/
structure RvfPacket where
  rx : RxInfo
  streamId : Dword
  version : Nat
  sv : Bool
  tv : Bool
  timestamp : Word
  progressive : Bool
  depth : Nat
  /-- 0 YUV 4:2:0 planar, 1 monochrome, others outside the subset. -/
  format : Nat
  width : Nat
  height : Nat
  firstLine : Nat
  lines : Nat
  payload : Bytes
  deriving DecidableEq, Repr

/-- An 802.1AS Sync with its follow-up information (R72, R74, R75): its gPTP domain, the grandmaster time it conveys at its arrival, and the
advertised interval as a power of two of a second. -/
structure SyncMsg where
  rx : RxInfo
  domain : Nat := 0
  gmTime : Nat
  logInterval : Int
  deriving DecidableEq, Repr

/-- A distributed SAK of an MKPDU (R451). -/
structure SakOffer where
  /-- The cipher suite is GCM-AES-XPN-256. -/
  xpn256 : Bool
  an : Nat
  /-- The partner's secure channels that transmit under it. -/
  peers : List Dword
  deriving DecidableEq, Repr

/-- An EAPOL MKA frame (R451): its connectivity-key name, its integrity check and the SAK it distributes. -/
structure MkaFrame where
  rx : RxInfo
  ckn : BitVec 128
  icvOk : Bool
  sak : Option SakOffer
  deriving DecidableEq, Repr

/-- A PWP frame (R426). -/
structure PwpFrame where
  rx : RxInfo
  version : Byte
  type : Byte
  status : Byte
  tag : Word
  target : Word
  value : Word
  length : Word
  piece : Word
  data : Bytes
  deriving DecidableEq, Repr

/-- Who accesses a register (R16). -/
inductive Master where
  | host
  | core (k : Nat)
  | harbourmaster
  deriving DecidableEq, Repr

/-- What a DRAM sector's decode met (R337, R348, R349), by the sector's device address: symbols corrected, whether all
three reads of the primary failed, whether the replica failed as well. -/
structure SectorErr where
  addr : Nat
  symbols : Nat
  fails : Bool
  replicaFails : Bool
  deriving DecidableEq, Repr

/-- A hardware error met while a descriptor ran (R514): the pass it struck and what it was. -/
inductive HwErr where
  /-- A pass failed its residue check, or a duplicated unit differed (R516). -/
  | residue (pass : Nat)
  /-- An uncorrectable error in array-local SRAM at an operand address of space 0, 4 or 5. -/
  | sram (pass : Nat) (addr : Nat)
  /-- Corrected SECDED errors of array-local SRAM. -/
  | sramCorrected (n : Nat)
  /-- A Basin word (byte address) that failed; the second read recovered or not (R332). -/
  | basin (pass : Nat) (addr : Nat) (recovered : Bool)
  /-- A DRAM sector decode (R348, R349). -/
  | sector (pass : Nat) (e : SectorErr)
  deriving DecidableEq, Repr

/-- What a run over the Basin met (R125, R332, R516), in order. -/
inductive JobErr where
  /-- A Basin word (byte address) that failed; the second read recovered or not. -/
  | word (addr : Nat) (recovered : Bool)
  /-- A residue check of an engine's sums failed (R516). -/
  | check
  deriving DecidableEq, Repr

/-- What the training of a DRAM channel or a check of it gave (R341, R351). -/
structure TrainResult where
  channel : Nat
  ok : Bool
  deriving DecidableEq, Repr

/-- What a patrol read of a Basin word met (R332, R335). -/
structure ScrubHit where
  addr : Nat
  correctable : Bool
  deriving DecidableEq, Repr

/-- When a command comes, and what the device's memories do meanwhile: nanoseconds since the command before it, the DRAM sector errors that
reads meet (R348, R349), and the Basin reads that fail (R332, R333). -/
structure When where
  ns : Nat := 0
  errs : List SectorErr := []
  fails : List JobErr := []
  deriving DecidableEq, Repr

/-- How the core rail comes up at a wake: power good appears, and a flash read of the boot ends with a controller error (R441, R492). -/
structure CoreUp where
  good : Bool
  ctrlErr : Bool
  deriving DecidableEq, Repr

/-- The commands, one constructor per row of opcode_table.json, in the table's order. -/
inductive Instr where
  | qcpHello (dt : When) (f : QcpFrame)
  | qcpOpen (dt : When) (f : QcpFrame)
  | qcpClose (dt : When) (f : QcpFrame)
  | qcpNop (dt : When) (f : QcpFrame)
  | qcpRegRead (dt : When) (f : QcpFrame)
  | qcpRegWrite (dt : When) (f : QcpFrame)
  | qcpBulkRead (dt : When) (f : QcpFrame) (errs : List SectorErr)
  | qcpBulkWrite (dt : When) (f : QcpFrame)
  | qcpImageLoad (dt : When) (f : QcpFrame)
  | qcpAdmit (dt : When) (f : QcpFrame)
  | qcpAbort (dt : When) (f : QcpFrame)
  | qcpWeightLoad (dt : When) (f : QcpFrame)
  | qcpSeal (dt : When) (f : QcpFrame)
  | sealComplete (dt : When) (set : Nat)
  | qcpQuery (dt : When) (f : QcpFrame)
  | qcpQueryTokens (dt : When) (f : QcpFrame)
  | qcpCancel (dt : When) (f : QcpFrame)
  | qcpResend (dt : When) (f : QcpFrame)
  | qcpSnapshot (dt : When) (f : QcpFrame)
  | qcpWarmReset (dt : When) (f : QcpFrame)
  | qcpSleep (dt : When) (f : QcpFrame)
  | qcpAttest (dt : When) (f : QcpFrame)
  | qcpFwLoad (dt : When) (f : QcpFrame)
  | qcpFwUpdate (dt : When) (f : QcpFrame)
  | qcpOwnerKey (dt : When) (f : QcpFrame)
  | unknownOpcode (dt : When) (opcode : BitVec 16) (f : QcpFrame)
  | qcpFrameDrop (dt : When) (f : RawQcp)
  | sessionIdleExpiry (dt : When)
  | imgCtlAdmit (dt : When) (who : Master) (value : Word)
  | imgCtlAbort (dt : When) (who : Master) (value : Word)
  /-- bad: the image offset of an intake word whose Basin read failed after its retries (R333). -/
  | validationEnd (dt : When) (bad : Option Nat)
  | registerWrite (dt : When) (who : Master) (addr : Nat) (value : Word)
  | latchingLoRead (dt : When) (who : Master) (addr : Nat)
  | portRoleWrite (dt : When) (who : Master) (port : Nat) (value : Word)
  | portDownWrite (dt : When) (who : Master) (port : Nat) (value : Word)
  | ttPartReset (dt : When) (who : Master) (value : Word)
  | ttCtxRestart (dt : When) (who : Master) (value : Word)
  | svCancel (dt : When) (who : Master) (value : Word)
  | sySignal (dt : When) (who : Master) (value : Word)
  | syReset (dt : When) (who : Master) (value : Word)
  | icSet (dt : When) (who : Master) (value : Word)
  | icClaim (dt : When) (who : Master) (target : Nat) (value : Word)
  | icEoi (dt : When) (who : Master) (target : Nat) (value : Word)
  | hmCakCtl (dt : When) (who : Master) (value : Word)
  | lhSleepSleep (dt : When) (who : Master) (value : Word)
  | lhSleepWatch (dt : When) (who : Master) (value : Word)
  | snRelease (dt : When) (who : Master) (value : Word)
  | peerDisable (dt : When) (who : Master) (peer : Nat) (value : Word)
  | linkUp (dt : When) (port : Nat) (partnerMaster : Bool)
  | linkDown (dt : When) (port : Nat)
  /-- overflow: the receive buffer has no room for the packet (R88). -/
  | rxFrameDrop (dt : When) (rx : RxInfo) (overflow : Bool)
  | syncReceived (dt : When) (m : SyncMsg)
  | syncLossHoldover (dt : When)
  | mkaFrame (dt : When) (m : MkaFrame)
  | mkaLifeExpiry (dt : When) (port : Nat)
  | rvfPacket (dt : When) (p : RvfPacket)
  | graceExpiry (dt : When) (stream : Nat)
  | inputPeriodExpiry (dt : When) (stream : Nat)
  /-- fails: the copy's Basin reads that failed after the second read, at most three counted (R333). -/
  | evidenceCopyDone (dt : When) (stream : Nat) (fails : List JobErr)
  | motionJobStart (dt : When) (fails : List JobErr)
  | motionJobDone (dt : When)
  | disparityPairTimeout (dt : When) (stream : Nat)
  | disparityJobStart (dt : When) (fails : List JobErr)
  | disparityJobDone (dt : When)
  | matmul (dt : When) (array : Nat) (errs : List HwErr)
  | conv (dt : When) (array : Nat) (errs : List HwErr)
  | deconv (dt : When) (array : Nat) (errs : List HwErr)
  | pool (dt : When) (array : Nat) (errs : List HwErr)
  | warp (dt : When) (array : Nat) (errs : List HwErr)
  | vector (dt : When) (array : Nat) (errs : List HwErr)
  | norm (dt : When) (array : Nat) (errs : List HwErr)
  | attend (dt : When) (array : Nat) (errs : List HwErr)
  | expand (dt : When) (array : Nat) (errs : List HwErr)
  | copy (dt : When) (array : Nat) (errs : List HwErr)
  | wait (dt : When) (array : Nat)
  | signal (dt : When) (array : Nat)
  | invalidDescriptor (dt : When) (array : Nat)
  | waitSatisfied (dt : When) (array : Nat) (ctx : Nat) (object : Nat)
  | waitTimeout (dt : When) (array : Nat) (ctx : Nat) (object : Nat)
  | descriptorComplete (dt : When) (array : Nat)
  /-- pass: the index of the next pass of the pre-empted descriptor. -/
  | preemptSaveDone (dt : When) (array : Nat) (pass : Nat)
  | restoreDone (dt : When) (array : Nat)
  | stepReplay (dt : When) (step : Word)
  /-- ready: the cores of a firmware switch in progress report ready (R448). -/
  | majorCycleBoundary (dt : When) (ready : Bool)
  /-- bad: the entry of the tide table meets an uncorrectable error (R297). -/
  | tideLiveInstant (dt : When) (entry : Nat) (bad : Bool)
  | tideSettledPeriod (dt : When) (entry : Nat) (bad : Bool)
  | tideContextStep (dt : When) (entry : Nat) (bad : Bool)
  | tideMarker (dt : When) (entry : Nat) (bad : Bool)
  | stepOverrun (dt : When) (step : Word)
  | kernelPlace (dt : When) (part : Nat)
  | swapOutDone (dt : When) (berth : Nat)
  | swapInDone (dt : When) (berth : Nat)
  | quantumExpiry (dt : When) (ctx : Nat)
  /-- fails: the unpack's Basin reads that failed (R332, R333). -/
  | fgInputsReady (dt : When) (step : Word) (fails : List JobErr)
  | liveGate (dt : When) (stream : Nat)
  | liveDeadlineMiss (dt : When) (stream : Nat)
  | packDone (dt : When) (step : Word)
  | queryAdmitHead (dt : When)
  | batchStepAssemble (dt : When) (ctx : Nat)
  | visionStep (dt : When) (ctx : Nat)
  | basinScrub (dt : When) (hits : List ScrubHit)
  | dramScrub (dt : When) (channel : Nat) (slot : Nat) (errs : List SectorErr)
  | dqsCheck (dt : When) (channel : Nat) (drift64 : Nat) (retrained : Bool)
  | mr4Poll (dt : When) (channel : Nat) (rate : BitVec 4)
  | channelPowerDown (dt : When) (channel : Nat)
  | channelSelfRefresh (dt : When) (channel : Nat)
  | eventFrameSend (dt : When)
  /-- late: pixels of the frame just sent that were due before their source bytes had come: line, first column, pixels (R403). -/
  | vblankStart (dt : When) (output : Nat) (late : List (Nat × Nat × Nat))
  | hpdAsserted (dt : When) (output : Nat)
  | hpdUnplug (dt : When) (output : Nat)
  | irqHpd (dt : When) (output : Nat) (lostLock : Bool)
  | linkTrainingDone (dt : When) (output : Nat) (ok : Bool)
  | tornCheck (dt : When) (window : Nat)
  | heartbeatTimer (dt : When)
  | pwpHeartbeat (dt : When) (f : PwpFrame)
  | pwpRead (dt : When) (f : PwpFrame) (errs : List SectorErr)
  | pwpReadData (dt : When) (f : PwpFrame)
  | pwpSignal (dt : When) (f : PwpFrame)
  | pwpSignalAck (dt : When) (f : PwpFrame)
  | peerReqResend (dt : When) (tag : Word)
  | peerReqTimeout (dt : When) (tag : Word)
  /-- ctrlErr: a flash read ended with a controller error (R441 check 6); trained: the DRAM channels' training (R341, R443). -/
  | boot (dt : When) (ctrlErr : Bool) (trained : List TrainResult)
  | idKeyReady (dt : When)
  | rngHealthFail (dt : When)
  | flashRewriteDone (dt : When) (verified : Bool)
  | debugUnlock (dt : When) (signature : Rsa)
  | checkpointClose (dt : When)
  /-- failed: the write to the ledger region failed uncorrectably (R463). -/
  | checkpointWritten (dt : When) (failed : Bool)
  | ledgerRewrite (dt : When) (failed : Bool)
  | opTransition (dt : When) (acked : Bool)
  | pmbusPoll (dt : When) (vout : Option (BitVec 16)) (iout : Option (BitVec 16)) (ulinear16 : Option Bool)
  | pmbusRetry (dt : When) (acked : Bool)
  | powerCapWindow (dt : When)
  | pmbAlert (dt : When)
  | thermalSample (dt : When) (readings : List Int)
  | tripRecovery (dt : When)
  | domainSwitchOn (dt : When) (domain : Nat)
  | wakeNAsserted (dt : When) (ticks : Nat)
  | i2cAddressMatch (dt : When) (address : Nat)
  | i2cStatusRead (dt : When)
  | watchCycleStart (dt : When)
  | watchCompare (dt : When)
  | watchCycleTimeout (dt : When)
  | wake (dt : When) (power : CoreUp) (trained : List TrainResult)
  | wakePgRetry (dt : When) (power : CoreUp) (trained : List TrainResult)
  | powerOnReset (dt : When) (role : Byte) (i2cAddr : BitVec 2) (testMode : Bool)
  | warmResetPin (dt : When) (lowNs : Nat)
  | coreWatchdog (dt : When) (core : Nat)
  | snapInTrigger (dt : When) (highNs : Nat)
  | bestMasterSelection (dt : When) (port : Option Nat)
  | fwVerificationEnd (dt : When)
  | swapInHoldExpiry (dt : When) (ctx : Nat)
  | lowPowerExit (dt : When) (channel : Nat)
  | sleepEntryComplete (dt : When)
  | randomSourcePassing (dt : When)
  | mkaHelloTime (dt : When) (port : Nat)
  | voltageSettled (dt : When) (good : Bool)
  | powerOnResetAsserted (dt : When)
  deriving DecidableEq, Repr

end Sys2Proof
end

