-- ==== Sys2Proof/Config.lean ====
section
/-! DEFINITION. What the spec leaves open and a run of the device fixes: constants without a body, so that no statement can rest on
a value of them. -/

namespace Sys2Proof.Config

/-- The n-th byte that the random source delivers (R439; log 7). -/
opaque randomByte : Nat → Byte

/-- The n-th word of the values that the spec leaves undefined (log 7). -/
opaque openWord : Nat → Word

/-- What a kernel reads at a byte of array store that it did not write (R301; log 7), by the count of draws and the address. -/
opaque openStore : Nat → Nat → Byte

/-- The published window that a local peer-window index names at its peer (R136; log 7). -/
opaque peerWindow : Nat → Nat

/-- The nonce and personalisation string with which the identity key's HMAC_DRBG is instantiated (R438; log 8). -/
opaque idSalt : List Byte

/-- Whether an EXPAND whose reserved option bits are these prepares a DECONV (R203; log 30). -/
opaque expandDeconv : Nat → Bool

end Sys2Proof.Config
end

