-- ==== Sys2Proof/Machine/State.lean ====
section
/-! DEFINITION. The state of the block as plain data: every register, queue, buffer, counter, mode and pin the spec gives the
device, the memories, the queue of waiting commands, the reasons a command can stop, and the state right after power-on
reset is released. Registers that software reads whole are words; where a field's default value is the spec's reset value the
rule that gives it is named at the structure; a default that no rule gives is named in log 5. -/

namespace Sys2Proof.Machine

/-- Memory as (address, byte) pairs: addresses strictly rising, no entry equal to what an unlisted address reads as (0, log 4). -/
abbrev Memory := List Host.Cell

/-! ### Fuses, straps, identity -/

/-- The two grades (R20). -/
inductive Grade where
  | dx6430
  | dx3230
  deriving DecidableEq, Repr

/-- A connectivity key and its name (R436, R452). -/
structure Cak where
  key : BitVec 256
  name : BitVec 128
  deriving DecidableEq, Repr

/-- The fuse array (R436): written once, never cleared. -/
structure Fuses where
  grade : Grade := .dx6430
  /-- CFG_DEVICE's STEP_MAJOR and STEP_MINOR (R20). -/
  stepping : BitVec 16 := 0x0A01
  rootHash : Hash := 0
  baseMac : Mac := 0
  /-- Physical arrays fused off (R126). -/
  arrayFused : BitVec 34 := 0
  idSeed : Option Hash := none
  /-- Owner-key slots written, slot 0 first (R445). -/
  ownerSlots : List Hash := []
  /-- Rollback epoch: the number of thermometer bits set, 0 to 64. -/
  epoch : Nat := 0
  provCak : Option Cak := none
  deriving DecidableEq, Repr

/-- The straps as sampled at the release of power-on reset (R539). -/
structure Straps where
  role : Byte := 0
  i2c : BitVec 2 := 0
  testMode : Bool := false
  deriving DecidableEq, Repr

/-- What the switched domains hold of the fuses since the last release of reset: the read-only identification registers and
the copies the Harbourmaster reads (R19, R93, R155, R465). -/
structure Ident where
  grade : Grade := .dx6430
  stepping : BitVec 16 := 0x0A01
  baseMac : Mac := 0
  arrayFused : BitVec 34 := 0
  ownerSlots : List Hash := []
  epoch : Nat := 0
  idSeed : Option Hash := none
  straps : Straps := {}
  deriving DecidableEq, Repr

/-- The rate of device time: num nanoseconds of it pass in den of the reference (R74, R75), and part, in parts of den, is what has passed
of the next. -/
structure TimeRate where
  num : Nat := 1
  den : Nat := 1
  part : Nat := 0
  deriving DecidableEq, Repr

/-- Clocks: nanoseconds on the 25 MHz reference, device time with its rate (R74), nanoseconds on the Lighthouse clock (R499). -/
structure Clocks where
  ref : Nat := 0
  dev : Nat := 0
  lh : Nat := 0
  rate : TimeRate := {}
  deriving DecidableEq, Repr

/-! ### Declarations of a structure (R31 to R40, R291, R389, R392) -/

/-- Latency-critical or best-effort (R32). -/
inductive Cls where
  | lc
  | be
  deriving DecidableEq, Repr

structure PartDecl where
  id : Nat
  cls : Cls
  arrays : BitVec 32
  chans : BitVec 16
  banks : BitVec 32
  deriving DecidableEq, Repr

structure BerthDecl where
  id : Nat
  part : Nat
  /-- KiB of array store on each array. -/
  arrayShare : Nat
  /-- 64 KiB units. -/
  basinShare : Nat
  deriving DecidableEq, Repr

structure CtxDecl where
  id : Nat
  part : Nat
  /-- 0 to 15, or 255 for non-resident. -/
  berth : Nat
  prog : Nat
  deriving DecidableEq, Repr

structure RegionDecl where
  first : Nat
  count : Nat
  id : Nat
  /-- 0 to 7, or 255 for the device. -/
  owner : Nat
  repl : Bool
  rdonly : Bool
  zero : Bool
  chans : BitVec 16
  reps : BitVec 16
  deriving DecidableEq, Repr

structure GrantDecl where
  id : Nat
  region : Nat
  grantee : Nat
  cap : Nat
  deriving DecidableEq, Repr

structure StreamDecl where
  idx : Nat
  active : Bool
  live : Bool
  settled : Bool
  port : Nat
  /-- 0 YUV 4:2:0, 1 monochrome. -/
  fmt : Nat
  w : Nat
  h : Nat
  fps : Nat
  sc : Nat
  tm : Nat
  dlive : Nat
  /-- Stream index, 255 none. -/
  partner : Nat
  rank : Nat
  ctx : Nat
  sid : Dword
  seed : Dword
  span : Nat
  /-- Declaration ids, 65535 none. -/
  evid : Nat
  liveRing : Nat
  setRing : Nat
  analysis : Nat
  deriving DecidableEq, Repr

structure TideDecl where
  /-- 10 µs units. -/
  offset : Nat
  /-- 0 LIVE, 1 SETTLED, 2 context step, 3 marker. -/
  kind : Nat
  part : Nat
  target : Nat
  list : Nat
  budget : Nat
  cls : Cls
  snap : Bool
  deriving DecidableEq, Repr

structure SyncDecl where
  first : Nat
  count : Nat
  owner : Nat
  signaller : Nat
  peer : Bool
  init : Word
  deriving DecidableEq, Repr

structure RouteDecl where
  source : Nat
  target : Nat
  prio : Nat
  watch : Bool
  deriving DecidableEq, Repr

structure OutputDecl where
  output : Nat
  enabled : Bool
  mode : Nat
  bpc : Nat
  lanes : Nat
  rate : Nat
  bg : Word
  deriving DecidableEq, Repr

structure WindowDecl where
  id : Nat
  output : Nat
  stream : Nat
  /-- 0 LIVE, 1 SETTLED. -/
  ring : Nat
  layer : Nat
  d : Nat
  overlay : Nat
  sx : Nat
  sy : Nat
  w : Nat
  h : Nat
  dx : Nat
  dy : Nat
  bg : Word
  deriving DecidableEq, Repr

structure ProgramDecl where
  id : Nat
  /-- 0 frame generation, 1 analytics, 2 serving model, 3 kernel list. -/
  kind : Nat
  sets : List Nat
  desc : Bytes
  waits : List Nat
  signals : List Nat
  /-- The whole entry as the image carried it (R41). -/
  raw : Bytes
  deriving DecidableEq, Repr

structure WeightDecl where
  id : Nat
  region : Nat
  length : Nat
  hash : Hash
  deriving DecidableEq, Repr

/-- A structure: every declaration in effect (R56), each list in the order R56 stores it. -/
structure Structure where
  serial : Nat := 0
  /-- 10 µs units (R31). -/
  cycle : Nat := 100
  store : Nat := 0
  parts : List PartDecl := []
  berths : List BerthDecl := []
  ctxs : List CtxDecl := []
  regions : List RegionDecl := []
  grants : List GrantDecl := []
  streams : List StreamDecl := []
  tide : List TideDecl := []
  syncs : List SyncDecl := []
  routes : List RouteDecl := []
  outputs : List OutputDecl := []
  windows : List WindowDecl := []
  progs : List ProgramDecl := []
  weights : List WeightDecl := []
  deriving DecidableEq, Repr

/-- What an amendment removes (or replaces) and adds, by kind and id, in terms of the running structure (R59 to R62). -/
structure Delta where
  gone : List (Nat × Nat) := []
  /-- Those of gone that a removal names, an output's windows with it; the rest are declared over. -/
  removed : List (Nat × Nat) := []
  /-- (kind, id) of every entry the amendment carries, kinds as in the removal table of R39. -/
  added : List (Nat × Nat) := []
  /-- The section types the amendment carries. -/
  sections : List Nat := []
  deriving DecidableEq, Repr

/-- An image that passed validation (R50, R51). -/
structure PendingImg where
  full : Bool
  str : Structure
  delta : Delta
  /-- Device-independent time (reference clock) at which validation ended. -/
  endedAt : Nat
  deriving DecidableEq, Repr

/-- CFG_IMG_STATUS.STATE (R21). -/
inductive ImgState where
  | idle
  | validating
  | pending
  | applied
  | rejected
  | discarded
  deriving DecidableEq, Repr

/-- What the next application is (R459): the first after power-on, after a warm reset, after a wake, or any later one. -/
inductive NextApply where
  | powerOn
  | warm
  | wake
  | running
  deriving DecidableEq, Repr

/-- The CFG block (R19 to R21; reset values by R19). -/
structure Cfg where
  imgLen : Word := 0
  /-- The length that the ADMIT in progress found in CFG_IMG_LEN. -/
  admitLen : Nat := 0
  state : ImgState := .idle
  kind : Nat := 0
  errCode : Nat := 0
  errOff : Word := 0
  clampCount : Word := 0
  clampOff : Word := 0
  applyCycle : Word := 0
  /-- RWL: survives all but power-on reset. -/
  storeHash : Hash := 0
  applied : Option Structure := none
  pend : Option PendingImg := none
  /-- The slot (0 or 1) of the store region that holds the effective structure (R56). -/
  storeSlot : Nat := 1
  /-- The store region and the serial the Lighthouse needs on wake (R57). -/
  kept : Option Structure := none
  sealedSets : List Nat := []
  /-- Streams that start cold at the first boundary after a seal (R43). -/
  coldAfterSeal : List Nat := []
  next : NextApply := .powerOn
  /-- A structure has been applied since the last reset or wake (the major-cycle count starts at the first, R288). -/
  everApplied : Bool := false
  deriving DecidableEq, Repr

/-! ### Quay (03) -/

/-- A live receive association (R70, R71): its channel, association number and the highest packet number received. -/
structure RxAssoc where
  sci : Dword
  an : Nat
  high : Nat
  deriving DecidableEq, Repr

/-- A port (R93 to R96; reset values by R93). -/
structure Port where
  role : Bool := false
  down : Bool := false
  link : Bool := false
  linkUps : Nat := 0
  rxOk : Word := 0
  dropSec : Word := 0
  dropFmt : Word := 0
  dropOvf : Word := 0
  cbs : Word := 0x14
  replay : Word := 0x20
  rx : List RxAssoc := []
  tx : Option Nat := none
  cakSlot : Nat := 0
  sakAn : Nat := 0
  /-- Reference time of the partner's last hello; none while there is no partner (R451). -/
  mkaAt : Option Nat := none
  /-- Reference time of the device's own last MKPDU. -/
  mkaSent : Option Nat := none
  /-- Member identifier and message number of its MKPDUs (log 11). -/
  mi : Bytes := []
  mn : Nat := 0
  /-- Bytes that its receive buffer held when it saw its latest frame (R88, R353). -/
  fill : Nat := 0
  /-- Credit of the event shaper, in bits times 10^9 (R89), and when it was last reckoned. -/
  credit : Int := 0
  creditAt : Nat := 0
  deriving DecidableEq, Repr

/-- A frame being assembled (R81). -/
structure OpenFrame where
  capture : Nat
  slot : Nat
  /-- Received line units. -/
  got : List Nat
  /-- Reference time of the packet that carried the final unit. -/
  finalAt : Option Nat
  deriving DecidableEq, Repr

/-- A closed frame held in a Basin slot (R85, R87, R101). -/
structure ClosedFrame where
  counter : Nat
  capture : Nat
  close : Nat
  closeIdx : Nat
  slot : Nat
  lost : Nat
  first : Bool
  /-- The evidence copy has completed, or there is none. -/
  evidDone : Bool
  deriving DecidableEq, Repr

/-- A frame closed since the stream's last Quay cold start: counter, capture and close time. -/
structure FrameRec where
  counter : Nat
  capture : Nat
  close : Nat
  deriving DecidableEq, Repr

/-- A stream's Quay side (R93, R97, R98; reset values by R93). -/
structure QStream where
  ctl : Word := 6
  frame : Nat := 0
  skipped : Word := 0
  lossUnits : Word := 0
  latePkt : Word := 0
  slotBusy : Word := 0
  capt : Nat := 0
  close : Nat := 0
  grace : Word := 0x1F4
  evidHead : Word := 0xFFFFFFFF
  fmtErr : Word := 0
  wrongPort : Word := 0
  slot : Nat := 0
  cold : Bool := false
  /-- Capture time of the frame last opened, and the reference time at which its first packet arrived (R81, R86). -/
  opened : Option Nat := none
  openedAt : Nat := 0
  cur : Option OpenFrame := none
  busy : Option Nat := none
  nclosed : Nat := 0
  frames : List ClosedFrame := []
  /-- Frames closed before the last cold start that may still be read from their slots (R101). -/
  left : List ClosedFrame := []
  hist : List FrameRec := []
  evNext : Nat := 0
  /-- The earliest capture time of an evidence entry that another has been written over (R265). -/
  evGone : Option Nat := none
  deriving DecidableEq, Repr

/-- QY_TIME_STATUS.STATE (R74). -/
inductive TimeState where
  | free
  | sync
  | holdover
  deriving DecidableEq, Repr

/-- An evidence copy in progress: its frame and its entry (R91). -/
structure EvidCopy where
  stream : Nat
  frame : ClosedFrame
  entry : Nat
  deriving DecidableEq, Repr

/-- The QY block (R93, R94; reset values by R93). -/
structure Quay where
  err : Word := 0
  tst : TimeState := .free
  slave : Option Nat := none
  good : Nat := 0
  outRun : Nat := 0
  offset : Word := 0
  steps : Word := 0
  outliers : Word := 0
  nowHi : Word := 0
  /-- The Sync interval in ns (R74). -/
  interval : Nat := 125000000
  /-- Reference time of the last Sync from the selected grandmaster. -/
  lastSync : Nat := 0
  /-- Of the last Sync from the selected port that was not discarded: the grandmaster time that it conveyed and its reference time (R75). -/
  lastGm : Option (Nat × Nat) := none
  ports : Vector Port 8 := Vector.replicate 8 {}
  st : Vector QStream 256 := Vector.replicate 256 {}
  /-- Evidence copies in progress, in the order in which they began (R91). -/
  copies : List EvidCopy := []
  deriving DecidableEq, Repr

/-! ### Motion and disparity engines (04) -/

/-- A job (R99, R100, R112): its stream and frame, the close time that orders it, the reference frame of a motion job, and for a disparity
job the paired right view's stream and frame, none when unpaired. -/
structure Job where
  stream : Nat
  frame : ClosedFrame
  order : Nat
  ref : Option ClosedFrame := none
  right : Option (Nat × ClosedFrame) := none
  /-- Its stream has been removed, replaced or cold-started since it began (R102). -/
  stale : Bool := false
  deriving DecidableEq, Repr

/-- A motion field written completely, and the device time of its signal (R106, R229). -/
structure FieldRec where
  stream : Nat
  closeIdx : Nat
  at_ : Nat
  deriving DecidableEq, Repr

/-- A disparity map in a pair's ring, and the device time of its signal (R119, R224, R229). -/
structure MapRec where
  left : Nat
  closeIdx : Nat
  leftCtr : Nat
  rightCtr : Option Nat
  at_ : Nat := 0
  deriving DecidableEq, Repr

/-- An engine: its queue, its running job, the job's failed reads, its ABANDONED bit (R100, R125). -/
structure Engine where
  q : List Job := []
  run : Option Job := none
  fails : Nat := 0
  abandoned : Bool := false
  /-- What the running job writes at its end, and the device address of its entry. -/
  out : Bytes := []
  at_ : Nat := 0
  deriving DecidableEq, Repr

structure Motion where
  eng : Engine := {}
  /-- Motion fields written completely (R106). -/
  written : List FieldRec := []
  deriving DecidableEq, Repr

structure Disparity where
  eng : Engine := {}
  maps : List MapRec := []
  /-- Left frames not yet paired: (stream, close index) (R112). -/
  await : List (Nat × Nat) := []
  /-- The map that the running job will have written. -/
  next : Option MapRec := none
  deriving DecidableEq, Repr

/-! ### Orchard (05) -/

/-- A queued descriptor: the context and step it was placed for, its 64 bytes with bindings resolved, its place in the
context's program, and its rank among the step's SIGNALs (R139, R205, R371). -/
structure QDesc where
  ctx : Nat
  step : Word
  bytes : Bytes
  place : Nat
  sig : Nat
  /-- For A, B, OUT and an ATTEND's V: none, or the operand as the list names it with the bytes that its bound object has from there on,
  none for a reserved binding (R224, R267, R330). -/
  bound : List (Option (Nat × Option Nat))
  /-- The first descriptor of its kernel (R298). -/
  head : Bool := false
  deriving DecidableEq, Repr

/-- A kernel: consecutive descriptors of a step placed whole on one array (R298). -/
structure Kernel where
  step : Word
  ctx : Nat
  part : Nat
  be : Bool
  descs : List QDesc
  deriving DecidableEq, Repr

/-- What an operation writes: bytes at an offset of OUT, with the pass whose end writes them. -/
structure Piece where
  pass : Nat
  off : Nat
  bytes : Bytes
  deriving DecidableEq, Repr

/-- The descriptor in execution on an array, and whether its work is done (R140). -/
structure Cur where
  d : QDesc
  be : Bool
  executed : Bool
  /-- Index of the pass in execution (AR_PASS). -/
  pass : Nat
  /-- After a pre-emption inside it: what its remaining passes write (R151, R215). -/
  rest : Option (List Piece) := none
  deriving DecidableEq, Repr

/-- AR_STATUS.STATE (R158). -/
inductive ArrState where
  | idle
  | run
  | wait
  | save
  | restore
  deriving DecidableEq, Repr

/-- Which EXPAND last wrote an expansion buffer (R205). -/
structure ExpRec where
  ctx : Nat
  step : Word
  place : Nat
  bytes : Bytes
  deriving DecidableEq, Repr

/-- A logical array: its queues, its execution state and its register window (R139 to R158; reset values by R157). -/
structure Arr where
  lcq : List QDesc := []
  beq : List QDesc := []
  /-- Descriptors of placed kernels that wait for space in the LC queue and in the BE queue (R301). -/
  lcTail : List QDesc := []
  beTail : List QDesc := []
  cur : Option Cur := none
  st : ArrState := .idle
  /-- In SAVE and RESTORE: the descriptor whose context moves (R152). -/
  transfer : Option Cur := none
  /-- BE descriptors pre-empted inside, newest first (R152). -/
  saved : List Cur := []
  descDone : Word := 0
  preempts : Word := 0
  /-- Thousandths of an ACLK cycle spent executing, saving or restoring. -/
  busyK : Nat := 0
  busyHi : Word := 0
  err : Word := 0
  errInfo : Word := 0
  errAddr : Dword := 0
  sramCorr : Word := 0
  exp : Option ExpRec := none
  /-- For each context the space-0 spans (offset, bytes) that its current kernel on this array has written (R301). -/
  wrote : List (Nat × List (Nat × Nat)) := []
  /-- The context whose descriptors use the line buffer since the last context switch, and the spans that they have written (R134). -/
  lineOf : Nat := 256
  line : List (Nat × Nat) := []
  deriving DecidableEq, Repr

/-- OC_MAP[n] (R156). -/
structure ArrMap where
  valid : Bool := true
  pending : Bool := false
  nextPhys : Nat := 0
  phys : Nat := 0
  deriving DecidableEq, Repr

structure Orchard where
  /-- Physical arrays retired (R127). -/
  failed : BitVec 34 := 0
  substCount : Word := 0
  err : Word := 0
  map : Vector ArrMap 32 := Vector.replicate 32 {}
  arr : Vector Arr 32 := Vector.replicate 32 {}
  /-- Words of array-local SRAM rewritten after an uncorrectable error: (physical array, word) (R127). -/
  sramBad : List (Nat × Nat) := []
  deriving DecidableEq, Repr

/-! ### Frame generation (08) -/

/-- A SETTLED period that no entry has issued yet (R218): its brackets' counters, whether only its observed instant is left (a gap
beyond the limit), and the mode's reference pair and cold-start count when it formed. -/
structure Period where
  c : Nat
  m : Nat
  only0 : Bool
  ref : Nat × Nat
  epoch : Nat
  deriving DecidableEq, Repr

/-- One mode of a stream in the sequencer (R216 to R221, R228, R245, R247). -/
structure FgMode where
  /-- Counter and capture time of the reference frame; none while the mode waits for one (R216). -/
  ref : Option (Nat × Nat) := none
  /-- Cold starts so far: a step of an earlier one commits nothing. -/
  epoch : Nat := 0
  /-- LIVE: the first instant (R219). -/
  first : Nat := 0
  /-- LIVE: every instant from first below next is written; ahead lists those written beyond. -/
  next : Nat := 0
  ahead : List Nat := []
  /-- LIVE: instants issued that no entry issues again. -/
  issued : List Nat := []
  /-- LIVE: anchors of instants that are repeats, which run once the journal has room for them (R232, R509). -/
  late : List Nat := []
  lastJ : Option Nat := none
  /-- The slot most recently written since the cold start: its instant, and the instant whose pixels it holds (R245). -/
  src : Option (Nat × Nat) := none
  anchors : Nat := 0
  parity : Bool := false
  /-- SETTLED: a tide entry that came due with no period formed: whether its step is BE, and when its budget runs out (log 33). -/
  owed : Option (Bool × Option Nat) := none
  /-- SETTLED: the earliest presentation time of a slot of the ring that another has been written over (R265). -/
  gone : Option Nat := none
  /-- SETTLED: periods formed and not yet issued, earliest first. -/
  periods : List Period := []
  deriving DecidableEq, Repr

/-- A stream's frame-generation side (R249, R250; reset values by R249). -/
structure FgStream where
  ctl : Word := 7
  repDeadline : Word := 0
  repInput : Word := 0
  setLate : Word := 0
  coldCount : Word := 0
  refCapt : Nat := 0
  slack : Word := 0
  live : FgMode := {}
  settled : FgMode := {}
  deriving DecidableEq, Repr

/-- A pack in progress (R228, R244): everything the slot needs besides the staging buffer. -/
structure Pack where
  step : Word
  ctx : Nat
  stream : Nat
  settled : Bool
  j : Nat
  pres : Nat
  kind : Nat
  e : Int
  den : Nat
  a : Nat
  b : Nat
  /-- The loss maps of IN_A and IN_B as the slots held them (R241). -/
  lossA : Bytes
  lossB : Bytes
  /-- Basin byte offset (space 2 of the partition) of the bound OUT staging buffer. -/
  outAt : Nat
  s0 : Dword
  cold : Bool
  prog : Hash
  /-- The mode's cold-start count at issue. -/
  epoch : Nat
  deriving DecidableEq, Repr

structure FrameGen where
  err : Word := 0
  px : Nat := 0
  pxHi : Word := 0
  st : Vector FgStream 256 := Vector.replicate 256 {}
  packs : List Pack := []
  /-- Contexts whose next step takes OUT1 (R224). -/
  toggle : List Nat := []
  deriving DecidableEq, Repr

/-! ### Serving (09) -/

/-- A clip entry (R260). -/
structure Clip where
  stream : Nat
  source : Nat
  stride : Nat
  cap : Nat
  start : Nat
  stop : Nat
  deriving DecidableEq, Repr

/-- A query record (R258). -/
structure Query where
  id : Word
  ctx : Nat
  topk : Nat
  temp : BitVec 16
  stops : List Nat
  clips : List Clip
  n : Nat
  maxNew : Nat
  seed : Dword
  tokens : List Nat
  deriving DecidableEq, Repr

/-- A frame a sequence takes from a clip: the clip's stream and source, its slot or entry and its key (j or counter), and
the ring's region offset (R264). -/
structure ClipFrame where
  clip : Nat
  stream : Nat
  source : Nat
  entry : Nat
  key : Nat
  deriving DecidableEq, Repr

/-- SV_SEQ_STATE (R285). -/
inductive SeqState where
  | vision
  | prefill
  | decode
  | ending
  deriving DecidableEq, Repr

/-- A sequence-table entry (R263, R264, R277, R284). -/
structure Seq where
  entry : Nat
  slot : Nat
  q : Query
  st : SeqState
  reserved : Nat
  /-- Reserved block numbers not yet assigned, ascending, and those assigned, in position order (R257). -/
  spare : List Nat := []
  blocks : List Nat
  frames : List ClipFrame
  vdone : Nat
  rows : Nat
  done : Nat
  positions : Nat
  gen : Dword
  generated : Nat
  /-- The token of the sequence's next decode row. -/
  last : Nat
  /-- Cancelled while a step of it runs (R279). -/
  cancel : Bool
  deriving DecidableEq, Repr

/-- A segment of a batch step (R267, R271): sequence entry, rows, first row, first position, decode or prefill. -/
structure Seg where
  seq : Nat
  slot : Nat
  rows : Nat
  r0 : Nat
  p0 : Nat
  decode : Bool
  sample : Bool
  deriving DecidableEq, Repr

structure Serving where
  err : Word := 0
  budget : Word := 0x800
  chunk : Word := 0x200
  lastRows : Word := 0
  lastUs : Word := 0
  steps : Nat := 0
  stepsHi : Word := 0
  tokens : Nat := 0
  tokensHi : Word := 0
  reject : Word := 0
  /-- Staged queries, oldest first (R259). -/
  staged : List Query := []
  queue : List Query := []
  seqs : List Seq := []
  /-- Rotation of the decode rows per context (R271). -/
  rot : List (Nat × Nat) := []
  /-- Contexts whose latest serving step was a batch step (R272). -/
  lastBatch : List Nat := []
  deriving DecidableEq, Repr

/-! ### Scheduler (10, 17) -/

/-- TT_CTX_STATE.STATE (R325). -/
inductive CtxState where
  | absent
  | idle
  | running
  | blocked
  | swapped
  | swapOut
  | swapIn
  | faulted
  | restarting
  deriving DecidableEq, Repr

/-- What lies where in a partition's Basin banks (R328, R329): kind 0 frame slot k of stream s under id 3 s + k, 1 the LIVE state pair of a
stream, 2 its SETTLED state pair, 3 a berth's Basin share, 4 a berth's array share (an array-store offset). -/
structure Placed where
  part : Nat
  kind : Nat
  id : Nat
  off : Nat
  size : Nat
  deriving DecidableEq, Repr

/-- A context that an amendment removed or replaced while a step of it was in flight (R61): its declaration and program as they were, the
partition under its ghost's number where that went too, and, once the amendment has taken its berth, where its share lay (R329):
unberthed while its share lies there, else it waits for those bytes. -/
structure Leaving where
  decl : CtxDecl
  prog : Option ProgramDecl
  unberthed : Bool := false
  basin : Option Placed := none
  store : Option Placed := none
  deriving DecidableEq, Repr

/-- A context in the scheduler (R307, R308, R310, R325, R427, R520; reset values by R322). -/
structure Ctx where
  st : CtxState := .absent
  berth : Option Nat := none
  /-- FAULT; 0x100 more for a fault of R517, which R520 tells from a timeout. -/
  fault : Nat := 0
  incarnation : Nat := 0
  blockedAt : Nat := 0
  residentAt : Nat := 0
  /-- The berth whose share its swap area holds. -/
  lastBerth : Nat := 0
  /-- Swapped out: since when it has been runnable (R306). -/
  runnableAt : Option Nat := none
  /-- It has not been resident since application, restart or partition reset: its share is zero-filled when it enters (R304). -/
  fresh : Bool := true
  /-- Has completed a kernel, or held its berth 1 ms, since it was swapped in (R308). -/
  progressed : Bool := true
  /-- Counts as blocked from its next step boundary (R308). -/
  quantum : Bool := false
  /-- That step boundary has come: it counts as blocked since blockedAt, whatever it runs. -/
  yields : Bool := false
  /-- Torn down by an amendment once its step in flight completes (R61). -/
  left : Option Leaving := none
  deriving DecidableEq, Repr

/-- A context that an amendment removed or replaced, and that has not come back. -/
def Ctx.leaving (k : Ctx) : Bool := k.left.isSome

/-- A berth's occupant and transfer: 0 none, 1 out, 2 in (R322); the context that enters next. -/
structure Berth where
  occ : Option Nat := none
  xfer : Nat := 0
  incoming : Option Nat := none
  deriving DecidableEq, Repr

/-- What a step works on (R507). -/
inductive Subject where
  | frame (stream : Nat) (settled : Bool) (j : Nat)
  | batch (n : Nat)
  | vision (query : Word) (frame : Nat)
  | context (entry : Nat) (cycle : Nat)
  deriving DecidableEq, Repr

/-- Where a step is: waiting for its inputs, or its network in the queues. -/
inductive Phase where
  | waiting
  | running
  deriving DecidableEq, Repr

/-- What the limit of R186 gives a step whose replay is due (R514): the fault code of R150 with the opcode and the address that the array
would record, or, after a failed Basin read, the outcome of R333 at a Basin address. -/
structure Replay where
  code : Nat
  array : Nat := 0
  opcode : Nat := 0
  addr : Nat := 0
  basin : Bool := false
  deriving DecidableEq, Repr

/-- An issued step and its journal (R298, R506, R507). -/
structure Step where
  no : Word
  ctx : Nat
  part : Nat
  be : Bool
  subj : Subject
  phase : Phase
  opened : Nat
  /-- Journal entry and extension in the partition's journal (R509). -/
  jent : Nat
  jext : Option Nat
  runs : Nat
  /-- Block-tag mismatches so far (R186). -/
  mism : Nat
  /-- A replay is due (R514, R515). -/
  replay : Option Replay
  /-- Residue checks that failed: the run and the physical array (R127). -/
  resid : List (Nat × Nat) := []
  /-- The EXPANDs of its program that write the expansion buffer, in program order (R205). -/
  expands : List ExpRec := []
  marks : List (Nat × Word)
  sigs : List Nat
  binds : List Nat
  gen : Dword
  parity : Bool
  /-- It bound the most recent map in place of one for its frames (R224, R226). -/
  stale : Bool := false
  anchor : Bool
  /-- An anchor whose instant is already a repeat: its output is discarded (R232). -/
  discard : Bool
  kind : Nat
  pres : Nat
  /-- The mode's cold-start count at issue. -/
  epoch : Nat
  e : Int
  den : Nat
  /-- Frame counters of IN_A and IN_B. -/
  a : Nat
  b : Nat
  out1 : Bool
  list : Nat
  /-- Its tide entry belonged to a table that has been replaced (R59, R294). -/
  oldTable : Bool := false
  budgetEnd : Option Nat
  segs : List Seg
  /-- Kernels not yet eligible (R299). -/
  later : List Kernel
  deriving DecidableEq, Repr

/-- An array draining toward another partition, or to the pool (R63, R317); move: the amendment moved it. -/
structure Drain where
  array : Nat
  donor : Nat
  donee : Option Nat
  move : Bool
  deriving DecidableEq, Repr

/-- TT_PART_STATE.STATE (R324). -/
inductive PartState where
  | absent
  | run
  | reset
  deriving DecidableEq, Repr

structure Sched where
  err : Word := 0
  quantum : Word := 0x32
  overruns : Word := 0
  skipped : Word := 0
  realigns : Word := 0
  swaps : Word := 0
  cycles : Nat := 0
  cyclesHi : Word := 0
  start : Nat := 0
  inCycle : Bool := false
  next : Nat := 0
  mask : Vector (BitVec 32) 8 := Vector.replicate 8 0
  pst : Vector PartState 8 := Vector.replicate 8 .absent
  drains : List Drain := []
  /-- Partitions that an amendment removed with steps of theirs in flight (R61): each under a number of its own from 8 up that
  is its old one modulo 8, its array mask the effective one that it had. -/
  ghosts : List PartDecl := []
  /-- Arrays held by a partition other than the declared one by donation: (array, donor, donee). -/
  donated : List (Nat × Nat × Nat) := []
  degraded : List Nat := []
  ctx : Vector Ctx 256 := Vector.replicate 256 {}
  berth : Vector Berth 16 := Vector.replicate 16 {}
  /-- Firmware restarts of contexts: (context, reference time) (R520). -/
  fwRestarts : List (Nat × Nat) := []
  steps : List Step := []
  waiting : List Kernel := []
  stepNo : Word := 0
  layout : List Placed := []
  deriving DecidableEq, Repr

/-! ### Memory (11) -/

/-- An applied region-table entry (R343). -/
structure Entry where
  repl : Bool
  rdonly : Bool
  device : Bool
  owner : Nat
  plost : Bool
  rlost : Bool
  decl : Nat
  pch : Nat
  pslot : Nat
  rch : Nat
  rslot : Nat
  deriving DecidableEq, Repr

/-- MC_CH_STATUS.POWER (R356), with held self-refresh apart (R354). -/
inductive ChPower where
  | active
  | powerDown
  | selfRefresh
  | training
  | held
  deriving DecidableEq, Repr

/-- A DRAM channel (R349 to R356; reset values by R355). -/
structure Channel where
  trained : Bool := false
  lost : Bool := false
  cause : Nat := 0
  power : ChPower := .training
  refRate : BitVec 4 := 0
  corr : Word := 0
  uncorr : Word := 0
  retrains : Word := 0
  retrainFails : Nat := 0
  scrubSlot : Nat := 0
  scrubPasses : Nat := 0
  /-- Retired slots, in order of retirement (R350). -/
  bad : List Nat := []
  /-- MC_BAD_SLOTS and MC_BAD_LIST: the sticky log of the retirements, (k, word) for the words that are not 0 (R355). -/
  badCount : Word := 0
  badList : List (Nat × Word) := []
  lowNs : Nat := 0
  /-- Sectors that failed all three reads, by their number in the channel, each with the reference time of its latest failure (R351). -/
  failAt : List (Nat × Nat) := []
  /-- Primary sectors rewritten from their replica: (slot, sector, reference time) (R350). -/
  rewritten : List (Nat × Nat × Nat) := []
  idleSince : Nat := 0
  deriving DecidableEq, Repr

structure MemCtl where
  err : Word := 0
  ctl : Word := 6
  scrubPeriod : Word := 0x18
  errAddr : Nat := 0
  errInfo : Word := 0
  errStep : Word := 0xFFFFFFFF
  violAddr : Dword := 0
  violInfo : Word := 0
  tableHash : Hash := 0
  ch : Vector Channel 16 := Vector.replicate 16 {}
  table : List (Nat × Entry) := []
  /-- The copy in the device reserve: its declarations and entries (R345). -/
  copyDecls : List RegionDecl := []
  copy : List (Nat × Entry) := []
  deriving DecidableEq, Repr

/-- A Basin bank (R334, R359). -/
structure Bank where
  corr : Word := 0
  spares : Nat := 0
  /-- Words that failed uncorrectably, each with the reference time of its last rewrite since, and stuck words (R334). -/
  failed : List (Nat × Option Nat) := []
  stuck : List Nat := []
  deriving DecidableEq, Repr

structure BasinCtl where
  err : Word := 0
  ctl : Word := 0
  scrubPeriod : Word := 0x258
  errAddr : Nat := 0
  errInfo : Word := 0
  errStep : Word := 0xFFFFFFFF
  bank : Vector Bank 32 := Vector.replicate 32 {}
  deriving DecidableEq, Repr

/-! ### Sync objects and interrupts (12) -/

/-- An allocated sync object (R363, R384). -/
structure SyncObj where
  value : Word
  peer : Bool
  signaller : Nat
  owner : Nat
  deriving DecidableEq, Repr

/-- A registered or retrying WAIT (R368 to R370): its object and its amount V. left: what remains of its timeout in ns, none for no
timeout, reckoned from the reference time since while it runs. -/
structure Waiter where
  array : Nat
  be : Bool
  ctx : Nat
  step : Word
  obj : Nat
  value : Word
  left : Option Nat
  since : Nat
  /-- The object's value has reached the target since the WAIT registered, and the mark has advanced to it (R364, R368). -/
  sat : Bool := false
  /-- Its context is pre-empted on the array or swapped out: the timeout stands still (R370). -/
  paused : Bool := false
  deriving DecidableEq, Repr

/-- A watch (R373). -/
structure Watch where
  obj : Word := 0
  thresh : Word := 0
  step : Word := 0
  deriving DecidableEq, Repr

structure SyncCtl where
  err : Word := 0
  objs : List (Nat × SyncObj) := []
  /-- Consumption marks: ((context x 65536 + object), mark), absent is 0. -/
  marks : List (Nat × Word) := []
  waiters : List Waiter := []
  /-- WAITs that found the table full, in the order they reached their queue heads. -/
  retry : List Waiter := []
  peak : Nat := 0
  refused : Word := 0
  watch : Vector Watch 256 := Vector.replicate 256 {}
  deriving DecidableEq, Repr

/-- IC_TARGET[n] (R386). -/
structure Route where
  target : Nat
  prio : Nat
  watch : Bool := false
  deriving DecidableEq, Repr

/-- The time and detail of a source's last raising (R381). -/
structure Raising where
  time : Nat := 0
  detail : Bytes := []
  deriving DecidableEq, Repr

/-- What sleep keeps of the interrupt controller (R382). -/
structure IcKept where
  mask : Vector Word 32
  count : Vector Nat 1024
  stack : Vector (List Nat) 5
  last : List (Nat × Raising)
  deriving DecidableEq, Repr

structure IntCtl where
  err : Word := 0
  /-- IC_EVT_SEQ: sequence of the last event frame sent, 0 before the first. -/
  evtSeq : Word := 0
  mask : Vector Word 32 := Vector.replicate 32 0
  route : Vector Route 1024
  count : Vector Nat 1024 := Vector.replicate 1024 0
  stack : Vector (List Nat) 5 := Vector.replicate 5 []
  claimed : Vector Word 5 := Vector.replicate 5 0xFFFF
  /-- The last raising of each source; the queued events of R380 are the pending, unmasked sources of target 5. -/
  last : List (Nat × Raising) := []
  kept : Option IcKept := none
  deriving DecidableEq, Repr

/-! ### Scan-out (13) -/

/-- SO_OUT_STATUS.STATE (R406). -/
inductive OutState where
  | off
  | waitHpd
  | training
  | active
  | failed
  deriving DecidableEq, Repr

/-- A window of an output frame: its declaration, and the stream and the slot's device address that it shows (R395). -/
structure ScanWin where
  decl : WindowDecl
  src : Option (StreamDecl × Nat)
  deriving DecidableEq, Repr

/-- What an output frame is sent by: the output's and its windows' declarations as its vertical blanking found them (R404), lowest layer
first. -/
structure ScanFrame where
  decl : OutputDecl
  wins : List ScanWin
  deriving DecidableEq, Repr

/-- The source bytes of a window for one output line, the columns that are shown: luma row, chroma row, provenance row; none where a read of
them failed (R397, R400). -/
structure SrcRow where
  win : Nat
  data : Option (Bytes × Bytes × Bytes)
  deriving DecidableEq, Repr

structure Output where
  ctl : Word := 0x1F
  st : OutState := .off
  lanes : Nat := 0
  rate : Nat := 0
  /-- The combination in training. -/
  tryLanes : Nat := 0
  tryRate : Nat := 0
  hpd : Bool := false
  evt : Word := 0
  frames : Word := 0
  underFrames : Word := 0
  underPx : Word := 0
  torn : Word := 0
  /-- Reference time at which the latest vertical blanking began; none before the first since the output became ACTIVE. -/
  vbAt : Option Nat := none
  /-- Reference time at which the prefill of that blanking completes (R401). -/
  filledAt : Nat := 0
  frame : Option ScanFrame := none
  /-- The line buffer: the source rows of the upcoming output lines, in line order (R400). -/
  buf : List (List SrcRow) := []
  /-- The lines of the output frame that have been sent or are being sent, as codes of R, G, B by R398. -/
  lines : List (List (Nat × Nat × Nat)) := []
  /-- Pixels of that frame sent without their source bytes: line, first column, pixels (R403). -/
  late : List (Nat × Nat × Nat) := []
  /-- The output frame sent last. -/
  shown : List (List (Nat × Nat × Nat)) := []
  deriving DecidableEq, Repr

structure Win where
  valid : Bool := false
  nosrc : Bool := false
  torn : Bool := false
  output : Nat := 0
  inst : Option Nat := none
  /-- Device address of the slot shown. -/
  addr : Nat := 0
  deriving DecidableEq, Repr

structure ScanOut where
  out : Vector Output 4 := Vector.replicate 4 {}
  win : Vector Win 64 := Vector.replicate 64 {}
  deriving DecidableEq, Repr

/-! ### Host and peer protocols (14) -/

/-- The commands of R418. -/
inductive Op where
  | hello
  | opn
  | close
  | nop
  | regRead
  | regWrite
  | bulkRead
  | bulkWrite
  | imageLoad
  | admitImg
  | abortImg
  | weightLoad
  | sealSet
  | query
  | queryTokens
  | cancel
  | resend
  | snapshot
  | warmReset
  | sleep
  | attest
  | fwLoad
  | fwUpdate
  | ownerKey
  | unknown (code : BitVec 16)
  deriving DecidableEq, Repr

/-- A received command with what its port saw and, for a bulk read, the sector errors it will meet. -/
structure Req where
  op : Op
  f : QcpFrame
  errs : List SectorErr := []
  deriving DecidableEq, Repr

/-- A response frame, kept in the cache (R414). -/
structure Resp where
  seq : Word
  op : BitVec 16
  session : Word
  status : Nat
  payload : Bytes
  deriving DecidableEq, Repr

/-- The open session (R407, R411, R412). -/
structure Session where
  id : Word
  owned : Bool
  mac : Mac
  port : Nat
  tag : Option (BitVec 16)
  /-- Reference time of the last accepted command. -/
  lastAt : Nat
  deriving DecidableEq, Repr

/-- A deferred command in progress (R415): ADMIT, SEAL of a set, FW_UPDATE of a length. -/
structure Deferred where
  r : Req
  arg : Nat
  deriving DecidableEq, Repr

/-- The nonce of the last HELLO (R410). -/
structure Nonce where
  value : Hash
  at_ : Nat
  used : Bool
  deriving DecidableEq, Repr

/-- A transmitted frame: port, destination, tag, EtherType, bytes after the EtherType. -/
structure TxFrame where
  port : Nat
  dst : Mac
  tag : Option (BitVec 16)
  etype : BitVec 16
  bytes : Bytes
  deriving DecidableEq, Repr

/-- A logged token frame: sequence, payload, whether it has been sent (R423). -/
structure TokFrame where
  seq : Word
  payload : Bytes
  sent : Bool
  deriving DecidableEq, Repr

/-- A peer (R425, R430, R432 to R435; reset values by R432). -/
structure Peer where
  mac : Mac := 0
  ctl : Word := 0
  present : Bool := false
  missed : Nat := 0
  /-- A heartbeat arrived in the interval in progress. -/
  heard : Bool := false
  /-- The last 64 signals applied: tag and the status answered (R430). -/
  applied : List (Word × Nat) := []
  deriving DecidableEq, Repr

/-- A published window (R432). -/
structure Pub where
  decl : Word := 0
  off : Word := 0
  len : Word := 0
  rate : Word := 0x100
  deriving DecidableEq, Repr

/-- A request to a peer (R427, R429, R430). -/
structure PeerReq where
  /-- Its number among the requests made, and its tag, which it has once it is outstanding. -/
  id : Nat
  tag : Word
  peer : Nat
  ctx : Nat
  step : Word
  /-- A remote signal's object and amount, or a read's window and offset. -/
  isSignal : Bool
  target : Word
  value : Word
  length : Nat
  /-- A read's first byte as an offset in the COPY's source, and the array that runs the COPY. -/
  dest : Nat
  array : Nat
  sentAt : Nat
  resent : Bool
  /-- Pieces received: offset and bytes. -/
  pieces : List (Nat × Bytes)
  deriving DecidableEq, Repr

/-- The host and peer link engine (R407 to R435; reset values by R432). -/
structure Proto where
  err : Word := 0
  /-- RWS. -/
  qcpEtype : Word := 0x88B5
  pwpEtype : Word := 0x88B6
  idle : Word := 0xBB8
  reqTimeout : Word := 0x7D0
  session : Option Session := none
  next : Word := 0
  drops : Word := 0
  dups : Word := 0
  /-- Sequence of the next token frame. -/
  tokNext : Word := 0
  pwpDrops : Word := 0
  reqFails : Word := 0
  nonce : Option Nonce := none
  /-- HELLOs, and OPENs found valid, that wait for a passing random source (R439), with the reference times at which they were received. -/
  hellos : List (Req × Nat) := []
  held : List Req := []
  cache : List Resp := []
  deferred : List Deferred := []
  /-- The last 4,096 token frames (R423). -/
  tokLog : List TokFrame := []
  peer : Vector Peer 255 := Vector.replicate 255 {}
  pub : Vector Pub 256 := Vector.replicate 256 {}
  reqs : List PeerReq := []
  waitReqs : List PeerReq := []
  /-- The serial of the next tag (R427). -/
  serial : Nat := 0
  /-- Requests made so far, which number them. -/
  made : Nat := 0
  /-- Reference time of the latest tick of the heartbeat timer (R425). -/
  beatAt : Option Nat := none
  deriving DecidableEq, Repr

/-! ### Harbourmaster and ledger (15) -/

/-- How far the boot has come (R441 to R443). -/
inductive Stage where
  | rom
  | network
  | running
  deriving DecidableEq, Repr

/-- HM_FW_UPD (R465). -/
inductive FwPhase where
  | idle
  | verifying
  | copied
  | switching
  | rewriting
  deriving DecidableEq, Repr

structure Harbour where
  err : Word := 0
  bootCount : Word := 1
  fwVersion : Word := 0
  fwHash : Hash := 0
  /-- HM_BOOT_STATUS (RWS). -/
  bootStatus : Word := 0
  upd : FwPhase := .idle
  updFailed : Bool := false
  /-- Length of the image being verified, then copied and switched to. -/
  updLen : Nat := 0
  updVersion : Word := 0
  updEpoch : Nat := 0
  updHash : Hash := 0
  /-- The boundary count at which the switch began (R448). -/
  switchAt : Nat := 0
  /-- Booted from the network (R442). -/
  netboot : Bool := false
  /-- The image verified by an update, for the flash rewrite (R449). -/
  updImage : Bytes := []
  rngOk : Bool := false
  rngFails : Word := 0
  idReady : Bool := false
  debug : Bool := false
  /-- The challenge that the TAP presents (R453; log 135). -/
  challenge : Option Hash := none
  owner : Option Rsa := none
  cak : Vector (Option Cak) 4 := Vector.replicate 4 none
  cakData : Vector Word 12 := Vector.replicate 12 0
  stage : Stage := .rom
  deriving DecidableEq, Repr

/-- A checkpoint's fields (R460). -/
structure Ckpt where
  q : Nat
  flags : Nat
  time : Nat
  first : Nat
  count : Nat
  state : Nat
  head : Hash
  serial : Nat
  bootCount : Word
  fwVersion : Word
  storeHash : Hash
  deriving DecidableEq, Repr

/-- The records appended at the latest moment at which slots completed: reference time, the chain head and index before them, and the records
with stream and mode as their order (R458). -/
structure LgMoment where
  at_ : Nat
  head : Hash
  index : Nat
  recs : List (Nat × Bytes)
  deriving DecidableEq, Repr

structure Ledger where
  err : Word := 0
  index : Nat := 0
  indexHi : Word := 0
  /-- Checkpoints written so far; the last number is one less. -/
  ckpts : Nat := 0
  ckptHi : Word := 0
  head : Hash := 0
  ckptHead : Hash := 0
  ckptTime : Nat := 0
  ckptTimeHi : Word := 0
  ckptFirst : Nat := 0
  ckptCount : Nat := 0
  /-- Checkpoint 0 of this power-on is written. -/
  genesis : Bool := false
  /-- The chain head of this power-on is drawn (R461). -/
  started : Bool := false
  /-- Reference time at which the latest checkpoint closed. -/
  closedAt : Option Nat := none
  moment : Option LgMoment := none
  /-- Checkpoints closed that await their signature, oldest first. -/
  signing : List Ckpt := []
  /-- Items to be written again: byte offset in the region and bytes (R463). -/
  rewrite : List (Nat × Bytes) := []
  /-- Checkpoint flags [3:1] for the next checkpoint. -/
  flags : Nat := 0
  deriving DecidableEq, Repr

/-! ### Power, Lighthouse, thermal (16) -/

/-- Where an operating-point transition is (R473). -/
inductive OpMove where
  /-- Voltage commanded for a faster point, waiting to settle. -/
  | raising (goal : Nat)
  /-- Post-divider already slowed; the lower voltage has not been acknowledged yet. -/
  | lowering (goal : Nat)
  deriving DecidableEq, Repr

structure Power where
  err : Word := 0
  opReq : Word := 0
  cap : Word := 0x73
  pmbus : Word := 0x00010040
  vout : Word := 0
  iout : Word := 0
  transitions : Word := 0
  cur : Nat := 3
  vmodeRead : Bool := false
  vmodeBad : Bool := false
  move : Option OpMove := none
  retryAt : Option Nat := none
  powCap : Nat := 0
  /-- Averaging windows: sum of power samples (mV x 10 mA) and their number, over 10 ms and 100 ms. -/
  sum10 : Nat := 0
  n10 : Nat := 0
  sum100 : Nat := 0
  n100 : Nat := 0
  opNs : Vector Nat 4 := Vector.replicate 4 0
  /-- PMBus write commands sent: the regulator's address, command code and value (R474). -/
  sent : List (Nat × Nat × Nat) := []
  /-- Switched domains that are off: their condition of R479 holds, or has ended and they have not switched on yet. -/
  off : BitVec 96 := 0
  deriving DecidableEq, Repr

/-- The Lighthouse's states (R484). -/
inductive LhState where
  | awake
  | entering
  | asleep
  | watchIdle
  | watchCycle
  | waking
  | tripped
  deriving DecidableEq, Repr

/-- The Lighthouse (R484 to R493, R499; reset values by R499). -/
structure Lighthouse where
  st : LhState := .awake
  err : Word := 0
  lastWake : Word := 0
  wakeTicks : Nat := 0
  ticksHi : Word := 0
  watchCfg : Word := 0x001F0000
  watchPeriod : Word := 0xA
  watchThresh : Word := 0x00100000
  watchSad : Word := 0
  watchCycles : Word := 0
  sleeps : Word := 0
  i2cMatches : Word := 0
  /-- A wake event latched: cause and detail (R486). -/
  latched : Option (Nat × Nat) := none
  /-- Entry in progress or sleep is watch mode. -/
  watch : Bool := false
  /-- Device time and Lighthouse time saved at entry (R493). -/
  savedDev : Nat := 0
  savedLh : Nat := 0
  /-- Lighthouse time at which the idle rest or the cycle began (R488, R491). -/
  periodAt : Nat := 0
  securedAt : Option Nat := none
  hasRef : Bool := false
  /-- The watch frame closed in this cycle waits for its comparison. -/
  frameReady : Bool := false
  /-- The stream entry that watch mode watches. -/
  watchStream : Option StreamDecl := none
  /-- Wake-up power failed and is retried (R492). -/
  pgFailed : Bool := false
  /-- The status byte of the last I2C read (R489). -/
  i2cData : Byte := 0
  deriving DecidableEq, Repr

/-- A temperature sensor (R476, R503). -/
structure Sensor where
  fault : Bool := false
  /-- Signed quarter degrees. -/
  reading : Int := 0
  /-- Samples since it last changed. -/
  same : Nat := 0
  deriving DecidableEq, Repr

structure Thermal where
  err : Word := 0
  hyst : Word := 3
  trips : Word := 0
  peak : Word := 0
  sensor : Vector Sensor 19 := Vector.replicate 19 {}
  cap : Nat := 0
  /-- Consecutive samples below each cap's entry threshold less the hysteresis. -/
  below : Vector Nat 4 := Vector.replicate 4 0
  capNs : Vector Nat 4 := Vector.replicate 4 0
  /-- Lighthouse time since which sensor 18 has read 85 degrees or less (R477). -/
  coolSince : Option Nat := none
  /-- THERM_TRIP_N is asserted. -/
  trip : Bool := false
  deriving DecidableEq, Repr

/-! ### Snapshot (17) -/

structure Snap where
  held : Bool := false
  cause : Nat := 0
  detail : Nat := 0
  evt : Word := 0
  ctl : Word := 7
  trig : Vector Word 4 := Vector.replicate 4 0
  time : Nat := 0
  cycle : Word := 0
  cyclePos : Word := 0
  count : Word := 0
  missed : Word := 0
  domains : BitVec 96 := 0
  restarts : Vector Word 4 := Vector.replicate 4 0
  page : Word := 0
  /-- Latched register values other than 0: (address, value) (R523). -/
  latched : List (Nat × Word) := []
  /-- Triggers raised within the command in progress, in order: cause and detail. -/
  ask : List (Nat × Nat) := []
  /-- SNAP_OUT: reference time at which its latest pulse begins (R526). -/
  pulse : Option Nat := none
  deriving DecidableEq, Repr

/-- The last answer on the register bus to a master other than QCP: the value read, or an error response with its address. -/
inductive BusReply where
  | value (w : Word)
  | done
  | error (addr : Nat)
  deriving DecidableEq, Repr

/-- The package apart from fuses, straps, flash and the queue. -/
structure Chip where
  clk : Clocks := {}
  /-- In power-on reset (POR_N low). -/
  por : Bool := false
  id : Ident := {}
  /-- The model's counter of random bytes drawn (log 7). -/
  draws : Nat := 0
  cfg : Cfg := {}
  qy : Quay := {}
  me : Motion := {}
  sd : Disparity := {}
  oc : Orchard := {}
  fg : FrameGen := {}
  sv : Serving := {}
  tt : Sched := {}
  mc : MemCtl := {}
  bs : BasinCtl := {}
  sy : SyncCtl := {}
  ic : IntCtl
  so : ScanOut := {}
  pl : Proto := {}
  hm : Harbour := {}
  lg : Ledger := {}
  pm : Power := {}
  lh : Lighthouse := {}
  tm : Thermal := {}
  sn : Snap := {}
  dram : Memory := []
  basin : Memory := []
  sram : Memory := []
  /-- Frames sent, oldest first (log 11). -/
  tx : List TxFrame := []
  bus : BusReply := .done
  /-- DRAM sector errors that the command in progress has still to meet (log 9). -/
  met : List SectorErr := []
  deriving DecidableEq, Repr

/-- The SPI flash on the board (R440, R444, R545): its bytes, and whether a part answers its read-identification command. -/
structure Flash where
  present : Bool := false
  mem : Memory := []
  deriving DecidableEq, Repr

/-- No command of this block faults the machine: every error of the spec is an effect on the state (INVENTORY, Faults). The type
has no constructor that a meaning raises. -/
inductive Fault where
  /-- Raised by nothing; safe. -/
  | unreachable
  deriving DecidableEq, Repr

/-- Why a command has no meaning. -/
inductive Refusal where
  /-- Raised by exec's arm of a command that has no meaning yet; safe. -/
  | notModelled (mnemonic : String)
  /-- TEST_MODE was sampled as 1: "a 1 leaves the device in a factory test state in which no rule of this manual holds" (R539).
  Raised by every command but the two of power-on reset in that state; safe. -/
  | factoryTestState
  deriving Repr, DecidableEq

/-- The state of the block. -/
structure State where
  fuses : Fuses
  flash : Flash
  chip : Chip
  /-- The commands waiting, first in first out. -/
  pending : List Sys2Proof.Instr
  deriving DecidableEq, Repr

/-- The reset route of a source (R376). -/
def resetRoute (n : Nat) : Route :=
  if n < 512 then ⟨5, 4, false⟩
  else if n < 768 then ⟨5, 8, false⟩
  else if n = 781 then ⟨4, 14, false⟩
  else if n = 784 then ⟨0, 15, false⟩
  else if n < 799 then ⟨0, 12, false⟩
  else if n < 800 then ⟨0, 0, false⟩
  else if n < 832 then ⟨n % 4, 10, false⟩
  else ⟨0, 0, false⟩

/-- The routes before any image (R376). -/
def resetRoutes : Vector Route 1024 := ⟨((List.range 1024).map resetRoute).toArray, by simp⟩

/-- The mapping of logical to physical arrays at power-on (R126): logical array n on the n-th physical array that is not fused
off. -/
def powerOnMap (fused : BitVec 34) (grade : Grade) : Vector ArrMap 32 :=
  let up := (List.range 34).filter (fun p => !fused.toNat.testBit p)
  Vector.ofFn (fun i =>
    { valid := decide (i.val < (match grade with | .dx6430 => 32 | .dx3230 => 16)) && decide (i.val < up.length)
      phys := up.getD i.val 0 })

/-- The interrupt controller at reset (R385). -/
def IntCtl.initial : IntCtl := { route := resetRoutes }

/-- What the switched domains hold of the fuses when reset is released. -/
def identOf (f : Fuses) (st : Straps) : Ident :=
  { grade := f.grade, stepping := f.stepping, baseMac := f.baseMac, arrayFused := f.arrayFused, ownerSlots := f.ownerSlots, epoch := f.epoch,
    idSeed := f.idSeed, straps := st }

/-- The ports at reset: their roles from the straps (R64, R539). -/
def resetPorts (st : Straps) : Vector Port 8 := Vector.ofFn (fun i => { role := st.role.toNat.testBit i.val })

/-- The switched domains that are off at the release of reset (R479): the arrays fused off, every Basin bank but the intake's, the ports,
outputs and stacks that the grade lacks, the outputs, which no structure enables, the disparity engine, the scan-out engine and the
ledger engine. No array is idle-gated yet, as OC_GATED's reset value says (R155; log 77). -/
def resetOff (f : Fuses) : BitVec 96 :=
  let small := f.grade == .dx3230
  let ds := (List.range 34).filter (fun p => f.arrayFused.toNat.testBit p) ++ (List.range 31).map (34 + ·) ++
    (if small then [70, 71, 72, 73] else []) ++ [74, 75, 76, 77] ++ (if small then [80, 81] else []) ++ [87, 88, 92]
  ds.foldl (fun w d => w ||| BitVec.ofNat 96 (2 ^ d)) 0

/-- The chip at the release of power-on reset: every register at its reset value. -/
def Chip.powerOn (f : Fuses) (st : Straps) : Chip :=
  { ic := IntCtl.initial
    id := identOf f st
    qy := { ports := resetPorts st }
    oc := { map := powerOnMap f.arrayFused f.grade }
    hm := { cak := Vector.ofFn (fun i => if i.val = 0 then f.provCak else none) }
    pm := { off := resetOff f } }

/-- The block right after power-on reset is released: a DX6430 with blank fuses and no flash content (logs 5 and 6), nothing in
its memories, no command waiting. -/
def State.reset : State := { fuses := {}, flash := {}, chip := Chip.powerOn {} {}, pending := [] }

end Sys2Proof.Machine
end

