-- ==== Sys2Proof/Machine/Ops.lean ====
section
/-! DEFINITION. The named operations that every meaning shares: the memories, updating one block of the chip, raising an
interrupt source, the wake latch, sending a frame, passing time, and the shape of a command's meaning. -/

namespace Sys2Proof.Machine

/-! ### Memories -/

/-- The n bytes from address a of a sorted run of cells none of which lies below a; an unlisted byte reads 0 (log 4). -/
def Memory.readFrom : Nat → Nat → Memory → Bytes
  | 0, _, _ => []
  | n + 1, a, [] => 0 :: Memory.readFrom n (a + 1) []
  | n + 1, a, (k, b) :: rest =>
    if k = a then b :: Memory.readFrom n (a + 1) rest else 0 :: Memory.readFrom n (a + 1) ((k, b) :: rest)

/-- The n bytes from address a. -/
def Memory.read (m : Memory) (a n : Nat) : Bytes := Memory.readFrom n a (m.dropWhile (fun p => decide (p.1 < a)))

/-- One byte. -/
def Memory.get (m : Memory) (a : Nat) : Byte := (assoc a m).getD 0

/-- The cells of a run of bytes placed at an address: only those that are not 0. -/
def cellsOf : Nat → Bytes → Memory
  | _, [] => []
  | a, b :: bs => if b = 0 then cellsOf (a + 1) bs else (a, b) :: cellsOf (a + 1) bs

/-- The memory with n bytes from address a replaced by given cells. -/
def Memory.splice (m : Memory) (a n : Nat) (mid : Memory) : Memory :=
  m.takeWhile (fun p => decide (p.1 < a)) ++ mid ++ m.dropWhile (fun p => decide (p.1 < a + n))

/-- Write a run of bytes at an address. -/
def Memory.write (m : Memory) (a : Nat) (bs : Bytes) : Memory := m.splice a bs.length (cellsOf a bs)

/-- Zero-fill n bytes from an address. -/
def Memory.clear (m : Memory) (a n : Nat) : Memory := m.splice a n []

/-- Every entry at or above lo, addresses strictly rising, no entry 0. -/
def Memory.wfFrom : Nat → Memory → Bool
  | _, [] => true
  | lo, (k, b) :: rest => decide (lo ≤ k) && decide (b ≠ 0) && Memory.wfFrom (k + 1) rest

/-- The canonical form. -/
def Memory.wf (m : Memory) : Bool := Memory.wfFrom 0 m

/-! ### One block of the chip -/

def Chip.updClk (f : Clocks → Clocks) (c : Chip) : Chip := { c with clk := f c.clk }
def Chip.updId (f : Ident → Ident) (c : Chip) : Chip := { c with id := f c.id }
def Chip.updCfg (f : Cfg → Cfg) (c : Chip) : Chip := { c with cfg := f c.cfg }
def Chip.updQy (f : Quay → Quay) (c : Chip) : Chip := { c with qy := f c.qy }
def Chip.updMe (f : Motion → Motion) (c : Chip) : Chip := { c with me := f c.me }
def Chip.updSd (f : Disparity → Disparity) (c : Chip) : Chip := { c with sd := f c.sd }
def Chip.updOc (f : Orchard → Orchard) (c : Chip) : Chip := { c with oc := f c.oc }
def Chip.updFg (f : FrameGen → FrameGen) (c : Chip) : Chip := { c with fg := f c.fg }
def Chip.updSv (f : Serving → Serving) (c : Chip) : Chip := { c with sv := f c.sv }
def Chip.updTt (f : Sched → Sched) (c : Chip) : Chip := { c with tt := f c.tt }
def Chip.updMc (f : MemCtl → MemCtl) (c : Chip) : Chip := { c with mc := f c.mc }
def Chip.updBs (f : BasinCtl → BasinCtl) (c : Chip) : Chip := { c with bs := f c.bs }
def Chip.updSy (f : SyncCtl → SyncCtl) (c : Chip) : Chip := { c with sy := f c.sy }
def Chip.updIc (f : IntCtl → IntCtl) (c : Chip) : Chip := { c with ic := f c.ic }
def Chip.updSo (f : ScanOut → ScanOut) (c : Chip) : Chip := { c with so := f c.so }
def Chip.updPl (f : Proto → Proto) (c : Chip) : Chip := { c with pl := f c.pl }
def Chip.updHm (f : Harbour → Harbour) (c : Chip) : Chip := { c with hm := f c.hm }
def Chip.updLg (f : Ledger → Ledger) (c : Chip) : Chip := { c with lg := f c.lg }
def Chip.updPm (f : Power → Power) (c : Chip) : Chip := { c with pm := f c.pm }
def Chip.updLh (f : Lighthouse → Lighthouse) (c : Chip) : Chip := { c with lh := f c.lh }
def Chip.updTm (f : Thermal → Thermal) (c : Chip) : Chip := { c with tm := f c.tm }
def Chip.updSn (f : Snap → Snap) (c : Chip) : Chip := { c with sn := f c.sn }

def Chip.updDram (f : Memory → Memory) (c : Chip) : Chip := { c with dram := f c.dram }
def Chip.updBasin (f : Memory → Memory) (c : Chip) : Chip := { c with basin := f c.basin }
def Chip.updSram (f : Memory → Memory) (c : Chip) : Chip := { c with sram := f c.sram }

/-- The answer of the register bus to a master other than QCP. -/
def Chip.answer (b : BusReply) (c : Chip) : Chip := { c with bus := b }

def Chip.port (c : Chip) (p : Nat) : Port := vget {} c.qy.ports p
def Chip.stream (c : Chip) (s : Nat) : QStream := vget {} c.qy.st s
def Chip.arr (c : Chip) (a : Nat) : Arr := vget {} c.oc.arr a
def Chip.fgs (c : Chip) (s : Nat) : FgStream := vget {} c.fg.st s
def Chip.ctx (c : Chip) (x : Nat) : Ctx := vget {} c.tt.ctx x
def Chip.berth (c : Chip) (b : Nat) : Berth := vget {} c.tt.berth b
def Chip.chan (c : Chip) (n : Nat) : Channel := vget {} c.mc.ch n
def Chip.out (c : Chip) (n : Nat) : Output := vget {} c.so.out n
def Chip.win (c : Chip) (n : Nat) : Win := vget {} c.so.win n
def Chip.peer (c : Chip) (n : Nat) : Peer := vget {} c.pl.peer n

def Chip.updPort (p : Nat) (f : Port → Port) : Chip → Chip := Chip.updQy (fun q => { q with ports := vupd {} q.ports p f })
def Chip.updStream (s : Nat) (f : QStream → QStream) : Chip → Chip := Chip.updQy (fun q => { q with st := vupd {} q.st s f })
def Chip.updArr (a : Nat) (f : Arr → Arr) : Chip → Chip := Chip.updOc (fun o => { o with arr := vupd {} o.arr a f })
def Chip.updMap (a : Nat) (f : ArrMap → ArrMap) : Chip → Chip := Chip.updOc (fun o => { o with map := vupd {} o.map a f })
def Chip.updFgs (s : Nat) (f : FgStream → FgStream) : Chip → Chip := Chip.updFg (fun g => { g with st := vupd {} g.st s f })
def Chip.updCtx (x : Nat) (f : Ctx → Ctx) : Chip → Chip := Chip.updTt (fun t => { t with ctx := vupd {} t.ctx x f })
def Chip.updBerth (b : Nat) (f : Berth → Berth) : Chip → Chip := Chip.updTt (fun t => { t with berth := vupd {} t.berth b f })
def Chip.updChan (n : Nat) (f : Channel → Channel) : Chip → Chip := Chip.updMc (fun m => { m with ch := vupd {} m.ch n f })
def Chip.updBank (n : Nat) (f : Bank → Bank) : Chip → Chip := Chip.updBs (fun m => { m with bank := vupd {} m.bank n f })
def Chip.updOut (n : Nat) (f : Output → Output) : Chip → Chip := Chip.updSo (fun m => { m with out := vupd {} m.out n f })
def Chip.updWin (n : Nat) (f : Win → Win) : Chip → Chip := Chip.updSo (fun m => { m with win := vupd {} m.win n f })
def Chip.updPeer (n : Nat) (f : Peer → Peer) : Chip → Chip := Chip.updPl (fun m => { m with peer := vupd {} m.peer n f })

/-- Draw n bytes of the random source (R439; log 7). -/
def Chip.draw (n : Nat) (c : Chip) : Bytes × Chip :=
  ((List.range n).map (fun i => Config.randomByte (c.draws + i)), { c with draws := c.draws + n })

/-- Send a frame (log 11). -/
def Chip.send (t : TxFrame) (c : Chip) : Chip := { c with tx := c.tx ++ [t] }

/-! ### The states of the Lighthouse (R484) -/

/-- Everything runs. -/
def Chip.awake (c : Chip) : Bool := !c.por && c.lh.st == .awake

/-- The core die is up: awake, or entering sleep. -/
def Chip.up (c : Chip) : Bool := !c.por && (c.lh.st == .awake || c.lh.st == .entering)

/-- A state in which R487 gives wake events. -/
def Chip.resting (c : Chip) : Bool := c.lh.st == .asleep || c.lh.st == .watchIdle || c.lh.st == .watchCycle

/-- The reference and the other clocks that R469 gives at an operating point: ACLK in MHz. -/
def aclkMhz (op : Nat) : Nat := match op with | 0 => 1200 | 1 => 900 | 2 => 600 | _ => 300

/-- The 32.768 kHz ticks since power-on (R499). -/
def Chip.ticks (c : Chip) : Nat := c.clk.lh * 32768 / 1000000000

/-! ### Wake events (R486, R487) -/

/-- Latch a wake event; the first latched stays. A wake event counts in SLEEP and the watch states, and during entry. -/
def Chip.latchWake (cause detail : Nat) (c : Chip) : Chip :=
  if c.resting || c.lh.st == .entering then
    match c.lh.latched with
    | some _ => c
    | none => c.updLh (fun l => { l with latched := some (cause, detail), wakeTicks := c.ticks })
  else c

/-! ### Interrupt sources (R374, R375) -/

/-- The interrupt controller counts: its domain is on (R478, R479). -/
def Chip.icOn (c : Chip) : Bool := c.up

/-- The detail of a source that R381 does not list: its block's status word, then zeros. -/
def statusDetail (w : Word) : Bytes := toLe 4 w.toNat ++ List.replicate 12 0

/-- Triggers of R524, cause 4: the source is named by an enabled SN_TRIG_SRC while ERR_EN is set. -/
def Chip.askSource (n src : Nat) (c : Chip) : Chip :=
  if bitOf c.sn.ctl.toNat 3 && c.sn.trig.toList.any (fun w => w.toNat.testBit 31 && w.toNat % 1024 == src) then
    c.updSn (fun s => { s with ask := s.ask ++ List.replicate n (4, src) })
  else c

/-- How many of n raisings of a source find its counter at 255. -/
def Chip.lostRaisings (n src : Nat) (c : Chip) : Nat := vget 0 c.ic.count src + n - 255

/-- n raisings of a source: its arrival counter rises, saturating at 255; the last raising's time and detail are held; a
watched source is a wake event in the states of R487. -/
def Chip.raiseCore (n src : Nat) (detail : Bytes) (c : Chip) : Chip :=
  let w := if (vget (Route.mk 0 0 false) c.ic.route src).watch then c.latchWake 5 src else c
  if w.icOn then
    let ic := w.ic
    let cnt := vget 0 ic.count src
    let w := w.updIc (fun ic => { ic with
      count := vset ic.count src (min 255 (cnt + n))
      last := if cnt < 255 then assocSet src { time := c.clk.dev, detail := detail } ic.last else ic.last })
    w.askSource n src
  else w

/-- IC_ERR_STATUS[0] for lost raisings of source 798 itself raises nothing further. -/
def Chip.raise798 (n bit : Nat) (c : Chip) : Chip :=
  let c := c.updIc (fun ic => { ic with err := ic.err ||| BitVec.ofNat 32 (2 ^ bit) })
  let lost := c.lostRaisings n 798
  let c := c.raiseCore n 798 (statusDetail c.ic.err)
  if lost = 0 then c else c.updIc (fun ic => { ic with err := ic.err ||| 1 })

/-- n raisings of a source (R375). Each one that finds the counter at 255 is lost and sets IC_ERR_STATUS[0]. -/
def Chip.raiseN (n src : Nat) (detail : Bytes) (c : Chip) : Chip :=
  if n = 0 then c else
  let lost := c.lostRaisings n src
  let c' := c.raiseCore n src detail
  if lost = 0 || !c.icOn then c' else c'.raise798 lost 0

/-- One raising of a source. -/
def Chip.raise (src : Nat) (detail : Bytes) (c : Chip) : Chip := c.raiseN 1 src detail

/-! ### Time -/

/-- Device time runs at its rate while nanoseconds of the reference pass (R74, R75). -/
def Clocks.run (dt : Nat) (k : Clocks) : Clocks :=
  let n := dt * k.rate.num + k.rate.part
  { ref := k.ref + dt, dev := k.dev + n / k.rate.den, lh := k.lh + dt, rate := { k.rate with part := n % k.rate.den } }

/-- Nanoseconds of the reference pass: the clocks run and the residency counters with them (R469, R497, R502, AR_BUSY, MC_LOWPWR_US). In power-on
reset nothing runs. -/
def Chip.elapse (dt : Nat) (c : Chip) : Chip :=
  if c.por then c else
  let c := c.updClk (Clocks.run dt)
  if c.up then
    let mhz := aclkMhz c.pm.cur
    let c := c.updPm (fun p => { p with opNs := vupd 0 p.opNs p.cur (· + dt) })
    let c := c.updTm (fun t => if t.cap = 0 then t else { t with capNs := vupd 0 t.capNs t.cap (· + dt) })
    let c := c.updOc (fun o => { o with arr := o.arr.map (fun a =>
      if a.st == .run || a.st == .save || a.st == .restore then { a with busyK := a.busyK + dt * mhz } else a) })
    c.updMc (fun m => { m with ch := m.ch.map (fun h =>
      if h.power == .powerDown || h.power == .selfRefresh then { h with lowNs := h.lowNs + dt } else h) })
  else c

/-! ### The outcome of a command -/

/-- What exec answers. -/
abbrev Result := Host.Outcome State Fault Refusal

end Sys2Proof.Machine
end

