-- ==== Sys2Proof/Machine/Flags.lean ====
section
/-! DEFINITION. The status bits of the blocks: an event sets its bit and raises the block's source (R374, R375), whether or not the
bit already reads 1. -/

namespace Sys2Proof.Machine

/-- A word with one bit set. -/
def setBit (w : Word) (b : Nat) : Word := w ||| BitVec.ofNat 32 (2 ^ b)

/-- A word with the bits that a written value holds cleared (W1C, R5). -/
def clearBits (w v : Word) : Word := w &&& ~~~v

/-- Quay error (source 768). -/
def Chip.qyErr (b : Nat) (c : Chip) : Chip :=
  let c := c.updQy (fun q => { q with err := setBit q.err b })
  c.raise 768 (statusDetail c.qy.err)

/-- Orchard error (source 771) of a logical array: detail AR_ERR_INFO, AR_ERR_ADDR, logical array (R381). -/
def Chip.ocErr (b a : Nat) (c : Chip) : Chip :=
  let c := c.updOc (fun o => { o with err := setBit o.err b })
  let r := c.arr a
  c.raise 771 (toLe 4 r.errInfo.toNat ++ toLe 8 r.errAddr.toNat ++ toLe 4 a)

/-- Frame-generation error (source 772). -/
def Chip.fgErr (b : Nat) (c : Chip) : Chip :=
  let c := c.updFg (fun q => { q with err := setBit q.err b })
  c.raise 772 (statusDetail c.fg.err)

/-- Serving error (source 773). -/
def Chip.svErr (b : Nat) (c : Chip) : Chip :=
  let c := c.updSv (fun q => { q with err := setBit q.err b })
  c.raise 773 (statusDetail c.sv.err)

/-- Scheduler (source 774). -/
def Chip.ttErr (b : Nat) (c : Chip) : Chip :=
  let c := c.updTt (fun q => { q with err := setBit q.err b })
  c.raise 774 (statusDetail c.tt.err)

/-- Memory (source 775): a bit of MC_ERR_STATUS, with the information word, the address and the step of R381. -/
def Chip.mcErr (b : Nat) (info : Word) (addr : Nat) (step : Word) (c : Chip) : Chip :=
  let c := c.updMc (fun q => { q with err := setBit q.err b })
  c.raise 775 (toLe 4 info.toNat ++ toLe 8 addr ++ toLe 4 step.toNat)

/-- Memory (source 775): a bit of BS_ERR_STATUS. -/
def Chip.bsErr (b : Nat) (info : Word) (addr : Nat) (step : Word) (c : Chip) : Chip :=
  let c := c.updBs (fun q => { q with err := setBit q.err b })
  c.raise 775 (toLe 4 info.toNat ++ toLe 8 addr ++ toLe 4 step.toNat)

/-- Sync objects (source 776). -/
def Chip.syErr (b : Nat) (c : Chip) : Chip :=
  let c := c.updSy (fun q => { q with err := setBit q.err b })
  c.raise 776 (statusDetail c.sy.err)

/-- Scan-out output n (source 777 + n): bit b of SO_OUT_CTL lets the bit raise (R405). -/
def Chip.soEvt (n b : Nat) (c : Chip) : Chip :=
  let c := c.updOut n (fun o => { o with evt := setBit o.evt b })
  if (c.out n).ctl.toNat.testBit b then c.raise (777 + n) (statusDetail (c.out n).evt) else c

/-- Harbourmaster (source 781). -/
def Chip.hmErr (b : Nat) (c : Chip) : Chip :=
  let c := c.updHm (fun q => { q with err := setBit q.err b })
  c.raise 781 (statusDetail c.hm.err)

/-- Ledger engine (source 782). -/
def Chip.lgErr (b : Nat) (c : Chip) : Chip :=
  let c := c.updLg (fun q => { q with err := setBit q.err b })
  c.raise 782 (statusDetail c.lg.err)

/-- Power management (source 783). -/
def Chip.pmErr (b : Nat) (c : Chip) : Chip :=
  let c := c.updPm (fun q => { q with err := setBit q.err b })
  c.raise 783 (statusDetail c.pm.err)

/-- Thermal (source 784). -/
def Chip.tmErr (b : Nat) (c : Chip) : Chip :=
  let c := c.updTm (fun q => { q with err := setBit q.err b })
  c.raise 784 (statusDetail c.tm.err)

/-- Lighthouse (source 785). -/
def Chip.lhErr (b : Nat) (c : Chip) : Chip :=
  let c := c.updLh (fun q => { q with err := setBit q.err b })
  c.raise 785 (statusDetail c.lh.err)

/-- Snapshot (source 786). -/
def Chip.snEvt (b : Nat) (c : Chip) : Chip :=
  let c := c.updSn (fun q => { q with evt := setBit q.evt b })
  c.raise 786 (statusDetail c.sn.evt)

/-- Peer link (source 787). -/
def Chip.plErr (b : Nat) (c : Chip) : Chip :=
  let c := c.updPl (fun q => { q with err := setBit q.err b })
  c.raise 787 (statusDetail c.pl.err)

/-- Interrupt controller (source 798). -/
def Chip.icErr (b : Nat) (c : Chip) : Chip := c.raise798 1 b

end Sys2Proof.Machine
end

