-- ==== Sys2Proof/Machine/Access.lean ====
section
/-! DEFINITION. Reaching the memories: the applied structure's declarations, region-table entries, DRAM reads and writes through
them, refusals of R347, and the Basin banks of a partition (11_memory_system.md, R36, R37). -/

namespace Sys2Proof.Machine

/-! ### The applied structure -/

/-- The applied structure; an empty one while none is applied. -/
def Chip.str (c : Chip) : Structure := c.cfg.applied.getD {}

def Structure.part (s : Structure) (p : Nat) : Option PartDecl := s.parts.find? (fun d => d.id == p)
def Structure.berth (s : Structure) (b : Nat) : Option BerthDecl := s.berths.find? (fun d => d.id == b)
def Structure.ctx (s : Structure) (x : Nat) : Option CtxDecl := s.ctxs.find? (fun d => d.id == x)
def Structure.region (s : Structure) (r : Nat) : Option RegionDecl := s.regions.find? (fun d => d.id == r)
def Structure.stream (s : Structure) (i : Nat) : Option StreamDecl := s.streams.find? (fun d => d.idx == i)
def Structure.prog (s : Structure) (p : Nat) : Option ProgramDecl := s.progs.find? (fun d => d.id == p)
def Structure.weight (s : Structure) (w : Nat) : Option WeightDecl := s.weights.find? (fun d => d.id == w)
def Structure.window (s : Structure) (w : Nat) : Option WindowDecl := s.windows.find? (fun d => d.id == w)
def Structure.output (s : Structure) (o : Nat) : Option OutputDecl := s.outputs.find? (fun d => d.output == o)

/-- The program of a context. -/
def Structure.ctxProg (s : Structure) (x : Nat) : Option ProgramDecl := (s.ctx x).bind (fun d => s.prog d.prog)

/-- The streams that are active. -/
def Structure.active (s : Structure) : List StreamDecl := s.streams.filter (·.active)

/-- A context's declaration: the one its steps were issued under while it leaves (R61). -/
def Chip.ctxDecl (c : Chip) (x : Nat) : Option CtxDecl := match (c.ctx x).left with | some l => some l.decl | none => c.str.ctx x

/-- A context's program, likewise. -/
def Chip.ctxProg (c : Chip) (x : Nat) : Option ProgramDecl := match (c.ctx x).left with | some l => l.prog | none => c.str.ctxProg x

/-- A context's partition; 255 for a context without a declaration. -/
def Chip.partOf (c : Chip) (x : Nat) : Nat := match c.ctxDecl x with | some d => d.part | none => 255

/-- A partition's declaration: of the structure, or of one that an amendment removed while steps of it run on (R61). -/
def Chip.partDecl (c : Chip) (p : Nat) : Option PartDecl := if p < 8 then c.str.part p else c.tt.ghosts.find? (fun d => d.id == p)

/-- A partition's class is best-effort. -/
def Chip.partBe (c : Chip) (p : Nat) : Bool := match c.partDecl p with | some d => d.cls == .be | none => false

/-- The arrays that kernels and shares of a partition use now: its effective mask (R287). -/
def Chip.partArrays (c : Chip) (p : Nat) : BitVec 32 :=
  if p < 8 then vget 0 c.tt.mask p else match c.partDecl p with | some d => d.arrays | none => 0

/-- A partition is in service; one that an amendment removed is while steps of it run on. -/
def Chip.partRuns (c : Chip) (p : Nat) : Bool := if p < 8 then vget .absent c.tt.pst p == .run else (c.partDecl p).isSome

/-- The bits set in a mask, ascending. -/
def bitList (n w : Nat) : List Nat := (List.range n).filter (fun i => w.testBit i)

/-- The Basin banks of a partition in ascending order (R327). -/
def Chip.banks (c : Chip) (p : Nat) : List Nat := match c.partDecl p with | some d => bitList 32 d.banks.toNat | none => []

/-! ### Splitting a run of bytes at boundaries -/

/-- The pieces of n bytes from a that cross no multiple of a unit. -/
def piecesOf (unit : Nat) : Nat → Nat → Nat → List (Nat × Nat)
  | 0, _, _ => []
  | fuel + 1, a, n =>
    if n = 0 then [] else
    let k := min n (unit - a % unit)
    (a, k) :: piecesOf unit fuel (a + k) (n - k)

/-- The pieces of n bytes from a that cross no multiple of a unit. -/
def pieces (unit a n : Nat) : List (Nat × Nat) := piecesOf unit (n / unit + 2) a n

/-! ### Region-table entries (R343, R344) -/

/-- The applied entry of an index, none where no declaration covers it. -/
def Chip.entry (c : Chip) (i : Nat) : Option Entry := assoc i c.mc.table

/-- An entry is withdrawn when its primary copy is lost and it has no replica left (R343). -/
def Entry.withdrawn (e : Entry) : Bool := e.plost && (!e.repl || e.rlost)

/-- Byte b of a slot of a channel as an address of all DRAM. -/
def dramAt (ch slot b : Nat) : Nat := ch * 2 ^ 33 + slot * 2 ^ 20 + b

/-- Where a read of an entry's byte goes (R344). -/
def Entry.readAt (e : Entry) (b : Nat) : Nat := if e.plost then dramAt e.rch e.rslot b else dramAt e.pch e.pslot b

/-- The copies a write of an entry's byte reaches (R350). -/
def Entry.writeAt (e : Entry) (b : Nat) : List Nat :=
  (if e.plost then [] else [dramAt e.pch e.pslot b]) ++ (if e.repl && !e.rlost then [dramAt e.rch e.rslot b] else [])

/-- Read n bytes from a device address; bytes of an entry that is not valid read 0 (no access that R347 refuses reaches this). -/
def Chip.dramRead (c : Chip) (a n : Nat) : Bytes :=
  (pieces (2 ^ 20) a n).flatMap (fun p =>
    match c.entry (p.1 / 2 ^ 20) with
    | some e => c.dram.read (e.readAt (p.1 % 2 ^ 20)) p.2
    | none => List.replicate p.2 0)

/-- A request reaches a channel: it leaves power-down or self-refresh at once (R354). -/
def Chip.wakeChan (n : Nat) (c : Chip) : Chip :=
  c.updChan n (fun h => { h with
    power := if h.power == .powerDown || h.power == .selfRefresh then .active else h.power
    idleSince := c.clk.ref })

/-- Requests for n bytes at a device address reach their channels: those of the copy read, and for a write every copy. -/
def Chip.touch (write : Bool) (a n : Nat) (c : Chip) : Chip :=
  (pieces (2 ^ 20) a n).foldl (fun c p =>
    match c.entry (p.1 / 2 ^ 20) with
    | some e => (if write then e.writeAt 0 else [e.readAt 0]).foldl (fun c x => c.wakeChan (x / 2 ^ 33)) c
    | none => c) c

/-- Write bytes at a device address, to every copy that remains. -/
def Chip.dramWrite (a : Nat) (bs : Bytes) (c : Chip) : Chip :=
  (pieces (2 ^ 20) a bs.length).foldl (fun c p =>
    match c.entry (p.1 / 2 ^ 20) with
    | some e => (e.writeAt (p.1 % 2 ^ 20)).foldl (fun c x => c.updDram (fun m => m.write x (slice bs (p.1 - a) p.2))) c
    | none => c) (c.touch true a bs.length)

/-- Zero-fill bytes at a device address. -/
def Chip.dramClear (a n : Nat) (c : Chip) : Chip :=
  (pieces (2 ^ 20) a n).foldl (fun c p =>
    match c.entry (p.1 / 2 ^ 20) with
    | some e => (e.writeAt (p.1 % 2 ^ 20)).foldl (fun c x => c.updDram (fun m => m.clear x p.2)) c
    | none => c) (c.touch true a n)

/-! ### Refusals (R347) -/

/-- Who makes an access: a context (with its grants), the device itself, or the host's bulk access. -/
inductive Who where
  | ctx (x : Nat)
  | device
  | host
  deriving DecidableEq, Repr

/-- Requester codes of R357; other is a requester for which the spec names no code (log 109). -/
inductive Requester where
  | array | quay | motion | disparity | sequencer | serving | scanout | ledger | peer | host | scrub | swapper | zerofill
  | other (k : Nat)
  deriving DecidableEq, Repr

/-- The code of a requester (R357). -/
def Requester.code : Requester → Nat
  | .array => 0 | .quay => 1 | .motion => 2 | .disparity => 3 | .sequencer => 4 | .serving => 5 | .scanout => 6
  | .ledger => 7 | .peer => 8 | .host => 9 | .scrub => 10 | .swapper => 11 | .zerofill => 12
  | .other k => k

/-- The cause of R358 for which an entry refuses an access, if it does. -/
def Chip.refuses (c : Chip) (w : Who) (write : Bool) (i : Nat) : Option Nat :=
  if 131072 ≤ i then some 1 else
  match c.entry i with
  | none => some 1
  | some e =>
    if e.withdrawn then some 2 else
    match w with
    | .device => none
    | .host => if e.device then some 5 else if write && e.rdonly then some 4 else none
    | .ctx x =>
      if e.device then some 5
      else if e.owner = c.partOf x then (if write && e.rdonly then some 4 else none)
      else if c.str.grants.any (fun g => g.grantee == x && g.region == e.decl) then (if write then some 4 else none)
      else some 3

/-- The first refusal of n bytes from a device address: its cause and the first byte it strikes. -/
def Chip.refusal (c : Chip) (w : Who) (write : Bool) (a n : Nat) : Option (Nat × Nat) :=
  (pieces (2 ^ 20) a n).findSome? (fun p => (c.refuses w write (p.1 / 2 ^ 20)).map (fun k => (k, p.1)))

/-- The no-step value of the error registers. -/
def noStep : Word := 0xFFFFFFFF

/-- Record a refused access (R347). -/
def Chip.recordViol (r : Requester) (ctx : Nat) (cause addr : Nat) (step : Word) (c : Chip) : Chip :=
  let info := BitVec.ofNat 32 (r.code * 2 ^ 24 + ctx * 2 ^ 16 + cause)
  (c.updMc (fun m => { m with violAddr := BitVec.ofNat 64 addr, violInfo := info })).mcErr 6 info addr step

/-! ### The Basin (R326, R327) -/

/-- The Basin byte address of a space-2 offset of a run of banks. -/
def basinAt (banks : List Nat) (o : Nat) : Nat := banks.getD (o / 2 ^ 24) 0 * 2 ^ 24 + o % 2 ^ 24

/-- Read n bytes at a space-2 offset. -/
def Chip.basinRead (c : Chip) (banks : List Nat) (o n : Nat) : Bytes :=
  (pieces (2 ^ 24) o n).flatMap (fun p => c.basin.read (basinAt banks p.1) p.2)

/-- A write to words that failed earlier makes them good again (R333); the moment counts for R334. -/
def Chip.rewrote (a n : Nat) (c : Chip) : Chip :=
  let b := a / 2 ^ 24
  if (vget {} c.bs.bank b).failed.isEmpty then c else
  c.updBank b (fun k => { k with failed := k.failed.map (fun f =>
    if a < f.1 + 8 && f.1 < a + n then (f.1, some c.clk.ref) else f) })

/-- Write bytes at a space-2 offset. -/
def Chip.basinWrite (banks : List Nat) (o : Nat) (bs : Bytes) (c : Chip) : Chip :=
  (pieces (2 ^ 24) o bs.length).foldl (fun c p =>
    (c.updBasin (fun m => m.write (basinAt banks p.1) (slice bs (p.1 - o) p.2))).rewrote (basinAt banks p.1) p.2) c

/-- Zero-fill n bytes at a space-2 offset. -/
def Chip.basinClear (banks : List Nat) (o n : Nat) (c : Chip) : Chip :=
  (pieces (2 ^ 24) o n).foldl (fun c p =>
    (c.updBasin (fun m => m.clear (basinAt banks p.1) p.2)).rewrote (basinAt banks p.1) p.2) c

/-- Where something lies in the layout of R328: partition, kind (0 a frame slot under 3 s + k, 1 the LIVE state pair of a stream, 2 its
SETTLED state pair, 3 a berth's Basin share, 4 a berth's array share) and id. -/
def Chip.placed (c : Chip) (part kind id : Nat) : Option Placed :=
  c.tt.layout.find? (fun p => p.part == part && p.kind == kind && p.id == id)

/-- Where a context's share lies: in the Basin, or on each array of its partition. -/
def Chip.sharePlace (c : Chip) (x : Nat) (store : Bool) : Option Placed :=
  match (c.ctx x).left.filter (·.unberthed) with
  | some l => if store then l.store else l.basin
  | none => (c.ctx x).berth.bind (fun b => c.placed (c.partOf x) (if store then 4 else 3) b)

/-- Byte o of an area of a logical array's local SRAM, by the physical array that carries it (R134): the array store from 0, the
line buffer at 3,328 KiB, the expansion buffer at 3,584 KiB. -/
def Chip.sramAt (c : Chip) (array o : Nat) : Nat := (vget {} c.oc.map array).phys * 2 ^ 22 + o

/-- Offset of the line buffer in array-local SRAM. -/
def lineBuf : Nat := 3328 * 1024
/-- Offset of the expansion buffer in array-local SRAM. -/
def expBuf : Nat := 3584 * 1024

end Sys2Proof.Machine
end

