-- ==== Sys2Proof/Machine/Arith.lean ====
section
/-! DEFINITION. The arithmetic of the datapath (06_arithmetic.md): exact values, the one rounding rule, conversions, the
vector-unit functions, the Hadamard rotation, the random generator. FP32 and FP16 values are their bit patterns; every value
an operation writes is a zero or a normal number (R160). -/

namespace Sys2Proof.Machine

/-- An exact dyadic value: sign, magnitude m × 2^e. -/
structure Dyad where
  neg : Bool
  m : Nat
  e : Int
  deriving DecidableEq, Repr

/-- 2 to a power that may be below 0, as numerator and denominator factors. -/
def pow2 (e : Int) : Nat × Nat := if 0 ≤ e then (2 ^ e.toNat, 1) else (1, 2 ^ (-e).toNat)

/-- Round num/den × 2^e, not 0, to p significant bits, ties away from zero: the exponent of the leading bit and the p-bit
significand (R162). -/
def roundSig (p num den : Nat) (e : Int) : Int × Nat :=
  let g : Int := (Nat.log2 num : Int) - (Nat.log2 den : Int)
  let (gn, gd) := pow2 g
  let lead : Int := if num * gd < den * gn then g - 1 else g
  let (sn, sd) := pow2 ((p : Int) - 1 - lead)
  let a := num * sn
  let b := den * sd
  let q := (2 * a + b) / (2 * b)
  if q = 2 ^ p then (lead + 1 + e, 2 ^ (p - 1)) else (lead + e, q)

/-- rna_fp32 of ±num/den × 2^e (R162). -/
def rna32 (neg : Bool) (num den : Nat) (e : Int) : Word :=
  let s := b2n neg * 2 ^ 31
  if num = 0 then BitVec.ofNat 32 s
  else
    let (x, q) := roundSig 24 num den e
    if 127 < x then BitVec.ofNat 32 (s + 0x7F7FFFFF)
    else if x < -126 then BitVec.ofNat 32 s
    else BitVec.ofNat 32 (s + (x + 127).toNat * 2 ^ 23 + (q - 2 ^ 23))

/-- rna_fp16 of ±num/den × 2^e (R164). -/
def rna16 (neg : Bool) (num den : Nat) (e : Int) : BitVec 16 :=
  let s := b2n neg * 2 ^ 15
  if num = 0 then BitVec.ofNat 16 s
  else
    let (x, q) := roundSig 11 num den e
    if 15 < x then BitVec.ofNat 16 (s + 0x7BFF)
    else if x < -14 then BitVec.ofNat 16 s
    else BitVec.ofNat 16 (s + (x + 15).toNat * 2 ^ 10 + (q - 2 ^ 10))

/-- An FP32 operand as R161 takes it: the exact value of a normal number; a subnormal is a zero of its sign, a NaN +0, an
infinity the largest finite value. -/
def dyad32 (w : Word) : Dyad :=
  let n := w.toNat
  let neg := n.testBit 31
  let x : Nat := n / 2 ^ 23 % 256
  let f := n % 2 ^ 23
  if x = 0 then ⟨neg, 0, 0⟩
  else if x = 255 then (if f = 0 then ⟨neg, 2 ^ 24 - 1, 104⟩ else ⟨false, 0, 0⟩)
  else ⟨neg, 2 ^ 23 + f, (x : Int) - 150⟩

/-- An FP16 operand as R161 takes it. -/
def dyad16 (w : BitVec 16) : Dyad :=
  let n := w.toNat
  let neg := n.testBit 15
  let x : Nat := n / 2 ^ 10 % 32
  let f := n % 2 ^ 10
  if x = 0 then ⟨neg, 0, 0⟩
  else if x = 31 then (if f = 0 then ⟨neg, 2 ^ 11 - 1, 5⟩ else ⟨false, 0, 0⟩)
  else ⟨neg, 2 ^ 10 + f, (x : Int) - 25⟩

/-- The FP32 pattern of an exact dyadic value, rounded by R162. -/
def Dyad.to32 (d : Dyad) : Word := rna32 d.neg d.m 1 d.e

/-- An FP32 value as taken by R161. -/
def take32 (w : Word) : Word := (dyad32 w).to32

/-- An FP16 value as taken by R161, in FP32 (exact). -/
def take16 (w : BitVec 16) : Word := (dyad16 w).to32

/-- The signed significand of a dyadic value aligned to an exponent at or below its own. -/
def Dyad.align (d : Dyad) (e : Int) : Int :=
  let v : Int := (d.m * 2 ^ (d.e - e).toNat : Nat)
  if d.neg then -v else v

/-- The exact product of two dyadic values. -/
def Dyad.mul (a b : Dyad) : Dyad := ⟨a.neg != b.neg, a.m * b.m, a.e + b.e⟩

/-- The exact product with a power of two. -/
def Dyad.scale (a : Dyad) (k : Int) : Dyad := { a with e := a.e + k }

/-- The exact sum of two dyadic values; a sum of 0 is +0 but for two operands of −0 (R162). -/
def Dyad.add (a b : Dyad) : Dyad :=
  if a.m = 0 ∧ b.m = 0 then ⟨a.neg && b.neg, 0, 0⟩
  else
    let e := if a.m = 0 then b.e else if b.m = 0 then a.e else min a.e b.e
    let s := (if a.m = 0 then 0 else a.align e) + (if b.m = 0 then 0 else b.align e)
    ⟨decide (s < 0), s.natAbs, e⟩

def Dyad.negate (a : Dyad) : Dyad := { a with neg := !a.neg }

/-- A difference; a zero difference is +0, also of zeros, since only a sum of two −0 operands is −0 (R162). -/
def Dyad.sub (a b : Dyad) : Dyad := if a.m = 0 ∧ b.m = 0 then ⟨false, 0, 0⟩ else a.add b.negate

/-- An integer as a dyadic value with k fraction bits. -/
def dyadInt (v : Int) (k : Nat) : Dyad := ⟨decide (v < 0), v.natAbs, -(k : Int)⟩

/-- a < b of exact values. -/
def Dyad.lt (a b : Dyad) : Bool :=
  let d := a.add b.negate
  d.neg && d.m != 0

/-- rna_int: the nearest integer, ties away from zero (R164). -/
def Dyad.rnaInt (d : Dyad) : Int :=
  let v : Int := if 0 ≤ d.e then (d.m * 2 ^ d.e.toNat : Nat)
    else
      let q := 2 ^ (-d.e).toNat
      ((2 * d.m + q) / (2 * q) : Nat)
  if d.neg then -v else v

/-! ### FP32 operations (R163) -/

def fNeg (a : Word) : Word := a ^^^ 0x80000000
def fAbs (a : Word) : Word := a &&& 0x7FFFFFFF
def fAdd (a b : Word) : Word := ((dyad32 a).add (dyad32 b)).to32
def fSub (a b : Word) : Word := ((dyad32 a).sub (dyad32 b)).to32
def fMul (a b : Word) : Word := ((dyad32 a).mul (dyad32 b)).to32
def fLt (a b : Word) : Bool := (dyad32 a).lt (dyad32 b)

/-- Of two equal operands (zeros of different sign) the maximum is the first. -/
def fMax (a b : Word) : Word := if fLt a b then b else a
def fMin (a b : Word) : Word := if fLt b a then b else a

/-- Multiplication by a power of two. -/
def fScale (a : Word) (k : Int) : Word := ((dyad32 a).scale k).to32

/-- Division: by a zero, +0 for a zero dividend and the signed limit otherwise. -/
def fDiv (a b : Word) : Word :=
  let x := dyad32 a
  let y := dyad32 b
  let neg := x.neg != y.neg
  if y.m = 0 then (if x.m = 0 then 0 else BitVec.ofNat 32 (b2n neg * 2 ^ 31 + 0x7F7FFFFF))
  else rna32 neg x.m y.m (x.e - y.e)

/-- Integer square root by bits: the largest r below 2^k with r² ≤ n. -/
def isqrt : Nat → Nat → Nat
  | 0, _ => 0
  | k + 1, n =>
    let r := isqrt k (n / 4)
    if (2 * r + 1) * (2 * r + 1) ≤ n then 2 * r + 1 else 2 * r

/-- Square root: of −0 it is −0, of any other value below zero +0. -/
def fSqrt (a : Word) : Word :=
  let x := dyad32 a
  if x.m = 0 then a
  else if x.neg then 0
  else
    let odd := x.e % 2 ≠ 0
    let m := if odd then 2 * x.m else x.m
    let e := if odd then x.e - 1 else x.e
    let n := m * 2 ^ 32
    let r := isqrt 64 n
    rna32 false (if r * r = n then 2 * r else 2 * r + 1) 1 (e / 2 - 17)

def f32One : Word := 0x3F800000

/-! ### Conversions (R164) -/

/-- An A16 operand word: 0x8000 reads as −32,767 (R159). -/
def a16 (w : Nat) : Int := if w % 65536 = 0x8000 then -32767 else signed 16 w

/-- A16 to FP32, exact. -/
def a16To32 (q : Int) (f : Nat) : Word := (dyadInt q f).to32

/-- sat_a16: FP32 to A16 with f fraction bits. -/
def satA16 (x : Word) (f : Nat) : Int := clampInt (-32767) 32767 ((dyad32 x).scale f).rnaInt

/-- sat_pix: FP32 in code units to a pixel code. -/
def satPix (x : Word) (bits : Nat) : Nat := (clampInt 0 (2 ^ bits - 1) (dyad32 x).rnaInt).toNat

/-- rna_fp16 of an FP32 value. -/
def to16 (x : Word) : BitVec 16 := let d := dyad32 x; rna16 d.neg d.m 1 d.e

/-- A value in the output format of a descriptor: A16, FP32 or FP16 (R148, R177), as little-endian bytes. -/
def outBytes (fmt fout : Nat) (y : Word) : Bytes :=
  match fmt with
  | 1 => toLe 4 y.toNat
  | 2 => toLe 2 (to16 y).toNat
  | _ => toLe 2 (unsigned 16 (satA16 y fout))

/-- Bytes of one element of an output format. -/
def outSize (fmt : Nat) : Nat := if fmt = 1 then 4 else 2

/-! ### Vector-unit functions (R180, R181) -/

/-- ex(x). -/
def fEx (x : Word) : Word :=
  let x := fMin (fMax x 0xC2AE0000) 0x42B00000
  let t := fMul x 0x3FB8AA3B
  let n := (dyad32 t).rnaInt
  let f := ((dyad32 t).add (dyadInt (-n) 0)).to32
  let p := fAdd (fMul 0x39218499 f) 0x3AAEC3FF
  let p := fAdd (fMul p f) 0x3C1D955B
  let p := fAdd (fMul p f) 0x3D635847
  let p := fAdd (fMul p f) 0x3E75FDF0
  let p := fAdd (fMul p f) 0x3F317218
  let p := fAdd (fMul p f) f32One
  fScale p n

/-- The sigmoid. -/
def fSigmoid (x : Word) : Word := fDiv f32One (fAdd f32One (fEx (fNeg x)))

/-- tanh: one rounding of 2·σ(2x) − 1. -/
def fTanh (x : Word) : Word := ((dyad32 (fSigmoid (fScale x 1))).scale 1 |>.add (dyadInt (-1) 0)).to32

/-- The activation functions; a reserved value reads as identity (R148). -/
def activate (act : Nat) (x : Word) : Word :=
  match act with
  | 1 => if fLt 0 x then x else 0
  | 2 => if fLt x 0 then fScale x (-3) else x
  | 3 => fSigmoid x
  | 4 => fTanh x
  | 5 => fMul x (fSigmoid x)
  | 6 =>
    let u := fMul (fMul x x) x
    let v := fAdd x (fMul 0x3D372713 u)
    let th := fTanh (fMul 0x3F4C422A v)
    (((dyad32 x).scale (-1)).mul (dyad32 (fAdd f32One th))).to32
  | _ => x

/-! ### The Hadamard rotation (R179) -/

/-- One stage of butterflies at distance h. -/
def hadamardStage (h : Nat) (x : List Word) : List Word :=
  (List.range x.length).map (fun j =>
    if j % (2 * h) < h then fAdd (x.getD j 0) (x.getD (j + h) 0) else fSub (x.getD (j - h) 0) (x.getD j 0))

/-- One whole block of 16 or 64 channels. -/
def hadamard (n : Nat) (x : List Word) : List Word :=
  let stages := if n = 16 then [1, 2, 4, 8] else [1, 2, 4, 8, 16, 32]
  (stages.foldl (fun x h => hadamardStage h x) x).map (fun v => fScale v (if n = 16 then -2 else -3))

/-- Rotation over the channels of one position: whole blocks of n; a final partial block stays. -/
def rotateBlocks (n : Nat) : Nat → List Word → List Word
  | 0, x => x
  | k + 1, x => hadamard n (x.take n) ++ rotateBlocks n k (x.drop n)

/-- The rotation a field selects: 1 is 16, 2 is 64, any other value none (R148). -/
def rotate (sel : Nat) (x : List Word) : List Word :=
  match sel with
  | 1 => rotateBlocks 16 (x.length / 16) x
  | 2 => rotateBlocks 64 (x.length / 64) x
  | _ => x

/-! ### The random generator (R187 to R189) -/

/-- A seed as loaded: zero is replaced (R188). -/
def seedState (s : Dword) : Dword := if s = 0 then 0x9E3779B97F4A7C15 else s

/-- xs64 (R187): the number returned and the next state. -/
def xs64 (s : Dword) : Dword × Dword :=
  let x := s ^^^ (s >>> 12)
  let x := x ^^^ (x <<< 25)
  let x := x ^^^ (x >>> 27)
  (x * 0x2545F4914F6CDD1D, x)

/-- The uniform sample of a number: its top 24 bits times 2^-24 (R189). -/
def uniform (x : Dword) : Word := (dyadInt ((x >>> 40).toNat : Int) 24).to32

end Sys2Proof.Machine
end

