-- ==== Sys2Proof/Machine/Operands.lean ====
section
/-! DEFINITION. Descriptors and their operands: fields, clamping (R144 to R148), operand spaces (R136), extents and their checks
(R137, R138, R330), reading and writing through an operand. -/

namespace Sys2Proof.Machine

/-! ### Fields (R144, R147) -/

/-- Put an n-byte field into a run of bytes. -/
def setField (bs : Bytes) (i n v : Nat) : Bytes := bs.take i ++ toLe n v ++ bs.drop (i + n)

def dOpcode (d : Bytes) : Nat := fieldAt d 0 1
def dStepEnd (d : Bytes) : Bool := (fieldAt d 1 1).testBit 0
def dCtx (d : Bytes) : Nat := fieldAt d 2 1
def dTag (d : Bytes) : Nat := fieldAt d 3 1
def dA (d : Bytes) : Nat := fieldAt d 8 8
def dB (d : Bytes) : Nat := fieldAt d 16 8
def dOut (d : Bytes) : Nat := fieldAt d 24 8

/-- How one field is clamped: into a range, or to the nearest legal value of a list. -/
inductive Clamp where
  | range (off size lo hi : Nat)
  | nearest (off size : Nat) (legal : List Nat)
  deriving DecidableEq, Repr

/-- Clamp one field of a descriptor (R146). -/
def Clamp.apply (d : Bytes) : Clamp → Bytes
  | .range o n lo hi => setField d o n (clampNat lo hi (fieldAt d o n))
  | .nearest o n legal => setField d o n (nearestSize legal (fieldAt d o n))

/-- Single-byte F fields run from 0 to 15. -/
def fClamp (offs : List Nat) : List Clamp := offs.map (fun o => .range o 1 0 15)

/-- The clamps of the window operations: strides and dilations 1 to 64. -/
def winClamps : List Clamp := [0x2A, 0x2B, 0x2C, 0x2D].map (fun o => .range o 1 1 64)

/-- The ranges of R147 by opcode; a field whose whole width is legal has no clamp. -/
def clampsOf (opcode : Nat) : List Clamp :=
  match opcode with
  | 1 => [.range 0x20 4 0 (2 ^ 24), .range 0x24 4 0 (2 ^ 20), .range 0x28 4 0 65536, .nearest 0x2D 1 [32, 64, 128]]
      ++ fClamp [0x2E, 0x2F]
  | 2 => winClamps ++ [.nearest 0x35 1 [32, 64, 128]] ++ fClamp [0x36, 0x37]
  | 3 => winClamps ++ [.nearest 0x35 1 [32, 64, 128]] ++ fClamp [0x36, 0x37]
  | 4 => winClamps ++ [.nearest 0x35 1 [32, 64, 128]] ++ fClamp [0x36, 0x37]
  | 5 => fClamp [0x2B, 0x2C, 0x2D]
  | 6 => [.range 0x20 4 0 (2 ^ 24), .range 0x24 4 0 65536] ++ fClamp [0x29, 0x2A, 0x2B]
  | 7 => [.range 0x20 4 0 (2 ^ 24), .range 0x24 4 0 65536] ++ fClamp [0x29, 0x2A, 0x2B]
  | 8 => [.range 0x28 2 0 4096, .range 0x2A 2 0 32768, .range 0x2C 2 0 128, .range 0x2E 2 0 32767]
      ++ fClamp [0x30, 0x31, 0x32, 0x33]
  | 9 => winClamps ++ [.nearest 0x35 1 [32, 64, 128]] ++ fClamp [0x36, 0x37]
  | 10 => [.range 0x20 4 0 (2 ^ 24), .range 0x24 4 0 (2 ^ 24), .range 0x31 1 1 8]
  | 11 => [.range 0x20 4 0 65535, .range 0x24 4 0 (2 ^ 31 - 1)]
  | 12 => [.range 0x20 4 0 65535]
  | _ => []

/-- A descriptor as the array takes it, with clamped fields (R146). -/
def clampDesc (d : Bytes) : Bytes := (clampsOf (dOpcode d)).foldl (fun d k => k.apply d) d

/-- The descriptor has a fourth operand, V: an ATTEND that is not paged (R147). -/
def readsV (d : Bytes) : Bool := dOpcode d == 8 && !(fieldAt d 0x37 1).testBit 0

/-! ### The context's place on an array -/

/-- Where a descriptor of a context runs: its array, context, partition and step, the partition's banks, the context's share of the
array store and of the Basin (first byte and size), and which of A, B and OUT a sequencer binding resolved. -/
structure Env where
  array : Nat
  ctx : Nat
  part : Nat
  step : Word
  banks : List Nat
  astore : Option (Nat × Nat)
  bshare : Option (Nat × Nat)
  bound : List (Option (Nat × Option Nat))
  deriving DecidableEq, Repr

/-- The environment of a descriptor taken on an array. -/
def Chip.env (c : Chip) (array : Nat) (d : QDesc) : Env :=
  let p := c.partOf d.ctx
  let at_ (store : Bool) := (c.sharePlace d.ctx store).map (fun x => (x.off, x.size))
  { array := array, ctx := d.ctx, part := p, step := d.step, banks := c.banks p, astore := at_ true, bshare := at_ false,
    bound := d.bound }

/-- The space of an operand address (R136). -/
def opSpace (op : Nat) : Nat := op / 2 ^ 61 % 8
/-- Its offset. -/
def opOff (op : Nat) : Nat := op % 2 ^ 40

/-- An operand address of a space. -/
def opAt (space o : Nat) : Nat := space * 2 ^ 61 + o

/-- The working area takes the top 176 KiB of the array share (R135). -/
def workArea : Nat := 176 * 1024

/-! ### Extents and their checks (R137, R138) -/

/-- An extent of an operand: the address, the bytes from it, whether they are written, whether a binding resolved it. -/
structure Ext where
  op : Nat
  len : Nat
  write : Bool
  bound : Option (Nat × Option Nat)
  deriving DecidableEq, Repr

/-- Why an operand faults: the code of R150, the address of R549, the refusal of R347 where there is one, and whether it breaks its
binding (R224). -/
structure Bad where
  code : Nat
  addr : Nat
  viol : Option (Nat × Nat) := none
  bind : Bool := false
  deriving DecidableEq, Repr

/-- Two spans share a byte. -/
def overlaps (a n b m : Nat) : Bool := decide (a < b + m) && decide (b < a + n) && decide (0 < n) && decide (0 < m)

/-- The extent lies in its space, with the working area and the placed areas of R330 outside it. -/
def Chip.inSpace (c : Chip) (e : Env) (x : Ext) : Bool :=
  let o := opOff x.op
  let fits (size : Nat) := decide (o + x.len ≤ size)
  match opSpace x.op with
  | 0 => match e.astore with | some (_, size) => fits (size - workArea) | none => false
  | 1 => match e.bshare with | some (_, size) => fits size | none => false
  | 2 => fits (e.banks.length * 2 ^ 24) &&
      (x.bound.isSome || !c.tt.layout.any (fun p => p.part == e.part && p.kind != 4 && overlaps o x.len p.off p.size))
  | 3 => true
  | 4 => fits (256 * 1024)
  | 5 => fits (512 * 1024)
  | 6 => !x.write
  | _ => false

/-- Check one extent against its space and the region table (R138). Only a COPY reads space 6, and only a COPY has operands off
64-byte multiples. -/
def Chip.checkSpace (c : Chip) (e : Env) (copy : Bool) (x : Ext) : Option Bad :=
  if !copy && opOff x.op % 64 != 0 then some { code := 2, addr := x.op }
  else if !c.inSpace e x || (opSpace x.op == 6 && !copy) then some { code := 3, addr := x.op }
  else if opSpace x.op = 3 then
    match c.refusal (.ctx e.ctx) x.write (opOff x.op) x.len with
    | some v => some { code := 3, addr := x.op, viol := some v }
    | none => none
  else none

/-- Check one extent: a bound operand lies within its object (R224). -/
def Chip.checkExt (c : Chip) (e : Env) (copy : Bool) (x : Ext) : Option Bad :=
  match x.bound with
  | some (o, none) => some { code := 3, addr := o, bind := true }
  | some (o, some rem) => if rem < x.len then some { code := 3, addr := o, bind := true } else c.checkSpace e copy x
  | none => c.checkSpace e copy x

/-- A row stride that is odd breaks R137 at its operand. -/
def checkStride (op stride : Nat) : Option Bad := if stride % 2 = 0 then none else some { code := 2, addr := op }

/-! ### Reading and writing through an operand -/

/-- The space-0 spans that a context's current kernel has written on an array (R301). -/
def Chip.wrote (c : Chip) (a x : Nat) : List (Nat × Nat) := (assoc x (c.arr a).wrote).getD []

/-- The bytes at an offset of space 0: those that the kernel did not write are open (R301; log 7). -/
def Chip.storeRead (c : Chip) (a x base o n : Nat) : Bytes :=
  let bs := c.sram.read (c.sramAt a (base + o)) n
  let spans := c.wrote a x
  if spans.any (fun s => decide (s.1 ≤ o) && decide (o + n ≤ s.1 + s.2)) then bs
  else ((List.range n).zip bs).map (fun p =>
    if spans.any (fun s => decide (s.1 ≤ o + p.1) && decide (o + p.1 < s.1 + s.2)) then p.2
    else Config.openStore c.draws (c.sramAt a (base + o + p.1)))

/-- Note a span of space 0 as written by a context's kernel. -/
def Chip.noteStore (a x o n : Nat) (c : Chip) : Chip :=
  let spans := c.wrote a x
  if n = 0 || spans.any (fun s => decide (s.1 ≤ o) && decide (o + n ≤ s.1 + s.2)) then c
  else c.updArr a (fun r => { r with wrote := assocSet x ((o, n) :: spans) r.wrote })

/-- The bytes at an offset of the line buffer: those that its context has not written since the last context switch are open (R134;
log 7). -/
def Chip.lineRead (c : Chip) (a x o n : Nat) : Bytes :=
  let r := c.arr a
  ((List.range n).zip (c.sram.read (c.sramAt a (lineBuf + o)) n)).map (fun p =>
    if r.lineOf == x && r.line.any (fun s => decide (s.1 ≤ o + p.1) && decide (o + p.1 < s.1 + s.2)) then p.2
    else Config.openStore c.draws (c.sramAt a (lineBuf + o + p.1)))

/-- Note a span of the line buffer as written by a context. -/
def Arr.noteLine (x o n : Nat) (r : Arr) : Arr :=
  if n = 0 then r else { r with lineOf := x, line := (o, n) :: (if r.lineOf = x then r.line else []) }

/-- A descriptor takes the array: what another context left in the line buffer is lost (R134). -/
def Arr.switchTo (x : Nat) (r : Arr) : Arr := if r.lineOf = x then r else { r with lineOf := x, line := [] }

/-- Read n bytes at offset k of an operand. -/
def Chip.opRead (c : Chip) (e : Env) (op k n : Nat) : Bytes :=
  let o := opOff op + k
  match opSpace op with
  | 0 => match e.astore with | some (b, _) => c.storeRead e.array e.ctx b o n | none => List.replicate n 0
  | 1 => match e.bshare with | some (b, _) => c.basinRead e.banks (b + o) n | none => List.replicate n 0
  | 2 => c.basinRead e.banks o n
  | 3 => c.dramRead o n
  | 4 => c.lineRead e.array e.ctx o n
  | 5 => c.sram.read (c.sramAt e.array (expBuf + o)) n
  | _ => List.replicate n 0

/-- Write bytes at offset k of an operand. -/
def Chip.opWrite (e : Env) (op k : Nat) (bs : Bytes) (c : Chip) : Chip :=
  let o := opOff op + k
  match opSpace op with
  | 0 => match e.astore with
    | some (b, _) => (c.updSram (fun m => m.write (c.sramAt e.array (b + o)) bs)).noteStore e.array e.ctx o bs.length
    | none => c
  | 1 => match e.bshare with | some (b, _) => c.basinWrite e.banks (b + o) bs | none => c
  | 2 => c.basinWrite e.banks o bs
  | 3 => c.dramWrite o bs
  | 4 => (c.updSram (fun m => m.write (c.sramAt e.array (lineBuf + o)) bs)).updArr e.array (Arr.noteLine e.ctx o bs.length)
  | 5 => c.updSram (fun m => m.write (c.sramAt e.array (expBuf + o)) bs)
  | _ => c

/-! ### Tensor elements (R137) -/

/-- A run of A16 words (R159). -/
def a16s : Bytes → List Int
  | b0 :: b1 :: rest => a16 (b0.toNat + 256 * b1.toNat) :: a16s rest
  | _ => []

/-- A run of FP32 words as R161 takes them. -/
def f32s : Bytes → List Word
  | b0 :: b1 :: b2 :: b3 :: rest => take32 (BitVec.ofNat 32 (leNat [b0, b1, b2, b3])) :: f32s rest
  | _ => []

/-- A run of FP16 words as exact values (R161). -/
def f16s : Bytes → List Dyad
  | b0 :: b1 :: rest => dyad16 (BitVec.ofNat 16 (b0.toNat + 256 * b1.toNat)) :: f16s rest
  | _ => []

/-- A list cut into runs of n elements. -/
def chunksOf {α : Type} (n : Nat) : Nat → List α → List (List α)
  | 0, _ => []
  | k + 1, xs => if xs.isEmpty then [] else xs.take n :: chunksOf n k (xs.drop n)

/-- A list cut into runs of n elements. -/
def cut {α : Type} (n : Nat) (xs : List α) : List (List α) := chunksOf n (xs.length / n + 1) xs

end Sys2Proof.Machine
end

