-- ==== Sys2Proof/Machine/Matmul.lean ====
section
/-! DEFINITION. The weight stream and the reduction (R165 to R177, R184), and the windows of CONV, DECONV, POOL and EXPAND
(R192 to R209): which samples an operation reads, in what order, and what it writes. -/

namespace Sys2Proof.Machine

/-! ### The weight stream (R167, R168) -/

/-- A weight stream's geometry: output channels, reduction length, group size, W4, bias present. -/
structure WStream where
  n : Nat
  k : Nat
  g : Nat
  w4 : Bool
  bias : Bool
  deriving DecidableEq, Repr

def WStream.nb (w : WStream) : Nat := ceilDiv w.n 64
def WStream.kb (w : WStream) : Nat := ceilDiv w.k 64
def WStream.gc (w : WStream) : Nat := ceilDiv w.k w.g
def WStream.spans (w : WStream) : Nat := ceilDiv w.gc 64
/-- Bytes of a weight block. -/
def WStream.wsz (w : WStream) : Nat := if w.w4 then 2048 else 4096
/-- Bytes of the W4 codebook block of an output block. -/
def WStream.cbsz (w : WStream) : Nat := if w.w4 then 1024 else 0
def WStream.biassz (w : WStream) : Nat := if w.bias then 256 else 0
/-- Blocks of one output block. -/
def WStream.perBlocks (w : WStream) : Nat := b2n w.w4 + b2n w.bias + w.spans + w.kb
/-- Blocks of the stream. -/
def WStream.blocks (w : WStream) : Nat := b2n (!w.w4) + w.nb * w.perBlocks
/-- Bytes of the tag plane. -/
def WStream.tagLen (w : WStream) : Nat := ceilDiv w.blocks 64 * 64
/-- Bytes of one output block. -/
def WStream.perBytes (w : WStream) : Nat := w.cbsz + w.biassz + 128 * w.gc + w.kb * w.wsz
/-- Bytes of the stream. -/
def WStream.len (w : WStream) : Nat := w.tagLen + (if w.w4 then 0 else 256) + w.nb * w.perBytes
/-- Where output block j begins. -/
def WStream.base (w : WStream) (j : Nat) : Nat := w.tagLen + (if w.w4 then 0 else 256) + j * w.perBytes
def WStream.biasOff (w : WStream) (j : Nat) : Nat := w.base j + w.cbsz
/-- Group slots of span u. -/
def WStream.gu (w : WStream) (u : Nat) : Nat := min 64 (w.gc - 64 * u)
/-- Where scale span u of output block j begins. -/
def WStream.spanOff (w : WStream) (j u : Nat) : Nat := w.biasOff j + w.biassz + u * (8192 + w.g * w.wsz)
/-- Where the 64 scales of a group lie. -/
def WStream.scaleOff (w : WStream) (j g : Nat) : Nat := w.spanOff j (g / 64) + 128 * (g % 64)
/-- Where weight block b of output block j lies. -/
def WStream.weightOff (w : WStream) (j b : Nat) : Nat :=
  let u := b / w.g
  w.spanOff j u + 128 * w.gu u + (b - u * w.g) * w.wsz
/-- The number of output block j's first block. -/
def WStream.firstBlock (w : WStream) (j : Nat) : Nat := b2n (!w.w4) + j * w.perBlocks
/-- The number of scale span u's block. -/
def WStream.spanBlock (w : WStream) (j u : Nat) : Nat := w.firstBlock j + b2n w.w4 + b2n w.bias + u * (1 + w.g)
/-- The number of weight block b. -/
def WStream.weightBlock (w : WStream) (j b : Nat) : Nat := w.spanBlock j (b / w.g) + 1 + b % w.g

/-- A block of a weight stream as a reduction fetches it: its number, its byte offset and size, and the first reduction index that uses
it. -/
structure WUse where
  num : Nat
  off : Nat
  size : Nat
  first : Nat
  deriving DecidableEq, Repr

/-- The blocks that output block j fetches for the reduction indices l0 to l1 - 1, in stream order. -/
def WStream.uses (w : WStream) (j l0 l1 : Nat) : List WUse :=
  (if !w.w4 && j == 0 then [⟨0, w.tagLen, 256, l0⟩] else [])
    ++ (if w.w4 then [⟨w.firstBlock j, w.base j, 1024, l0⟩] else [])
    ++ (if w.bias && l0 == 0 then [⟨w.firstBlock j + b2n w.w4, w.biasOff j, 256, l0⟩] else [])
    ++ (List.range w.spans).flatMap (fun u =>
      let s0 := max l0 (u * 64 * w.g)
      let s1 := min l1 ((u + 1) * 64 * w.g)
      if s0 < s1 then
        ⟨w.spanBlock j u, w.spanOff j u, 128 * w.gu u, s0⟩
          :: (List.range (ceilDiv s1 64 - s0 / 64)).map (fun i =>
            let b := s0 / 64 + i
            ⟨w.weightBlock j b, w.weightOff j b, w.wsz, max s0 (64 * b)⟩)
      else [])

/-- A codebook byte; 0x80 reads as −127 (R166). -/
def cbEntry (b : Byte) : Int := if b = 0x80 then -127 else signed 8 b.toNat

/-- The decoded weights of one weight block: 64 lanes of 64 channels (R165, R168). -/
def decodeBlock (w4 : Bool) (cb8 : List Int) (cb4 : List (List Int)) (block : Bytes) : List (List Int) :=
  if w4 then
    (cut 32 block).map (fun lane =>
      List.zipWith (fun i (book : List Int) => book.getD i 0)
        (lane.flatMap (fun b => [b.toNat % 16, b.toNat / 16])) cb4)
  else (cut 64 block).map (fun lane => lane.map (fun b => cb8.getD b.toNat 0))

/-! ### Group sums and the chain (R169 to R176) -/

/-- The activation of one reduction lane: the same for all channels, or one for each (depthwise). -/
inductive Lane where
  | all (x : Int)
  | each (xs : List Int)
  deriving DecidableEq, Repr

/-- Add one lane's products to the sums of the channels. -/
def Lane.add (l : Lane) (w acc : List Int) : List Int :=
  match l with
  | .all x => if x = 0 then acc else List.zipWith (fun a y => a + x * y) acc w
  | .each xs => List.zipWith (· + ·) acc (List.zipWith (· * ·) xs w)

/-- The exact group sums of the channels over lanes (R170). -/
def groupSums : List Lane → List (List Int) → List Int → List Int
  | l :: ls, w :: ws, acc => groupSums ls ws (l.add w acc)
  | _, _, acc => acc

/-- The scale product of a group sum (R173). -/
def scaleProduct (fin : Nat) (s : Int) (sc : Dyad) : Word := ((dyadInt s fin).mul sc).to32

/-- The weights of one output block: for each group its lanes of decoded weights and its 64 scales; the bias of the channels. -/
structure WBlock where
  groups : List (List (List Int) × List Dyad)
  bias : List Word
  deriving DecidableEq, Repr

/-- Read output block j of a weight stream. -/
def WStream.load (w : WStream) (rd : Nat → Nat → Bytes) (j : Nat) : WBlock :=
  let cb8 := if w.w4 then [] else (rd w.tagLen 256).map cbEntry
  let cb4 := if w.w4 then (cut 16 (rd (w.base j) 1024)).map (·.map cbEntry) else []
  let lanes := (List.range w.kb).flatMap (fun b => decodeBlock w.w4 cb8 cb4 (rd (w.weightOff j b) w.wsz))
  let groups := (List.range w.gc).map (fun g =>
    ((lanes.drop (g * w.g)).take (min w.g (w.k - g * w.g)), f16s (rd (w.scaleOff j g) 128)))
  { groups := groups, bias := if w.bias then f32s (rd (w.biasOff j) 256) else List.replicate 64 0 }

/-- The FP32 partial of tile t for one position after its first n groups: bias in tile 0, then the scale products in ascending group order
(R174). -/
def tilePrefix (w : WStream) (b : WBlock) (fin : Nat) (lanes : List Lane) (t n : Nat) : List Word :=
  let g0 := t * 8192 / w.g
  let gs := (b.groups.drop g0).take n
  let start := if t = 0 then b.bias else List.replicate 64 0
  ((List.range gs.length).zip gs).foldl (fun p ig =>
    let ls := (lanes.drop ((g0 + ig.1) * w.g)).take w.g
    let s := groupSums ls ig.2.1 (List.replicate 64 0)
    List.zipWith fAdd p (List.zipWith (scaleProduct fin) s ig.2.2)) start

/-- The FP32 partial of tile t for one position (R174). -/
def tilePartial (w : WStream) (b : WBlock) (fin : Nat) (lanes : List Lane) (t : Nat) : List Word :=
  tilePrefix w b fin lanes t (8192 / w.g)

/-- Tiles of a reduction; a reduction of length 0 has one empty tile. -/
def tileCount (k : Nat) : Nat := max 1 (ceilDiv k 8192)

/-- The left-deep chain over the tiles (R175). -/
def tileChain (w : WStream) (b : WBlock) (fin : Nat) (lanes : List Lane) : List Word :=
  (List.range (tileCount w.k - 1)).foldl (fun p t => List.zipWith fAdd p (tilePartial w b fin lanes (t + 1)))
    (tilePartial w b fin lanes 0)

/-- The tile a descriptor computes: none for every tile (R176). -/
def tileOf (field k : Nat) : Option Nat := if field = 0xFFFF then none else some (min field (tileCount k - 1))

/-- How results leave the output stage (R177). -/
structure Epilogue where
  act : Nat
  rot : Nat
  fmt : Nat
  fout : Nat
  deriving DecidableEq, Repr

/-- The bytes of the channels of one position. -/
def Epilogue.bytes (e : Epilogue) (ys : List Word) : Bytes :=
  (rotate e.rot (ys.map (activate e.act))).flatMap (outBytes e.fmt e.fout)

/-- A reduction over a weight stream: the stream, F_in, the tile, the epilogue, depthwise, positions, and the byte stride of a
position of OUT (none: packed). -/
structure Reduction where
  w : WStream
  fin : Nat
  tile : Option Nat
  epi : Epilogue
  depthwise : Bool
  positions : Nat
  stride : Option Nat
  deriving DecidableEq, Repr

/-- The reduction indices it covers. -/
def Reduction.span (r : Reduction) : Nat × Nat :=
  match r.tile with
  | none => (0, r.w.k)
  | some t => (8192 * t, min (8192 * (t + 1)) r.w.k)

/-- Passes of one output block and position chunk: a pass holds 64 lanes, or one live tap of 64 channels when depthwise (R207). -/
def Reduction.inner (r : Reduction) : Nat :=
  let (l0, l1) := r.span
  if r.depthwise then l1 - l0 else ceilDiv (l1 - l0) 64

def Reduction.chunks (r : Reduction) : Nat := ceilDiv r.positions 512

/-- Passes of the descriptor. -/
def Reduction.passes (r : Reduction) : Nat := r.w.nb * r.chunks * r.inner

/-- Bytes of an output element. -/
def Reduction.size (r : Reduction) : Nat := if r.tile.isSome then 4 else outSize r.epi.fmt

/-- Byte stride of a position of OUT. -/
def Reduction.rowStride (r : Reduction) : Nat := r.stride.getD (r.w.n * r.size)

/-- Bytes from the first to the last byte written. -/
def Reduction.outLen (r : Reduction) : Nat :=
  if r.positions = 0 then 0 else (r.positions - 1) * r.rowStride + r.w.n * r.size

/-- What the reduction writes (R131, R174 to R177). -/
def Reduction.pieces (r : Reduction) (rd : Nat → Nat → Bytes) (row : Nat → Nat → List Lane) : List Piece :=
  (List.range r.w.nb).flatMap (fun j =>
    let b := r.w.load rd j
    let live := min 64 (r.w.n - 64 * j)
    (List.range r.positions).map (fun m =>
      let lanes := row j m
      let bytes := match r.tile with
        | some t => ((tilePartial r.w b r.fin lanes t).take live).flatMap (fun y => toLe 4 y.toNat)
        | none => r.epi.bytes ((tileChain r.w b r.fin lanes).take live)
      { pass := (j * r.chunks + m / 512 + 1) * r.inner - 1, off := m * r.rowStride + 64 * j * r.size, bytes := bytes }))

/-- The first block whose tag differs from the one expected (R184): the pass that would use it and its byte offset. -/
def Reduction.badTag (r : Reduction) (rd : Nat → Nat → Bytes) (tag : Nat) : Option (Nat × Nat) :=
  let plane := rd 0 r.w.tagLen
  let (l0, l1) := r.span
  (List.range r.w.nb).findSome? (fun j =>
    (r.w.uses j l0 l1).findSome? (fun x =>
      if (plane.getD x.num 0).toNat = (tag + x.num) % 256 then none
      else
        let inside := if r.depthwise then x.first - l0 else (x.first - l0) / 64
        some (j * r.chunks * r.inner + inside, x.off)))

/-! ### What the array holds between two passes (R135, R152, R172, R208) -/

/-- Output block, position chunk and number within them of a pass. -/
def Reduction.place (r : Reduction) (p : Nat) : Nat × Nat × Nat :=
  let i := max 1 r.inner
  (p / i / max 1 r.chunks, p / i % max 1 r.chunks, p % i)

/-- The pass at which the reduction goes on when pass p is to be the next: the first pass of a group that is not finished, a group being two
passes of 64 of its 128 lanes (R172), or up to G passes of one live tap each when depthwise (R208). -/
def Reduction.resume (r : Reduction) (p : Nat) : Nat :=
  let n := if r.depthwise then r.w.g else r.w.g / 64
  p - (r.place p).2.2 % max 1 n

/-- The reduction indices that a pass has gone through at its end. -/
def Reduction.through (r : Reduction) (p : Nat) : Nat :=
  let (l0, l1) := r.span
  min l1 (l0 + ((r.place p).2.2 + 1) * (if r.depthwise then 1 else 64))

/-- The FP32 accumulators at the end of a pass: for each position of its chunk the 64 channels' partial of the tile in progress over the
groups that are finished (R135; log 111). -/
def Reduction.accumulators (r : Reduction) (rd : Nat → Nat → Bytes) (row : Nat → Nat → List Lane) (p : Nat) : Bytes :=
  let (j, ch, _) := r.place p
  let b := r.w.load rd j
  let l := r.through p
  let t := (l - 1) / 8192
  let groups := if l = r.span.2 then ceilDiv (l - 8192 * t) r.w.g else (l - 8192 * t) / r.w.g
  (List.range (min 512 (r.positions - 512 * ch))).flatMap (fun i =>
    (tilePrefix r.w b r.fin (row j (512 * ch + i)) t groups).flatMap (fun y => toLe 4 y.toNat))

/-- The bytes of the stationary block of a pass: 64 lanes of 64 decoded weights; when depthwise, one lane's weights on the diagonal (R152,
R207; log 111). -/
def Reduction.stationary (r : Reduction) (rd : Nat → Nat → Bytes) (p : Nat) : Bytes :=
  let (j, _, _) := r.place p
  let l := r.through p - 1
  let cb8 := if r.w.w4 then [] else (rd r.w.tagLen 256).map cbEntry
  let cb4 := if r.w.w4 then (cut 16 (rd (r.w.base j) 1024)).map (·.map cbEntry) else []
  let lanes := decodeBlock r.w.w4 cb8 cb4 (rd (r.w.weightOff j (l / 64)) r.w.wsz)
  let out := fun (x : Int) => BitVec.ofInt 8 x
  if r.depthwise then
    let ws := lanes.getD (l % 64) []
    (List.range 64).flatMap (fun i => (List.range 64).map (fun c => if i = c then out (ws.getD c 0) else 0))
  else lanes.flatMap (fun ws => ws.map out)

/-! ### MATMUL (R131, R147) -/

/-- A reserved encoding is treated as 0 (R148). -/
def enc (limit v : Nat) : Nat := if limit < v then 0 else v

/-- The reduction of a MATMUL descriptor. -/
def mmOf (d : Bytes) : Reduction :=
  let k := fieldAt d 0x24 4
  { w := { n := fieldAt d 0x28 4, k := k, g := fieldAt d 0x2D 1, w4 := fieldAt d 0x2C 1 == 1,
           bias := (fieldAt d 0x33 1).testBit 0 }
    fin := fieldAt d 0x2E 1
    tile := tileOf (fieldAt d 0x3C 2) k
    epi := { act := enc 6 (fieldAt d 0x30 1), rot := enc 2 (fieldAt d 0x31 1), fmt := enc 2 (fieldAt d 0x32 1),
             fout := fieldAt d 0x2F 1 }
    depthwise := false
    positions := fieldAt d 0x20 4
    stride := some (fieldAt d 0x38 4) }

/-- M, K or N of zero makes a MATMUL a no-op (R146). -/
def mmNop (d : Bytes) : Bool := fieldAt d 0x20 4 == 0 || fieldAt d 0x24 4 == 0 || fieldAt d 0x28 4 == 0

/-- Row m of a MATMUL's A operand. -/
def mmRow (d : Bytes) (rdA : Nat → Nat → Bytes) (m : Nat) : List Lane :=
  (a16s (rdA (m * fieldAt d 0x34 4) (2 * fieldAt d 0x24 4))).map .all

/-! ### Windows (R192 to R201) -/

/-- The geometry of a window operation. -/
structure Geo where
  hin : Nat
  win : Nat
  cin : Nat
  cout : Nat
  kh : Nat
  kw : Nat
  sy : Nat
  sx : Nat
  dy : Nat
  dx : Nat
  mode : Nat
  pt : Nat
  pb : Nat
  pl : Nat
  pr : Nat
  depthwise : Bool
  deconv : Bool
  deriving DecidableEq, Repr

def geoOf (d : Bytes) (deconv : Bool) : Geo :=
  { hin := fieldAt d 0x20 2, win := fieldAt d 0x22 2, cin := fieldAt d 0x24 2, cout := fieldAt d 0x26 2,
    kh := fieldAt d 0x28 1, kw := fieldAt d 0x29 1, sy := fieldAt d 0x2A 1, sx := fieldAt d 0x2B 1,
    dy := fieldAt d 0x2C 1, dx := fieldAt d 0x2D 1, mode := enc 2 (fieldAt d 0x2E 1),
    pt := fieldAt d 0x30 1, pb := fieldAt d 0x31 1, pl := fieldAt d 0x32 1, pr := fieldAt d 0x33 1,
    depthwise := (fieldAt d 0x2F 1).testBit 0, deconv := deconv }

/-- The output extent of one axis (R192, R201). -/
def axisOut (deconv : Bool) (n lo hi k dil stride : Nat) : Int :=
  if deconv then ((n : Int) - 1) * stride + dil * ((k : Int) - 1) + 1 - lo - hi
  else ((n : Int) + lo + hi - dil * ((k : Int) - 1) - 1) / stride + 1

def Geo.ho (g : Geo) : Nat := (axisOut g.deconv g.hin g.pt g.pb g.kh g.dy g.sy).toNat
def Geo.wo (g : Geo) : Nat := (axisOut g.deconv g.win g.pl g.pr g.kw g.dx g.sx).toNat

/-- A coordinate along an axis of length n as an input index, none for the value 0 (R194). -/
def padIndex (i : Int) (n mode : Nat) : Option Nat :=
  if 0 ≤ i ∧ i < n then some i.toNat
  else if mode = 0 then none
  else if mode = 1 ∨ n = 1 then some (clampInt 0 ((n : Int) - 1) i).toNat
  else
    let p : Int := 2 * ((n : Int) - 1)
    let m := i % p
    some (if m < n then m else p - m).toNat

/-- The input index that a tap reads along one axis at an output index, none for the value 0 (R193, R194, R201). -/
def tapIndex (deconv : Bool) (mode n lo dil stride k o : Nat) : Option Nat :=
  if deconv then
    let v : Int := (o : Int) + lo - k * dil
    if 0 ≤ v ∧ v % stride = 0 ∧ v / stride < n then some (v / stride).toNat else none
  else padIndex ((o : Int) * stride - lo + k * dil) n mode

def Geo.iy (g : Geo) (ky oy : Nat) : Option Nat := tapIndex g.deconv g.mode g.hin g.pt g.dy g.sy ky oy
def Geo.ix (g : Geo) (kx ox : Nat) : Option Nat := tapIndex g.deconv g.mode g.win g.pl g.dx g.sx kx ox

/-- The live taps in raster order (R195, R201). -/
def Geo.live (g : Geo) : List (Nat × Nat) :=
  let rows := (List.range g.kh).filter (fun ky => (List.range g.ho).any (fun oy => (g.iy ky oy).isSome))
  let cols := (List.range g.kw).filter (fun kx => (List.range g.wo).any (fun ox => (g.ix kx ox).isSome))
  rows.flatMap (fun ky => cols.map (fun kx => (ky, kx)))

/-- Some tap of some output position reads an input pixel: the rows and columns of R193, R194 and R201; oy0 and rows: the output rows
(R196). -/
def Geo.reads (g : Geo) (oy0 rows y x : Nat) : Bool :=
  (List.range g.kh).any (fun ky => (List.range rows).any (fun oy => g.iy ky (oy0 + oy) == some y)) &&
    (List.range g.kw).any (fun kx => (List.range g.wo).any (fun ox => g.ix kx ox == some x))

/-- The channels of one input pixel of a packed image, or zeros for padding. -/
def pixelOf (rd : Nat → Nat → Bytes) (w c : Nat) (iy ix : Option Nat) : List Int :=
  match iy, ix with
  | some y, some x => a16s (rd ((y * w + x) * c * 2) (c * 2))
  | _, _ => List.replicate c 0

/-- The pixel a tap reads at output position m. -/
def Geo.tap (g : Geo) (rd : Nat → Nat → Bytes) (m : Nat) (t : Nat × Nat) : List Int :=
  pixelOf rd g.win g.cin (g.iy t.1 (m / g.wo)) (g.ix t.2 (m % g.wo))

/-- Lanes of a tap slot (R197). -/
def Geo.slot (g : Geo) (grp : Nat) : Nat := roundUp g.cin grp

/-- The dense expanded row of a position: every live tap's channels, then fill lanes of 0 (R197, R203). -/
def Geo.row (g : Geo) (grp : Nat) (live : List (Nat × Nat)) (rd : Nat → Nat → Bytes) (m : Nat) : List Int :=
  live.flatMap (fun t => g.tap rd m t ++ List.replicate (g.slot grp - g.cin) 0)

/-- The depthwise lanes of a position for output block j: one live tap each (R200). -/
def Geo.dwRow (g : Geo) (live : List (Nat × Nat)) (rd : Nat → Nat → Bytes) (j m : Nat) : List Lane :=
  live.map (fun t => .each (((g.tap rd m t).drop (64 * j)).take 64 ++ List.replicate (64 - min 64 (g.cin - 64 * j)) 0))

/-- The reduction of a CONV or DECONV descriptor. -/
def convOf (d : Bytes) (deconv : Bool) : Reduction :=
  let g := geoOf d deconv
  let grp := fieldAt d 0x35 1
  let nlive := g.live.length
  let k := if g.depthwise then nlive else nlive * g.slot grp
  { w := { n := if g.depthwise then g.cin else g.cout, k := k, g := grp, w4 := fieldAt d 0x34 1 == 1,
           bias := (fieldAt d 0x2F 1).testBit 1 }
    fin := fieldAt d 0x36 1
    tile := tileOf (fieldAt d 0x3C 2) k
    epi := { act := enc 6 (fieldAt d 0x38 1), rot := enc 2 (fieldAt d 0x39 1), fmt := enc 2 (fieldAt d 0x3A 1),
             fout := fieldAt d 0x37 1 }
    depthwise := g.depthwise
    positions := g.ho * g.wo
    stride := none }

/-- A zero extent, kernel or channel count makes a window operation a no-op (R146, R147, R192, R194). -/
def Geo.nop (g : Geo) : Bool :=
  g.hin == 0 || g.win == 0 || g.cin == 0 || g.kh == 0 || g.kw == 0 || g.ho == 0 || g.wo == 0

def convNop (d : Bytes) (deconv : Bool) : Bool :=
  let g := geoOf d deconv
  g.nop || (!g.depthwise && g.cout == 0)

/-- The rows of a CONV or DECONV. -/
def convRow (d : Bytes) (deconv : Bool) (rdA : Nat → Nat → Bytes) : Nat → Nat → List Lane :=
  let g := geoOf d deconv
  let live := g.live
  let grp := fieldAt d 0x35 1
  fun j m => if g.depthwise then g.dwRow live rdA j m else (g.row grp live rdA m).map .all

/-- Bytes of a window operation's input image. -/
def Geo.inLen (g : Geo) : Nat := g.hin * g.win * g.cin * 2

/-! ### POOL (R209) -/

/-- The value of one channel before activation: the maximum of the taps, or their average over the whole window. -/
def poolValue (kind fin : Nat) (qs : List Int) : Word :=
  if kind = 1 then
    let s := qs.foldl (· + ·) 0
    rna32 (decide (s < 0)) s.natAbs qs.length (-(fin : Int))
  else a16To32 (qs.tail.foldl max (qs.headD 0)) fin

/-- Transpose taps of channels into channels of taps. -/
def byChannel (c : Nat) (taps : List (List Int)) : List (List Int) :=
  (List.range c).map (fun i => taps.map (fun t => t.getD i 0))

/-- The epilogue of a POOL. -/
def poolEpi (d : Bytes) : Epilogue :=
  { act := enc 6 (fieldAt d 0x38 1), rot := enc 2 (fieldAt d 0x39 1), fmt := enc 2 (fieldAt d 0x3A 1), fout := fieldAt d 0x37 1 }

/-- Passes of a POOL (R207). -/
def poolPasses (d : Bytes) : Nat :=
  let g := geoOf d false
  ceilDiv g.cin 64 * ceilDiv (g.ho * g.wo) 512 * (g.kh * g.kw)

/-- What a POOL writes: every tap of the window counts, live or not. -/
def poolPieces (d : Bytes) (rdA : Nat → Nat → Bytes) : List Piece :=
  let g := geoOf d false
  let e := poolEpi d
  let sz := outSize e.fmt
  let kind := enc 1 (fieldAt d 0x34 1)
  let taps := (List.range g.kh).flatMap (fun ky => (List.range g.kw).map (fun kx => (ky, kx)))
  let rows := (List.range (g.ho * g.wo)).map (fun m =>
    (m, e.bytes ((byChannel g.cin (taps.map (g.tap rdA m))).map (poolValue kind (fieldAt d 0x36 1)))))
  (List.range (ceilDiv g.cin 64)).flatMap (fun j => rows.map (fun mr =>
    { pass := (j * ceilDiv (g.ho * g.wo) 512 + mr.1 / 512 + 1) * (g.kh * g.kw) - 1
      off := (mr.1 * g.cin + 64 * j) * sz
      bytes := slice mr.2 (64 * j * sz) (64 * sz) }))

/-! ### EXPAND (R203) -/

/-- The geometry of an EXPAND: a CONV's, or the DECONV extents and contribution rule. The spec gives no field that tells them apart: one
whose reserved option bits are 0 is a CONV's, any other is open (log 30). -/
def expandGeo (d : Bytes) : Geo :=
  let bits := fieldAt d 0x2F 1 / 4
  geoOf d (bits != 0 && Config.expandDeconv bits)

/-- First row, and rows of the stripe inside the output. -/
def expandRows (d : Bytes) : Nat × Nat :=
  let g := expandGeo d
  let r0 := fieldAt d 0x3C 2
  (r0, min (fieldAt d 0x3E 2) (g.ho - r0))

/-- A first row at or beyond Ho, or no rows, makes EXPAND a no-op. -/
def expandNop (d : Bytes) : Bool := (expandGeo d).nop || (expandRows d).2 == 0

/-- Lanes of an expanded row; EXPAND always writes the dense layout. -/
def expandLen (d : Bytes) : Nat := let g := expandGeo d; g.live.length * g.slot (fieldAt d 0x35 1)

/-- Passes of an EXPAND (R207). -/
def expandPasses (d : Bytes) : Nat :=
  let g := expandGeo d
  ceilDiv ((expandRows d).2 * g.wo) 512 * ceilDiv (expandLen d) 64

/-- What an EXPAND writes: one row of K_live lanes per position. -/
def expandPieces (d : Bytes) (rdA : Nat → Nat → Bytes) : List Piece :=
  let g := expandGeo d
  let live := g.live
  let grp := fieldAt d 0x35 1
  let (r0, n) := expandRows d
  let k := expandLen d
  (List.range (n * g.wo)).map (fun p =>
    { pass := (p / 512 + 1) * ceilDiv k 64 - 1
      off := 2 * k * p
      bytes := (g.row grp live rdA (r0 * g.wo + p)).flatMap (fun q => toLe 2 (unsigned 16 q)) })

end Sys2Proof.Machine
end

