-- ==== Sys2Proof/Machine/VectorOps.lean ====
section
/-! DEFINITION. What VECTOR, NORM, WARP, COPY and ATTEND write (R182, R183, R210 to R214, R274, R275). -/

namespace Sys2Proof.Machine

/-! ### VECTOR (R182) -/

/-- The sub-operation of a VECTOR; a reserved value is treated as 0. -/
def vecSub (d : Bytes) : Nat := enc 6 (fieldAt d 0x28 1)

/-- Zero positions or channels, or a COMBINE of no partials, is a no-op (R146, R182). -/
def vecNop (d : Bytes) : Bool :=
  fieldAt d 0x20 4 == 0 || fieldAt d 0x24 4 == 0 || (vecSub d == 5 && fieldAt d 0x2E 1 == 0)

/-- The value of each channel of position m before activation. -/
def vecRow (d : Bytes) (rdA rdB : Nat → Nat → Bytes) (m : Nat) : List Word :=
  let n := fieldAt d 0x24 4
  let fa := fieldAt d 0x29 1
  let fb := fieldAt d 0x2A 1
  let a16row := fun () => (a16s (rdA (m * n * 2) (n * 2))).map (fun q => a16To32 q fa)
  let b16row := fun () => (a16s (rdB (m * n * 2) (n * 2))).map (fun q => a16To32 q fb)
  match vecSub d with
  | 1 => List.zipWith fAdd (a16row ()) (b16row ())
  | 2 => List.zipWith fMul (a16row ()) (b16row ())
  | 4 =>
    let sc := f32s (rdB 0 (4 * n))
    let bc := f32s (rdB (4 * n) (4 * n))
    List.zipWith fAdd (List.zipWith fMul (a16row ()) sc) bc
  | 5 =>
    let tensor := fieldAt d 0x20 4 * n * 4
    let part := fun t => f32s (rdA (t * tensor + m * n * 4) (n * 4))
    (List.range (fieldAt d 0x2E 1 - 1)).foldl (fun p t => List.zipWith fAdd p (part (t + 1))) (part 0)
  | 6 => f32s (rdA (m * n * 4) (n * 4))
  | _ => a16row ()

/-- The epilogue of VECTOR and NORM; only VECTOR's rotate turns, at the size its partials byte selects. -/
def vecEpi (d : Bytes) (rot : Nat) : Epilogue :=
  { act := enc 6 (fieldAt d 0x2C 1), rot := rot, fmt := enc 2 (fieldAt d 0x2D 1), fout := fieldAt d 0x2B 1 }

/-- The rotation of a VECTOR. -/
def vecRot (d : Bytes) : Nat := if vecSub d = 6 then enc 2 (fieldAt d 0x2E 1) else 0

/-- Pieces of a row of channels cut into 64-channel blocks, each written by the pass that f gives it. -/
def blockPieces (n sz m : Nat) (row : Bytes) (f : Nat → Nat) : List Piece :=
  (List.range (ceilDiv n 64)).map (fun j =>
    { pass := f j, off := (m * n + 64 * j) * sz, bytes := slice row (64 * j * sz) (64 * sz) })

/-- What a VECTOR writes. -/
def vecPieces (d : Bytes) (rdA rdB : Nat → Nat → Bytes) : List Piece :=
  let n := fieldAt d 0x24 4
  let e := vecEpi d (vecRot d)
  let chunks := ceilDiv (fieldAt d 0x20 4) 512
  (List.range (fieldAt d 0x20 4)).flatMap (fun m =>
    blockPieces n (outSize e.fmt) m (e.bytes (vecRow d rdA rdB m)) (fun j => j * chunks + m / 512))

/-! ### NORM (R183) -/

def normSub (d : Bytes) : Nat := enc 3 (fieldAt d 0x28 1)
def normNop (d : Bytes) : Bool := fieldAt d 0x20 4 == 0 || fieldAt d 0x24 4 == 0

/-- A sum that starts from +0 and adds each value in ascending order. -/
def fSum0 (xs : List Word) : Word := xs.foldl fAdd 0

/-- The normalised channels of one position. -/
def normRow (sub : Nat) (xs : List Word) (eps : Word) (gamma beta : List Word) : List Word :=
  let n := a16To32 xs.length 0
  let rsqrt := fun v => fDiv f32One (fSqrt v)
  match sub with
  | 0 =>
    let mu := fDiv (fSum0 xs) n
    let dc := xs.map (fun x => fSub x mu)
    let v := fDiv (fSum0 (dc.map (fun x => fMul x x))) n
    let r := rsqrt (fAdd v eps)
    List.zipWith fAdd (List.zipWith fMul (dc.map (fun x => fMul x r)) gamma) beta
  | 1 =>
    let v := fDiv (fSum0 (xs.map (fun x => fMul x x))) n
    let r := rsqrt (fAdd v eps)
    List.zipWith fMul (xs.map (fun x => fMul x r)) gamma
  | 2 =>
    let m := xs.tail.foldl fMax (xs.headD 0)
    let e := xs.map (fun x => fEx (fSub x m))
    let s := fSum0 e
    e.map (fun x => fDiv x s)
  | _ =>
    let v := fSum0 (xs.map (fun x => fMul x x))
    let r := rsqrt (fMax v eps)
    xs.map (fun x => fMul x r)

/-- Sweeps of a NORM (R207). -/
def normSweeps (sub : Nat) : Nat := if sub = 0 ∨ sub = 2 then 3 else 2

/-- What a NORM writes. -/
def normPieces (d : Bytes) (rdA rdB : Nat → Nat → Bytes) : List Piece :=
  let n := fieldAt d 0x24 4
  let e := vecEpi d 0
  let sub := normSub d
  let eps := take16 (BitVec.ofNat 16 (fieldAt d 0x30 2))
  let gamma := if sub ≤ 1 then f32s (rdB 0 (4 * n)) else []
  let beta := if sub = 0 then f32s (rdB (4 * n) (4 * n)) else []
  let blocks := ceilDiv n 64
  (List.range (fieldAt d 0x20 4)).flatMap (fun m =>
    let xs := (a16s (rdA (m * n * 2) (n * 2))).map (fun q => a16To32 q (fieldAt d 0x29 1))
    blockPieces n (outSize e.fmt) m (e.bytes (normRow sub xs eps gamma beta))
      (fun j => (m / 512) * (blocks * normSweeps sub) + (normSweeps sub - 1) * blocks + j))

/-! ### WARP (R212 to R214) -/

/-- Source and output extents and channels. -/
structure WarpGeo where
  hs : Nat
  ws : Nat
  ch : Nat
  ho : Nat
  wo : Nat
  deriving DecidableEq, Repr

def warpGeo (d : Bytes) : WarpGeo :=
  ⟨fieldAt d 0x20 2, fieldAt d 0x22 2, fieldAt d 0x24 2, fieldAt d 0x26 2, fieldAt d 0x28 2⟩

def warpNop (d : Bytes) : Bool := let g := warpGeo d; g.hs == 0 || g.ws == 0 || g.ch == 0 || g.ho == 0 || g.wo == 0

/-- Bytes of the flow operand (R212, R213). -/
def warpFlowLen (d : Bytes) : Nat :=
  let g := warpGeo d
  if fieldAt d 0x2A 1 = 1 then 64 + 4 * ceilDiv g.ws 8 * ceilDiv g.hs 8 else g.ho * g.wo * 4

/-- The displacement of an output pixel (R212, R213). -/
def warpFlow (d : Bytes) (rdB : Nat → Nat → Bytes) (x y : Nat) : Word × Word :=
  let g := warpGeo d
  let sc := dyad16 (BitVec.ofNat 16 (fieldAt d 0x2E 2))
  if fieldAt d 0x2A 1 = 1 then
    let bw := ceilDiv g.ws 8
    let bh := ceilDiv g.hs 8
    let bx := min (bw - 1) ((2 * x + 1) * g.ws / (16 * g.wo))
    let by_ := min (bh - 1) ((2 * y + 1) * g.hs / (16 * g.ho))
    let r := leNat (rdB (64 + 4 * (by_ * bw + bx)) 4)
    (((dyadInt (signed 12 r) 2).mul sc).to32, ((dyadInt (signed 11 (r / 2 ^ 12)) 2).mul sc).to32)
  else
    let f := fieldAt d 0x2B 1
    let qs := a16s (rdB ((y * g.wo + x) * 4) 4)
    (((dyadInt (qs.getD 0 0) f).mul sc).to32, ((dyadInt (qs.getD 1 0) f).mul sc).to32)

/-- The base coordinate: ((2i + 1)·n / 2o) − 0.5, one rounding. -/
def warpBase (i n o : Nat) : Word :=
  let v : Int := ((2 * i + 1) * n : Nat) - (o : Int)
  rna32 (decide (v < 0)) v.natAbs (2 * o) 0

/-- The integer part of a value not below 0. -/
def fFloor (x : Word) : Nat := let d := dyad32 x; if 0 ≤ d.e then d.m * 2 ^ d.e.toNat else d.m / 2 ^ (-d.e).toNat

/-- Linear interpolation, each operation rounded. -/
def lerp (a b f : Word) : Word := fAdd a (fMul f (fSub b a))

/-- The samples of an output pixel, two columns by two rows, and its fractions. -/
structure WarpTap where
  x0 : Nat
  x1 : Nat
  y0 : Nat
  y1 : Nat
  ax : Word
  ay : Word
  deriving DecidableEq, Repr

/-- Where an output pixel samples its source. -/
def warpTap (d : Bytes) (rdB : Nat → Nat → Bytes) (x y : Nat) : WarpTap :=
  let g := warpGeo d
  let (fx, fy) := warpFlow d rdB x y
  let at_ := fun b f (n : Nat) => fMin (fMax (fAdd b f) 0) (a16To32 ((n : Int) - 1) 0)
  let sx := at_ (warpBase x g.ws g.wo) fx g.ws
  let sy := at_ (warpBase y g.hs g.ho) fy g.hs
  let x0 := fFloor sx
  let y0 := fFloor sy
  { x0 := x0, x1 := min (x0 + 1) (g.ws - 1), y0 := y0, y1 := min (y0 + 1) (g.hs - 1),
    ax := fSub sx (a16To32 x0 0), ay := fSub sy (a16To32 y0 0) }

/-- The channels of one output pixel. -/
def warpPixel (d : Bytes) (rdA rdB : Nat → Nat → Bytes) (x y : Nat) : List Int :=
  let g := warpGeo d
  let t := warpTap d rdB x y
  let px := fun yy xx => (pixelOf rdA g.ws g.ch (some yy) (some xx)).map (fun q => a16To32 q (fieldAt d 0x2C 1))
  let hl := fun yy => List.zipWith (fun a b => lerp a b t.ax) (px yy t.x0) (px yy t.x1)
  (List.zipWith (fun a b => lerp a b t.ay) (hl t.y0) (hl t.y1)).map (fun v => satA16 v (fieldAt d 0x2D 1))

/-- A pixel of the source is one of the four samples of some output pixel (R196). -/
def warpReads (d : Bytes) (rdB : Nat → Nat → Bytes) (y x : Nat) : Bool :=
  let g := warpGeo d
  (List.range (g.ho * g.wo)).any (fun m =>
    let t := warpTap d rdB (m % g.wo) (m / g.wo)
    (y == t.y0 || y == t.y1) && (x == t.x0 || x == t.x1))

/-- What a WARP writes. -/
def warpPieces (d : Bytes) (rdA rdB : Nat → Nat → Bytes) : List Piece :=
  let g := warpGeo d
  let chunks := ceilDiv (g.ho * g.wo) 512
  (List.range (g.ho * g.wo)).flatMap (fun m =>
    let row := (warpPixel d rdA rdB (m % g.wo) (m / g.wo)).flatMap (fun q => toLe 2 (unsigned 16 q))
    blockPieces g.ch 2 m row (fun j => j * chunks + m / 512))

/-! ### COPY (R210, R211) -/

/-- A COPY's fields: rows, row bytes, source and destination stride, transform, factor, channels. -/
structure CopyGeo where
  rows : Nat
  rowBytes : Nat
  ss : Nat
  ds : Nat
  tr : Nat
  r : Nat
  ch : Nat
  deriving DecidableEq, Repr

def copyGeo (d : Bytes) : CopyGeo :=
  ⟨fieldAt d 0x20 4, fieldAt d 0x24 4, fieldAt d 0x28 4, fieldAt d 0x2C 4, enc 3 (fieldAt d 0x30 1), fieldAt d 0x31 1,
    fieldAt d 0x32 2⟩

/-- Pixels of a low-resolution row. -/
def CopyGeo.pixels (g : CopyGeo) : Nat := g.rowBytes / (2 * g.ch * g.r * g.r)

/-- The shuffle transforms. -/
def CopyGeo.shuffles (g : CopyGeo) : Bool := g.tr == 1 || g.tr == 2

def copyNop (d : Bytes) : Bool :=
  let g := copyGeo d
  g.rows == 0 || g.rowBytes == 0 || (g.shuffles && (g.ch == 0 || g.pixels == 0))

/-- Bytes of a row and number of rows on the source side. -/
def CopyGeo.src (g : CopyGeo) : Nat × Nat :=
  match g.tr with
  | 1 => (g.pixels * g.ch * g.r * g.r * 2, g.rows)
  | 2 => (g.pixels * g.r * g.ch * 2, g.rows * g.r)
  | _ => (g.rowBytes, g.rows)

/-- Bytes of a row and number of rows on the destination side. -/
def CopyGeo.dst (g : CopyGeo) : Nat × Nat :=
  match g.tr with
  | 1 => (g.pixels * g.r * g.ch * 2, g.rows * g.r)
  | 2 => (g.pixels * g.ch * g.r * g.r * 2, g.rows)
  | _ => (g.rowBytes, g.rows)

/-- Bytes from the first to the last byte of rows at a stride. -/
def rowsExtent (bytes rows stride : Nat) : Nat := if rows = 0 then 0 else (rows - 1) * stride + bytes

/-- Element e of a row of 2-byte elements. -/
def elem (row : Bytes) (e : Nat) : Bytes := slice row (2 * e) 2

/-- The bytes of destination row i. -/
def copyRow (g : CopyGeo) (rd : Nat → Nat → Bytes) (i : Nat) : Bytes :=
  match g.tr with
  | 1 =>
    let row := rd (i / g.r * g.ss) g.src.1
    (List.range (g.pixels * g.r)).flatMap (fun x => (List.range g.ch).flatMap (fun c =>
      elem row ((x / g.r) * (g.ch * g.r * g.r) + c * g.r * g.r + (i % g.r) * g.r + x % g.r)))
  | 2 =>
    let rows := (List.range g.r).map (fun dy => rd ((i * g.r + dy) * g.ss) g.src.1)
    (List.range g.pixels).flatMap (fun x => (List.range (g.ch * g.r * g.r)).flatMap (fun k =>
      elem (rows.getD (k / g.r % g.r) []) ((x * g.r + k % g.r) * g.ch + k / (g.r * g.r))))
  | 3 => List.replicate g.rowBytes 0
  | _ => rd (i * g.ss) g.rowBytes

/-- What a COPY writes: destination rows, each with the 32 KiB chunk in which it ends (R151). -/
def copyPieces (d : Bytes) (rd : Nat → Nat → Bytes) : List Piece :=
  let g := copyGeo d
  let (b, n) := g.dst
  (List.range n).map (fun i => { pass := ((i + 1) * b - 1) / 32768, off := i * g.ds, bytes := copyRow g rd i })

/-! ### ATTEND (R274, R275) -/

/-- The fields of an ATTEND. -/
structure AttGeo where
  nq : Nat
  nk : Nat
  hd : Nat
  first : Nat
  causal : Bool
  paged : Bool
  v : Nat
  deriving DecidableEq, Repr

def attGeo (d : Bytes) : AttGeo :=
  ⟨fieldAt d 0x28 2, fieldAt d 0x2A 2, fieldAt d 0x2C 2, fieldAt d 0x2E 2, fieldAt d 0x36 1 != 0,
    (fieldAt d 0x37 1).testBit 0, fieldAt d 0x20 8⟩

def attNop (d : Bytes) : Bool := let g := attGeo d; g.nq == 0 || g.nk == 0 || g.hd == 0

/-- Keys visible to some query of chunk q. -/
def AttGeo.visible (g : AttGeo) (q : Nat) : Nat := if g.causal then min g.nk (g.first + min g.nq (256 * (q + 1))) else g.nk

/-- Passes of chunk q: the logits over 32 keys and 64 lanes at a time, then the values over 64 keys and 32 lanes (R133). -/
def AttGeo.chunkPasses (g : AttGeo) (q : Nat) : Nat :=
  let n := g.visible q
  ceilDiv n 32 * ceilDiv g.hd 64 + ceilDiv n 64 * ceilDiv g.hd 32

/-- Passes before chunk q. -/
def AttGeo.before (g : AttGeo) (q : Nat) : Nat := (List.range q).foldl (fun a i => a + g.chunkPasses i) 0

/-- Passes of the descriptor. -/
def AttGeo.passes (g : AttGeo) : Nat := g.before (ceilDiv g.nq 256)

/-- The running maximum, sum and accumulators of a query. -/
structure AttRun where
  m : Word
  sum : Word
  acc : List Word
  deriving DecidableEq, Repr

/-- One key block of a query: its visible keys and values (R275). -/
def attBlock (fq fk fv : Nat) (lsc : Dyad) (q : List Int) (kvs : List (List Int × List Int)) (s : Option AttRun) :
    Option AttRun :=
  match kvs with
  | [] => s
  | _ =>
    let ls := kvs.map (fun kv =>
      let dot := (List.zipWith (· * ·) q kv.1).foldl (· + ·) 0
      ((dyad32 ((dyadInt dot (fq + fk)).to32)).mul lsc).to32)
    let lm := ls.tail.foldl fMax (ls.headD 0)
    let mn := match s with | some r => fMax r.m lm | none => lm
    let ws := ls.map (fun l => satA16 (fEx (fSub l mn)) 15)
    let wsum := ws.foldl (· + ·) 0
    let vs := (List.zipWith (fun (w : Int) (kv : List Int × List Int) => kv.2.map (fun x => w * x)) ws kvs).foldl
      (fun a b => List.zipWith (· + ·) a b) (List.replicate q.length 0)
    let bw := (dyadInt wsum 15).to32
    let bs := vs.map (fun x => (dyadInt x (15 + fv)).to32)
    match s with
    | none => some ⟨mn, bw, bs⟩
    | some r =>
      let al := fEx (fSub r.m mn)
      some ⟨mn, fAdd (fMul r.sum al) bw, List.zipWith (fun a b => fAdd (fMul a al) b) r.acc bs⟩

/-- One query row against the key blocks. -/
def attRow (d : Bytes) (q : List Int) (i : Nat) (blocks : List (List (List Int × List Int))) : List Int :=
  let g := attGeo d
  let lsc := dyad16 (BitVec.ofNat 16 (fieldAt d 0x34 2))
  let pq := g.first + i
  let run := ((List.range blocks.length).zip blocks).foldl (fun s bk =>
    let vis := if g.causal then bk.2.take (pq + 1 - 256 * bk.1) else bk.2
    attBlock (fieldAt d 0x30 1) (fieldAt d 0x31 1) (fieldAt d 0x32 1) lsc q vis s) none
  match run with
  | none => List.replicate g.hd 0
  | some r => r.acc.map (fun a => satA16 (fDiv a r.sum) (fieldAt d 0x33 1))

/-- The key and value slice addresses of block t of a paged ATTEND. -/
def attEntry (rdB : Nat → Nat → Bytes) (t : Nat) : Nat × Nat := (leNat (rdB (16 * t) 8), leNat (rdB (16 * t + 8) 8))

/-- The table addresses an ATTEND reads, with the pass before which each block is first read. -/
def attTable (d : Bytes) (rdB : Nat → Nat → Bytes) : List (Nat × Nat × Nat) :=
  let g := attGeo d
  if !g.paged then [] else
  (List.range (ceilDiv g.nq 256)).flatMap (fun q =>
    (List.range (ceilDiv (g.visible q) 256)).flatMap (fun t =>
      let len := min 256 (g.visible q - 256 * t) * g.hd * 2
      let (k, v) := attEntry rdB t
      [(g.before q, k, len), (g.before q, v, len)]))

/-- What an ATTEND writes; rdOp reads through any operand address. -/
def attPieces (d : Bytes) (rdOp : Nat → Nat → Nat → Bytes) : List Piece :=
  let g := attGeo d
  let row := fun op k => a16s (rdOp op (k * g.hd * 2) (g.hd * 2))
  let blocks := (List.range (ceilDiv (g.visible (ceilDiv g.nq 256 - 1)) 256)).map (fun t =>
    let n := min 256 (g.nk - 256 * t)
    let (ko, vo, k0) := if g.paged then
        let e := attEntry (rdOp (dB d)) t
        (e.1, e.2, 0)
      else (dB d, g.v, 256 * t)
    (List.range n).map (fun k => (row ko (k0 + k), row vo (k0 + k))))
  (List.range g.nq).map (fun i =>
    { pass := g.before (i / 256 + 1) - 1
      off := i * g.hd * 2
      bytes := (attRow d (row (dA d) i) i blocks).flatMap (fun q => toLe 2 (unsigned 16 q)) })

end Sys2Proof.Machine
end

