-- ==== Sys2Proof/Machine/Descr.lean ====
section
/-! DEFINITION. Descriptors as an array takes them: what they read and write, the operand checks of R138, their passes (R207), the bytes
that an error can strike (R196), and what a save moves (R152). -/

namespace Sys2Proof.Machine

/-! ### What a descriptor reads and writes -/

/-- A zero count, length or size makes the descriptor a no-op (R146). -/
def descNop (d : Bytes) : Bool :=
  match dOpcode d with
  | 1 => mmNop d
  | 2 => convNop d false
  | 3 => convNop d true
  | 4 => (geoOf d false).nop
  | 5 => warpNop d
  | 6 => vecNop d
  | 7 => normNop d
  | 8 => attNop d
  | 9 => expandNop d
  | 10 => copyNop d
  | _ => false

/-- The reduction of a descriptor that reads a weight stream. -/
def reductionOf (d : Bytes) : Option Reduction :=
  match dOpcode d with
  | 1 => some (mmOf d)
  | 2 => some (convOf d false)
  | 3 => some (convOf d true)
  | _ => none

/-- The operands of a descriptor in the order A, B, V, OUT: the extent in bytes and the row stride where a field gives one. bd: what bound A,
B, OUT and V. -/
def operands (d : Bytes) (bd : List (Option (Nat × Option Nat))) : List (Ext × Option Nat) :=
  let a := fun (n : Nat) (s : Option Nat) => (({ op := dA d, len := n, write := false, bound := (bd[0]?).join } : Ext), s)
  let b := fun (n : Nat) => (({ op := dB d, len := n, write := false, bound := (bd[1]?).join } : Ext), (none : Option Nat))
  let o := fun (n : Nat) (s : Option Nat) => (({ op := dOut d, len := n, write := true, bound := (bd[2]?).join } : Ext), s)
  let pc := fieldAt d 0x20 4 * fieldAt d 0x24 4
  match dOpcode d with
  | 1 =>
    let r := mmOf d
    [a (rowsExtent (2 * r.w.k) r.positions (fieldAt d 0x34 4)) (some (fieldAt d 0x34 4)), b r.w.len, o r.outLen (some (fieldAt d 0x38 4))]
  | 2 => let r := convOf d false; [a (geoOf d false).inLen none, b r.w.len, o r.outLen none]
  | 3 => let r := convOf d true; [a (geoOf d true).inLen none, b r.w.len, o r.outLen none]
  | 4 => let g := geoOf d false; [a g.inLen none, o (g.ho * g.wo * g.cin * outSize (poolEpi d).fmt) none]
  | 5 => let g := warpGeo d; [a (g.hs * g.ws * g.ch * 2) none, b (warpFlowLen d), o (g.ho * g.wo * g.ch * 2) none]
  | 6 =>
    let sub := vecSub d
    let an := if sub = 5 then pc * 4 * fieldAt d 0x2E 1 else pc * (if sub = 6 then 4 else 2)
    [a an none] ++ (if sub = 1 ∨ sub = 2 then [b (pc * 2)] else if sub = 4 then [b (fieldAt d 0x24 4 * 8)] else []) ++
      [o (pc * outSize (vecEpi d 0).fmt) none]
  | 7 =>
    let sub := normSub d
    [a (pc * 2) none] ++ (if sub = 0 then [b (fieldAt d 0x24 4 * 8)] else if sub = 1 then [b (fieldAt d 0x24 4 * 4)] else []) ++
      [o (pc * outSize (vecEpi d 0).fmt) none]
  | 8 =>
    let g := attGeo d
    [a (g.nq * g.hd * 2) none, b (if g.paged then ceilDiv g.nk 256 * 16 else g.nk * g.hd * 2)] ++
      (if g.paged then [] else [({ op := g.v, len := g.nk * g.hd * 2, write := false, bound := (bd[3]?).join }, none)]) ++ [o (g.nq * g.hd * 2) none]
  | 9 => let g := expandGeo d; [a g.inLen none, o ((expandRows d).2 * g.wo * expandLen d * 2) none]
  | 10 =>
    let g := copyGeo d
    (if g.tr = 3 then [] else [a (rowsExtent g.src.1 g.src.2 g.ss) (some g.ss)]) ++ [o (rowsExtent g.dst.1 g.dst.2 g.ds) (some g.ds)]
  | _ => []

/-- Check an operand: its offset, its stride, its extent (R137, R138). -/
def Chip.checkOperand (c : Chip) (e : Env) (copy : Bool) (x : Ext × Option Nat) : Option Bad :=
  let named := match x.1.bound with | some (o, _) => o | none => x.1.op
  if !copy && opOff x.1.op % 64 != 0 then some { code := 2, addr := named }
  else (x.2.bind (checkStride named)).orElse (fun _ => c.checkExt e copy x.1)

/-- The first operand that faults a descriptor. -/
def Chip.badOperand (c : Chip) (e : Env) (d : Bytes) : Option Bad :=
  (operands d e.bound).findSome? (c.checkOperand e (dOpcode d == 10))

/-- What a descriptor writes at OUT, from what stands in its operands before it. -/
def Chip.opPieces (c : Chip) (e : Env) (d : Bytes) : List Piece :=
  let rd := fun (op k n : Nat) => c.opRead e op k n
  match dOpcode d with
  | 1 => (mmOf d).pieces (rd (dB d)) (fun _ m => mmRow d (rd (dA d)) m)
  | 2 => (convOf d false).pieces (rd (dB d)) (convRow d false (rd (dA d)))
  | 3 => (convOf d true).pieces (rd (dB d)) (convRow d true (rd (dA d)))
  | 4 => poolPieces d (rd (dA d))
  | 5 => warpPieces d (rd (dA d)) (rd (dB d))
  | 6 => vecPieces d (rd (dA d)) (rd (dB d))
  | 7 => normPieces d (rd (dA d)) (rd (dB d))
  | 8 => attPieces d rd
  | 9 => expandPieces d (rd (dA d))
  | 10 => copyPieces d (rd (dA d))
  | _ => []

/-- Passes of a descriptor (R207); COPY and a no-op run none. -/
def descPasses (d : Bytes) : Nat :=
  if descNop d then 0 else
  match dOpcode d with
  | 4 => poolPasses d
  | 5 => let g := warpGeo d; ceilDiv g.ch 64 * ceilDiv (g.ho * g.wo) 512
  | 6 => ceilDiv (fieldAt d 0x24 4) 64 * ceilDiv (fieldAt d 0x20 4) 512
  | 7 => ceilDiv (fieldAt d 0x20 4) 512 * ceilDiv (fieldAt d 0x24 4) 64 * normSweeps (normSub d)
  | 8 => (attGeo d).passes
  | 9 => expandPasses d
  | _ => match reductionOf d with | some r => r.passes | none => 0

/-! ### Errors that strike a descriptor (R514) -/

/-- What stops a descriptor at a pass. -/
inductive Stop where
  /-- A block-table address of an ATTEND that the context may not read (R274). -/
  | table (b : Bad)
  /-- A block of the weight stream with another tag: the address of its first byte (R185). -/
  | tag (addr : Nat)
  | residue
  | sram (addr : Nat)
  | basin (addr : Nat)
  | sector (addr : Nat)
  deriving DecidableEq, Repr

/-- Something met at a pass: a hardware error, or a stop that the data gives. -/
inductive Event where
  | hw (x : HwErr)
  | stop (s : Stop)
  deriving DecidableEq, Repr

/-- The pass that a hardware error strikes. -/
def hwPass : HwErr → Nat
  | .residue p => p
  | .sram p _ => p
  | .sramCorrected _ => 0
  | .basin p _ _ => p
  | .sector p _ => p

/-- The stops that the data of a descriptor gives: its first tag mismatch, its first refused block-table address. The spec asks no alignment of
the addresses in a block table, as R137 does of operands: none is checked (log 112). -/
def Chip.dataStops (c : Chip) (e : Env) (d : Bytes) : List (Nat × Event) :=
  let rdB := fun k n => c.opRead e (dB d) k n
  let tag := (reductionOf d).bind (fun r => (r.badTag rdB (dTag d)).map (fun x =>
    (x.1, Event.stop (.tag ((if opSpace (dB d) = 3 then opOff (dB d) else dB d) + x.2)))))
  let table := if dOpcode d = 8 then (attTable d rdB).findSome? (fun x =>
      let bad := if opSpace x.2.1 = 6 then some ({ code := 3, addr := x.2.1 } : Bad)
        else c.checkSpace e true { op := x.2.1, len := x.2.2, write := false, bound := none }
      bad.map (fun b => (x.1, Event.stop (.table b)))) else none
  tag.toList ++ table.toList

/-! ### The bytes that an error can strike (R196) -/

/-- A run of an operand that a descriptor reads: its address, its length, and which of its bytes. -/
structure Reader where
  op : Nat
  len : Nat
  byte : Nat → Bool

/-- The bytes that a descriptor reads: of a window operation the samples that some tap reads, of a WARP the four samples of each output pixel,
of rows their bytes without the gaps between them, of a weight stream the tag plane and the blocks fetched, of a paged ATTEND the slices
that its table names. -/
def Chip.readers (c : Chip) (e : Env) (d : Bytes) : List Reader :=
  let rdB := fun k n => c.opRead e (dB d) k n
  let whole := (operands d e.bound).filter (fun x => !x.1.write)
  let pixels := fun (w ch : Nat) (p : Nat → Nat → Bool) (o : Nat) => let m := o / (2 * ch); p (m / w) (m % w)
  let byteA : Nat → Bool := match dOpcode d with
    | 1 => fun o => let s := fieldAt d 0x34 4; s = 0 || decide (o % s < 2 * fieldAt d 0x24 4) || decide (s < 2 * fieldAt d 0x24 4)
    | 2 => let g := geoOf d false; pixels g.win g.cin (g.reads 0 g.ho)
    | 3 => let g := geoOf d true; pixels g.win g.cin (g.reads 0 g.ho)
    | 4 => let g := geoOf d false; pixels g.win g.cin (g.reads 0 g.ho)
    | 5 => let g := warpGeo d; pixels g.ws g.ch (warpReads d rdB)
    | 9 => let g := expandGeo d; pixels g.win g.cin (g.reads (expandRows d).1 (expandRows d).2)
    | 10 => fun o => let g := copyGeo d; g.ss = 0 || decide (o % g.ss < g.src.1) || decide (g.ss < g.src.1)
    | _ => fun _ => true
  let byteB : Nat → Bool := match reductionOf d with
    | none => fun _ => true
    | some r => fun o =>
      let (l0, l1) := r.span
      decide (o < r.w.tagLen) ||
        (List.range r.w.nb).any (fun j => (r.w.uses j l0 l1).any (fun u => decide (u.off ≤ o) && decide (o < u.off + u.size)))
  (whole.map (fun x =>
      { op := x.1.op, len := x.1.len, byte := if x.1.op = dA d then byteA else if x.1.op = dB d then byteB else fun _ => true })) ++
    (if dOpcode d = 8 then (attTable d rdB).map (fun x => { op := x.2.1, len := x.2.2, byte := fun _ => true }) else [])

/-- A reader reads one of n bytes at an offset of its space. -/
def Reader.hits (r : Reader) (o n : Nat) : Bool :=
  overlaps (opOff r.op) r.len o n &&
    (List.range n).any (fun i => decide (opOff r.op ≤ o + i) && decide (o + i < opOff r.op + r.len) && r.byte (o + i - opOff r.op))

/-- A hardware error strikes a descriptor only in a pass that it runs and in a sector or word that holds a byte it reads (R196). -/
def Chip.strikes (c : Chip) (e : Env) (d : Bytes) (passes : Nat) (rs : List Reader) (x : HwErr) : Bool :=
  match x with
  | .residue p => decide (p < passes)
  | .sramCorrected _ => true
  | .sram p addr => decide (p < max 1 passes) && rs.any (fun r => opSpace r.op == opSpace addr && r.hits (opOff addr / 8 * 8) 8)
  | .sector p s => decide (p < max 1 passes) && rs.any (fun r => opSpace r.op == 3 && r.hits (s.addr / 512 * 512) 512)
  | .basin p addr _ => decide (p < max 1 passes) &&
      (match e.banks.findIdx? (fun b => b == addr / 2 ^ 24) with
       | none => false
       | some i =>
         let o := i * 2 ^ 24 + addr % 2 ^ 24 / 8 * 8
         rs.any (fun r => (opSpace r.op == 2 && r.hits o 8) ||
           (opSpace r.op == 1 && (match e.bshare with | some (b, _) => decide (b ≤ o) && r.hits (o - b) 8 | none => false))))

/-- Everything that a descriptor meets, by pass. -/
def Chip.events (c : Chip) (e : Env) (d : Bytes) (errs : List HwErr) : List (Nat × Event) :=
  let hw := if errs.isEmpty then [] else let rs := c.readers e d; errs.filter (c.strikes e d (descPasses d) rs)
  (c.dataStops e d ++ hw.map (fun x => (hwPass x, Event.hw x))).mergeSort (fun a b => decide (a.1 ≤ b.1))

/-! ### What a save moves (R135, R151, R152) -/

/-- n bytes of the working area that the spec gives no value for (log 7). -/
def Chip.openBytes (c : Chip) (at_ n : Nat) : Bytes := (List.range n).map (fun i => Config.openStore c.draws (at_ + i))

/-- The reduction of a descriptor with what it reads through B and the rows of A. -/
def Chip.reducing (c : Chip) (e : Env) (d : Bytes) : Option (Reduction × (Nat → Nat → Bytes) × (Nat → Nat → List Lane)) :=
  let rd := fun (op k n : Nat) => c.opRead e op k n
  (reductionOf d).map (fun r => (r, rd (dB d), match dOpcode d with
    | 1 => fun _ m => mmRow d (rd (dA d)) m
    | 2 => convRow d false (rd (dA d))
    | _ => convRow d true (rd (dA d))))

/-- The accumulators at the end of the n-th pass, which the working area below the save area holds (R135): none before the first pass and
for an operation without accumulators; those of an ATTEND are open (log 111). -/
def Chip.accumulators (c : Chip) (e : Env) (d : Bytes) (n : Nat) : Bytes :=
  if n = 0 then [] else
  match c.reducing e d with
  | some (r, rdB, row) => r.accumulators rdB row (n - 1)
  | none => if dOpcode d = 8 then c.openBytes 0x10000 (128 * 1024) else []

/-- The working area below the save area takes the accumulators. -/
def Chip.accumulate (e : Env) (d : Bytes) (n : Nat) (c : Chip) : Chip :=
  match e.astore with
  | some (b, size) =>
    let bs := c.accumulators e d n
    if bs.isEmpty then c else c.updSram (fun m => m.write (c.sramAt e.array (b + size - workArea)) bs)
  | none => c

/-- A run of n bytes that begins with the given ones; the spec gives the rest no value. -/
def Chip.padOpen (c : Chip) (at_ n : Nat) (bs : Bytes) : Bytes := bs.take n ++ c.openBytes (at_ + bs.length) (n - bs.length)

/-- The 48 KiB of a save (R152) after n passes: the descriptor, the cursor, codebooks, scales, stationary block, vector registers, ATTEND sums,
resampler. What a weight stream fixes is as it gives it; the cursor's layout and what the units hold of their own are open (log 111). -/
def Chip.saveImage (c : Chip) (e : Env) (d : Bytes) (n : Nat) : Bytes :=
  let held := if n = 0 then none else c.reducing e d
  let part := fun (at_ len : Nat) (f : Reduction → (Nat → Nat → Bytes) → Bytes) =>
    c.padOpen at_ len (match held with | some (r, rdB, _) => f r rdB | none => [])
  let block := fun (r : Reduction) => (r.place (n - 1)).1
  let group := fun (r : Reduction) => (r.through (n - 1) - 1) / r.w.g
  d ++ c.openBytes 0x40 64 ++ zeros (0x400 - 0x80) ++
    part 0x400 1024 (fun r rdB => if r.w.w4 then rdB (r.w.base (block r)) 1024 else []) ++
    part 0x800 256 (fun r rdB => if r.w.w4 then [] else rdB r.w.tagLen 256) ++ zeros (0x1000 - 0x900) ++
    part 0x1000 8192 (fun r rdB => let u := group r / 64; rdB (r.w.spanOff (block r) u) (128 * r.w.gu u)) ++
    part 0x3000 4096 (fun r rdB => r.stationary rdB (n - 1)) ++
    c.openBytes 0x4000 8192 ++ c.openBytes 0x6000 4096 ++ c.openBytes 0x7000 1024 ++ zeros (0xC000 - 0x7400)

/-- A descriptor that transfers 32 KiB chunks and runs no passes. -/
def transfers (d : Bytes) : Bool := dOpcode d == 10

/-- The pass, of a COPY the 32 KiB chunk, at which a descriptor goes on when it is pre-empted before pass n: not beyond its last, nor beyond
the first stop that its data gives, and at the start of an unfinished group (R151, R172, R208). -/
def Chip.resumeAt (c : Chip) (e : Env) (d : Bytes) (n : Nat) : Nat :=
  let last := if transfers d then n else min n (descPasses d - 1)
  let n := (c.dataStops e d).foldl (fun n s => min n s.1) last
  match reductionOf d with
  | some r => r.resume n
  | none => n

end Sys2Proof.Machine
end

