-- ==== Sys2Proof/Machine/Sync.lean ====
section
/-! DEFINITION. Sync objects and the interrupt controller's claims (12_sync_and_interrupts.md). -/

namespace Sys2Proof.Machine

/-! ### Values, marks and watches -/

/-- The value v has reached the target t (R363). -/
def reached (v t : Word) : Bool := decide ((v - t).toNat < 2 ^ 31)

/-- The object, while an allocation covers it (R361, R362). -/
def Chip.obj (c : Chip) (o : Nat) : Option SyncObj := assoc o c.sy.objs

/-- The key of a consumption mark. -/
def markKey (ctx o : Nat) : Nat := ctx * 65536 + o

/-- A context's consumption mark for an object (R368). -/
def Chip.mark (c : Chip) (ctx o : Nat) : Word := (assoc (markKey ctx o) c.sy.marks).getD 0

/-- Set a mark; a mark of 0 is not listed. -/
def SyncCtl.setMark (ctx o : Nat) (m : Word) (y : SyncCtl) : SyncCtl :=
  { y with marks := if m = 0 then assocDel (markKey ctx o) y.marks else assocSet (markKey ctx o) m y.marks }

/-- Every context's mark for an object to 0 (R362, R366). -/
def SyncCtl.clearMarks (o : Nat) (y : SyncCtl) : SyncCtl := { y with marks := y.marks.filter (fun p => p.1 % 65536 != o) }

/-- How often a watch raises for a value: once for each advance of its threshold that the value has reached (R373). With a step
below 2^31 the threshold passes the value after d / step advances; with a larger one it falls back by the step's complement
until the distance is no longer below 2^31. -/
def watchRaisings (v thresh step : Word) : Nat :=
  if !reached v thresh then 0
  else if step = 0 then 1
  else
    let d := (v - thresh).toNat
    if step.toNat < 2 ^ 31 then d / step.toNat + 1 else ceilDiv (2 ^ 31 - d) (2 ^ 32 - step.toNat)

/-- Judge watch i against the value of its object (R373): raise its source, advance the threshold, or disable a one-shot. -/
def Chip.judgeWatch (i : Nat) (c : Chip) : Chip :=
  let w := vget {} c.sy.watch i
  if w.obj.toNat.testBit 31 then
    match c.obj (w.obj.toNat % 65536) with
    | none => c
    | some o =>
      let n := watchRaisings o.value w.thresh w.step
      if n = 0 then c else
      let atLast := w.thresh + BitVec.ofNat 32 ((n - 1) * w.step.toNat)
      let w' := if w.step = 0 then { w with obj := w.obj &&& 0x7FFFFFFF }
        else { w with thresh := w.thresh + BitVec.ofNat 32 (n * w.step.toNat) }
      (c.updSy (fun y => { y with watch := vset y.watch i w' })).raiseN n (512 + i)
        (toLe 4 (w.obj.toNat % 65536) ++ toLe 4 o.value.toNat ++ toLe 4 atLast.toNat ++ toLe 4 0)
  else c

/-- A waiter's target: its context's mark for the object and its amount (R368). -/
def SyncCtl.target (y : SyncCtl) (w : Waiter) : Word := (assoc (markKey w.ctx w.obj) y.marks).getD 0 + w.value

/-- Judge waiters of an object against its value, in the order in which they registered (R364, R368): each one that is satisfied advances its
context's mark to its target. -/
def judgeWaiters (o : Nat) (v : Word) : List Waiter → SyncCtl → List Waiter × SyncCtl
  | [], y => ([], y)
  | w :: ws, y =>
    let hit := w.obj == o && !w.sat && reached v (y.target w)
    let r := judgeWaiters o v ws (if hit then y.setMark w.ctx o (y.target w) else y)
    ((if hit then { w with sat := true } else w) :: r.1, r.2)

/-- Judge the waiters and watches of an object against its value (R364). -/
def Chip.judge (o : Nat) (c : Chip) : Chip :=
  match c.obj o with
  | none => c
  | some x =>
    let c := c.updSy (fun y => let r := judgeWaiters o x.value y.waiters y; { r.2 with waiters := r.1 })
    (List.range 256).foldl (fun c i =>
      if (vget {} c.sy.watch i).obj.toNat % 65536 == o then c.judgeWatch i else c) c

/-- Give an allocated object a value and judge it. -/
def Chip.setObj (o : Nat) (v : Word) (c : Chip) : Chip :=
  match c.obj o with
  | none => c
  | some x => (c.updSy (fun y => { y with objs := assocSet o { x with value := v } y.objs })).judge o

/-- Add to an allocated object, modulo 2^32 (R363, R364). -/
def Chip.addObj (o : Nat) (n : Word) (c : Chip) : Chip :=
  match c.obj o with
  | none => c
  | some x => c.setObj o (x.value + n)

/-- A device signaller adds 1 to an object only when an allocation covers it with the signaller's code (R361). -/
def Chip.deviceSignal (code o : Nat) (c : Chip) : Chip :=
  match c.obj o with
  | some x => if x.signaller = code then c.addObj o 1 else c
  | none => c

/-- A reset of an allocated object: value 0, every mark 0, waiters judged afresh (R366). -/
def Chip.resetObj (o : Nat) (c : Chip) : Chip := (c.updSy (SyncCtl.clearMarks o)).setObj o 0

/-- A refused signal or reset (R365). -/
def Chip.syRefuse (c : Chip) : Chip :=
  (c.updSy (fun y => { y with refused := satInc y.refused })).syErr 1

/-- Who may signal or reset an object through the register block (R365): the host only an object whose signaller is 7, a control
core any allocated object. -/
def syAllowed (who : Master) (x : SyncObj) : Bool :=
  match who with
  | .host => x.signaller == 7
  | .core _ => true
  | .harbourmaster => false

/-- A write to SY_SIGNAL; false is an error response (R365, R383). -/
def Chip.sySignalWrite (who : Master) (v : Word) (c : Chip) : Chip × Bool :=
  let o := v.toNat % 65536
  match c.obj o with
  | none => (c.syRefuse, false)
  | some x =>
    if syAllowed who x then
      (if v.toNat / 65536 = 0 then c else c.addObj o (BitVec.ofNat 32 (v.toNat / 65536)), true)
    else (c.syRefuse, false)

/-- A write to SY_RESET; false is an error response (R365, R366). -/
def Chip.syResetWrite (who : Master) (v : Word) (c : Chip) : Chip × Bool :=
  let o := v.toNat % 65536
  match c.obj o with
  | none => (c.syRefuse, false)
  | some x => if syAllowed who x then (c.resetObj o, true) else (c.syRefuse, false)

/-- A peer's remote signal (R365, R430): allowed on an object whose signaller is 6 or that has the peer flag. -/
def Chip.peerSignal (o : Nat) (n : Word) (c : Chip) : Chip × Bool :=
  match c.obj o with
  | none => (c.syRefuse, false)
  | some x => if x.signaller = 6 || x.peer then (if n = 0 then c else c.addObj o n, true) else (c.syRefuse, false)

/-! ### Waiters (R369 to R371) -/

/-- What remains of a waiter's timeout at a reference time; a paused one keeps what remained (R370). -/
def Waiter.rest (w : Waiter) (now : Nat) : Option Nat := if w.paused then w.left else w.left.map (fun n => n - (now - w.since))

/-- A waiter stops counting, or counts on, from a reference time. -/
def Waiter.hold (now : Nat) (p : Bool) (w : Waiter) : Waiter :=
  if w.paused = p then w else { w with left := w.rest now, since := now, paused := p }

/-- Register a waiter, or leave it to retry when the table is full (R369). A waiter whose object already reached its target is
satisfied at once, and its context's mark advances. -/
def Chip.enterWaiter (w : Waiter) (c : Chip) : Chip :=
  if c.sy.waiters.length < 4096 then
    c.updSy (fun y =>
      let r := match c.obj w.obj with
        | some x => judgeWaiters w.obj x.value [w] y
        | none => ([w], y)
      { r.2 with waiters := y.waiters ++ r.1, peak := max y.peak (y.waiters.length + 1) })
  else (c.updSy (fun y => { y with retry := y.retry ++ [w] })).syErr 0

/-- Entries freed let the retrying WAITs in, in the order in which they reached their queue heads (R369). -/
def Chip.refill (c : Chip) : Chip :=
  let room := 4096 - c.sy.waiters.length
  let go := c.sy.retry.take room
  go.foldl (fun c w => c.enterWaiter w) (c.updSy (fun y => { y with retry := y.retry.drop room }))

/-- Waiters that no longer wait leave the table. -/
def Chip.dropWaiters (p : Waiter → Bool) (c : Chip) : Chip :=
  (c.updSy (fun y => { y with waiters := y.waiters.filter (fun w => !p w)
                              retry := y.retry.filter (fun w => !p w) })).refill

/-! ### Claims (R376 to R379, R385) -/

/-- A source is pending: its counter is not 0 (R375). -/
def IntCtl.pending (ic : IntCtl) (n : Nat) : Bool := vget 0 ic.count n != 0

/-- A source is masked. -/
def IntCtl.masked (ic : IntCtl) (n : Nat) : Bool := (vget 0 ic.mask (n / 32)).toNat.testBit (n % 32)

def IntCtl.routeOf (ic : IntCtl) (n : Nat) : Route := vget ⟨0, 0, false⟩ ic.route n

/-- Of the sources that satisfy a test, the one of the highest priority, ties going to the lower number. -/
def IntCtl.best (ic : IntCtl) (ok : Nat → Bool) : Option Nat :=
  (List.range 1024).foldl (fun b n =>
    if ok n then
      match b with
      | none => some n
      | some m => if (ic.routeOf m).prio < (ic.routeOf n).prio then some n else b
    else b) none

/-- A source qualifies for a target: pending, unmasked, and above the top of the target's stack (R378). -/
def IntCtl.qualifies (ic : IntCtl) (t n : Nat) : Bool :=
  (ic.routeOf n).target == t && ic.pending n && !ic.masked n &&
    (match vget [] ic.stack t with
     | [] => true
     | p :: _ => decide (p < (ic.routeOf n).prio))

/-- The source that a claim of a target would take. -/
def IntCtl.candidate (ic : IntCtl) (t : Nat) : Option Nat := ic.best (ic.qualifies t)

/-- The interrupt line of a target is asserted while some source qualifies. -/
def IntCtl.line (ic : IntCtl) (t : Nat) : Bool := (ic.candidate t).isSome

/-- A write to IC_CLAIM[t] (R378). -/
def IntCtl.claim (t : Nat) (ic : IntCtl) : IntCtl :=
  match ic.candidate t with
  | none => { ic with claimed := vset ic.claimed t 0xFFFF }
  | some n =>
    { ic with
      claimed := vset ic.claimed t (BitVec.ofNat 32 (vget 0 ic.count n * 2 ^ 24 + n))
      count := vset ic.count n 0
      stack := vupd [] ic.stack t (fun st => (ic.routeOf n).prio :: st) }

/-- A write to IC_EOI[t] (R378). -/
def Chip.eoi (t : Nat) (c : Chip) : Chip :=
  match vget [] c.ic.stack t with
  | [] => c.icErr 1
  | _ :: rest => c.updIc (fun ic => { ic with stack := vset ic.stack t rest })

/-- IC_STATUS (R385): the interrupt lines of targets 0 to 4. -/
def IntCtl.status (ic : IntCtl) : Word :=
  BitVec.ofNat 32 ((List.range 5).foldl (fun a t => a + b2n (ic.line t) * 2 ^ t) 0)

/-- A write to IC_SET (R385): a doorbell is raised, any other source sets IC_ERR_STATUS[2]. The doorbell's detail is the block's
status word, IC_STATUS (R381). -/
def Chip.icSet (v : Word) (c : Chip) : Chip :=
  let n := v.toNat % 1024
  if 800 ≤ n && n < 832 then c.raise n (statusDetail c.ic.status) else c.icErr 2

/-- The source whose event the host channel sends next: pending, unmasked, targeted at it, of the highest priority (R380). -/
def IntCtl.nextEvent (ic : IntCtl) : Option Nat :=
  ic.best (fun n => (ic.routeOf n).target == 5 && ic.pending n && !ic.masked n)

end Sys2Proof.Machine
end

