-- ==== Sys2Proof/Machine/Steps.lean ====
section
/-! DEFINITION. Steps: step lists and kernels (R298), the step journal (R506 to R510), what an array takes next (R140, R141), the
states of contexts and the swapper (R306 to R310). -/

namespace Sys2Proof.Machine

/-! ### Step lists and kernels -/

/-- The whole descriptors of a descriptor area from a byte offset on, with their byte offsets. -/
def progDescs (desc : Bytes) (off : Nat) : List (Nat × Bytes) :=
  let ds := (cut 64 (desc.drop off)).filter (fun d => d.length == 64)
  ((List.range ds.length).map (fun i => off + 64 * i)).zip ds

/-- A list up to and with its first STEP_END. -/
def toStepEnd : List (Nat × Bytes) → List (Nat × Bytes)
  | [] => []
  | x :: xs => if dStepEnd x.2 then [x] else x :: toStepEnd xs

/-- The step list that begins at a byte offset of a descriptor area. -/
def stepList (desc : Bytes) (off : Nat) : List (Nat × Bytes) := toStepEnd (progDescs desc off)

/-- A list of descriptors cut after each SIGNAL (R298). -/
def splitKernels : List QDesc → List (List QDesc)
  | [] => []
  | d :: ds =>
    if dOpcode d.bytes = 12 then [d] :: splitKernels ds
    else match splitKernels ds with
      | [] => [[d]]
      | k :: ks => (d :: k) :: ks

/-- Number the SIGNALs of a step in program order (R507). -/
def numberSignals : Nat → List QDesc → List QDesc
  | _, [] => []
  | n, d :: ds => { d with sig := n } :: numberSignals (if dOpcode d.bytes = 12 then n + 1 else n) ds

/-- The objects that a list waits on, each once, in order of first appearance. -/
def waitObjects (ds : List Bytes) : List Nat :=
  (ds.filter (fun d => dOpcode d == 11)).foldl (fun a d =>
    let o := fieldAt (clampDesc d) 0x20 4
    if a.contains o then a else a ++ [o]) []

/-- A plain queued descriptor of a step: its step number written into the step field (R506). -/
def plainDesc (ctx : Nat) (step : Word) (place : Nat) (d : Bytes) : QDesc :=
  { ctx := ctx, step := step, bytes := setField d 4 4 step.toNat, place := place, sig := 0, bound := [none, none, none, none] }

/-! ### The journal -/

/-- The issued step of a number. -/
def Chip.step? (c : Chip) (no : Word) : Option Step := c.tt.steps.find? (fun s => s.no == no)

/-- Change an issued step. -/
def Chip.updStep (no : Word) (f : Step → Step) (c : Chip) : Chip :=
  c.updTt (fun t => { t with steps := t.steps.map (fun s => if s.no == no then f s else s) })

/-- The issued steps of a context. -/
def Chip.stepsOf (c : Chip) (x : Nat) : List Step := c.tt.steps.filter (fun s => s.ctx == x)

/-- The partition's channels in ascending order. -/
def Chip.chans (c : Chip) (p : Nat) : List Nat := match c.partDecl p with | some d => bitList 16 d.chans.toNat | none => []

/-- Where the two copies of a partition's journal lie, as DRAM byte addresses; a lost channel's copy is left out (R336, R509). -/
def Chip.journals (c : Chip) (p : Nat) : List Nat :=
  let all := match c.chans p with
    | [] => []
    | [x] => [(x, 8176), (x, 8184)]
    | x :: y :: _ => [(x, 8176), (y, 8176)]
  (all.filter (fun a => !(c.chan a.1).lost)).map (fun a => dramAt a.1 a.2 0)

/-- Kind and subject of a journal entry (R507). -/
def Subject.fields : Subject → Nat × Nat
  | .frame _ _ j => (0, j)
  | .batch n => (1, n)
  | .vision q f => (2, q.toNat + f * 2 ^ 32)
  | .context e k => (3, e + k % 2 ^ 32 * 2 ^ 32)

/-- A step is one of frame generation. -/
def Subject.isFrame : Subject → Bool
  | .frame _ _ _ => true
  | _ => false

/-- The instant of a frame step. -/
def Subject.instant : Subject → Nat
  | .frame _ _ j => j
  | _ => 0

/-- The mode of a frame-generation step. -/
def Subject.settled : Subject → Bool
  | .frame _ m _ => m
  | _ => false

/-- The signal bitmap of an entry. -/
def sigBytes (sigs : List Nat) : Bytes :=
  (List.range 256).map (fun i => BitVec.ofNat 8 ((List.range 8).foldl (fun a b => a + b2n (sigs.contains (8 * i + b)) * 2 ^ b) 0))

/-- A journal entry of 1,024 bytes (R507). -/
def Step.journal (s : Step) (state : Nat) : Bytes :=
  let (kind, subject) := s.subj.fields
  let flags := b2n s.subj.settled + 2 * b2n s.anchor + 4 * b2n s.parity + 8 * b2n s.jext.isSome
  let binds := (List.range 9).flatMap (fun i => toLe 8 (s.binds.getD i 0))
  let marks := (s.marks.take 64).flatMap (fun m => toLe 4 m.1 ++ toLe 4 m.2.toNat)
  toLe 4 s.no.toNat ++ toLe 1 state ++ toLe 1 s.runs ++ toLe 1 kind ++ toLe 1 s.ctx ++ toLe 8 s.opened ++ toLe 8 subject ++
    toLe 1 flags ++ zeros 7 ++ binds ++ toLe 8 s.gen.toNat ++
    toLe 4 (match s.jext with | some e => 4 * 2 ^ 20 + e * 32768 | none => 0) ++ toLe 2 (s.marks.take 64).length ++
    zeros (0x100 - 0x76) ++ marks ++ zeros (512 - marks.length) ++ sigBytes s.sigs

/-- The batch composition (R507). -/
def Step.composition (s : Step) : Bytes := s.segs.flatMap (fun g => toLe 2 g.slot ++ toLe 2 g.rows ++ toLe 4 g.p0)

/-- Write a step's journal entry, and its extension, to both copies (R509). -/
def Chip.journal (s : Step) (state : Nat) (c : Chip) : Chip :=
  (c.journals s.part).foldl (fun c a =>
    let c := (c.wakeChan (a / 2 ^ 33)).updDram (fun m => m.write (a + s.jent * 1024) (s.journal state))
    match s.jext with
    | some e => c.updDram (fun m => m.write (a + 4 * 2 ^ 20 + e * 32768) s.composition)
    | none => c) c

/-- Write the entry of an issued step as open. -/
def Chip.rejournal (no : Word) (c : Chip) : Chip := match c.step? no with | some s => c.journal s 1 | none => c

/-- The lowest number below a bound that a list does not hold. -/
def lowestFree (bound : Nat) (used : List Nat) : Option Nat := (List.range bound).find? (fun i => !used.contains i)

/-- The steps whose journal entries lie in partition p's journal slots: its own, and those that still run in a partition that an
amendment removed and whose channels p now has (R61, R509). -/
def Chip.journaled (c : Chip) (p : Nat) : List Step :=
  c.tt.steps.filter (fun s => s.part == p || (c.journals s.part).any ((c.journals p).contains ·))

/-- The lowest journal entry of a partition that is not open (R509). -/
def Chip.freeEntry (c : Chip) (p : Nat) : Option Nat := lowestFree 4096 ((c.journaled p).map (·.jent))

/-- The lowest journal extension of a partition that is not in use. -/
def Chip.freeExt (c : Chip) (p : Nat) : Option Nat := lowestFree 128 ((c.journaled p).filterMap (·.jext))

/-- A step can open: an entry is free, and an extension for a batch step (R509; log 42). -/
def Chip.canOpen (c : Chip) (p : Nat) (ext : Bool) : Bool := (c.freeEntry p).isSome && (!ext || (c.freeExt p).isSome)

/-- Issue a step: it takes the next step number and opens its journal entry with the marks of the objects its list waits on (R506,
R507). -/
def Chip.issue (s : Step) (waits : List Nat) (c : Chip) : Chip :=
  let s := { s with
    no := c.tt.stepNo
    opened := c.clk.dev
    jent := (c.freeEntry s.part).getD 0
    jext := if s.segs.isEmpty then none else c.freeExt s.part
    runs := 1
    marks := waits.map (fun o => (o, c.mark s.ctx o)) }
  (c.updTt (fun t => { t with stepNo := t.stepNo + 1, steps := t.steps ++ [s] })).journal s 1

/-- The fields that issue fills in, and those that a kind of step does not use. -/
def blankStep (ctx part : Nat) (be : Bool) (subj : Subject) : Step :=
  { no := 0, ctx := ctx, part := part, be := be, subj := subj, phase := .waiting, opened := 0, jent := 0, jext := none, runs := 1,
    mism := 0, replay := none, marks := [], sigs := [], binds := [], gen := 0, parity := false, anchor := false, discard := false, kind := 0,
    pres := 0, epoch := 0, e := 0, den := 1, a := 0, b := 0, out1 := false, list := 0, budgetEnd := none, segs := [], later := [] }

/-! ### Queues -/

/-- A descriptor of a context waits blocked at the head of a queue (R140, R141). -/
def Chip.blockedIn (c : Chip) (a : Nat) (be : Bool) (x : Nat) : Bool :=
  (c.sy.waiters ++ c.sy.retry).any (fun w => w.array == a && w.be == be && w.ctx == x)

/-- Descriptors that a queue holds: those placed in it that have not completed, with the one in execution and those pre-empted inside
(R157, R299). -/
def Arr.depth (r : Arr) (be : Bool) : Nat :=
  (if be then r.beq.length + r.saved.length else r.lcq.length) + b2n (r.cur.any (fun k => k.be == be))

/-- The queues take what waits for space in them, up to 256 descriptors each (R139, R301). -/
def Arr.fill (r : Arr) : Arr :=
  let l := 256 - r.depth false
  let b := 256 - r.depth true
  { r with
    lcq := r.lcq ++ r.lcTail.take l
    lcTail := r.lcTail.drop l
    beq := r.beq ++ r.beTail.take b
    beTail := r.beTail.drop b }

/-- Descriptors placed on an array that it has not taken, in the order of each queue. -/
def Arr.queued (r : Arr) : List QDesc := r.lcq ++ r.lcTail ++ r.beq ++ r.beTail

/-- The LC queue is runnable: its head is not a blocked WAIT (R141). -/
def Chip.lcRunnable (c : Chip) (a : Nat) : Bool :=
  match (c.arr a).lcq with
  | [] => false
  | d :: _ => !c.blockedIn a false d.ctx

/-- A context's descriptors can run: it is not in transfer and, when best-effort, is resident (R300). -/
def Chip.resident (c : Chip) (x : Nat) : Bool :=
  let k := c.ctx x
  !c.partBe (c.partOf x) || (k.berth.isSome && (k.st == .idle || k.st == .running || k.st == .blocked))

/-- Outstanding peer requests of a context's descriptor on an array. -/
def Chip.awaitsPeer (c : Chip) (a x : Nat) : Bool :=
  (c.pl.reqs ++ c.pl.waitReqs).any (fun r => r.ctx == x && !r.isSignal && r.array == a)

/-- The pre-empted descriptor that the array restores next: the oldest of a resident context that waits for no peer. -/
def Chip.toRestore (c : Chip) (a : Nat) : Option Cur :=
  (c.arr a).saved.find? (fun k => c.resident k.d.ctx && !c.awaitsPeer a k.d.ctx)

/-- Whether a best-effort descriptor can be taken: its context is resident and has no earlier descriptor blocked or unfinished on the
array (R140). -/
def Chip.beReady (c : Chip) (a : Nat) (d : QDesc) : Bool :=
  c.resident d.ctx && !c.blockedIn a true d.ctx && !(c.arr a).saved.any (fun k => k.d.ctx == d.ctx)

/-- Drop the first element that satisfies a test. -/
def dropFirst {α : Type} (p : α → Bool) : List α → List α
  | [] => []
  | x :: xs => if p x then xs else x :: dropFirst p xs

/-- The descriptor in execution can be pre-empted: its work is not done, and it is neither a WAIT nor a SIGNAL (R151). -/
def Cur.preemptible (k : Cur) : Bool := k.be && !k.executed && dOpcode k.d.bytes != 11 && dOpcode k.d.bytes != 12

/-- An array takes a descriptor: at the start of a kernel nothing of space 0 is written by it yet (R301), and another context's line buffer
is lost (R134). -/
def Arr.begin_ (d : QDesc) (r : Arr) : Arr :=
  (if d.head then { r with wrote := assocDel d.ctx r.wrote } else r).switchTo d.ctx

/-- A WAIT's timeout stands still: its context is pre-empted by LC work on the array, or swapped out (R151, R370). -/
def Chip.waitHeld (c : Chip) (w : Waiter) : Bool :=
  !c.resident w.ctx || (w.be && (c.arr w.array).cur.any (fun k => !k.be))

/-- Every waiter counts or stands still as its context does. -/
def Chip.holdWaiters (c : Chip) : Chip :=
  let f := fun (w : Waiter) => w.hold c.clk.ref (c.waitHeld w)
  c.updSy (fun y => { y with waiters := y.waiters.map f, retry := y.retry.map f })

/-- What the array does next (R140, R141): start the LC head, pre-empt running BE work for it or for the swapper, restore a pre-empted
descriptor, or take the oldest BE descriptor that may run. A save or restore that has begun runs on. -/
def Chip.pick (a : Nat) (c : Chip) : Chip :=
  let r := c.arr a
  if r.st == .save || r.st == .restore then c else
  match r.cur with
  | some k =>
    if (c.lcRunnable a || !c.resident k.d.ctx) && k.preemptible then c.updArr a (fun r => { r with st := .save, transfer := some k }) else c
  | none =>
    let start := fun (d : QDesc) (be : Bool) =>
      ({ d := { d with bytes := clampDesc d.bytes }, be := be, executed := false, pass := 0 } : Cur)
    if c.lcRunnable a then
      c.updArr a (fun r =>
        let r := match r.lcq.head? with | some d => r.begin_ d | none => r
        { r with
          cur := r.lcq.head?.map (fun d => start d false)
          lcq := r.lcq.tail
          st := .run })
    else if (c.toRestore a).isSome then c.updArr a (fun r => { r with st := .restore, transfer := c.toRestore a })
    else match r.beq.find? (c.beReady a) with
      | some d => c.updArr a (fun r => { r.begin_ d with
          cur := some (start d true)
          beq := dropFirst (c.beReady a) r.beq
          st := .run })
      | none => c.updArr a (fun r => { r with
          st := if r.lcq.isEmpty && r.beq.isEmpty && r.saved.isEmpty then .idle else .wait })

/-- The array looks for work, its queues filled; waiters that this pre-empts, or lets go on, follow. -/
def Chip.takeNext (a : Nat) (c : Chip) : Chip := ((c.updArr a Arr.fill).pick a).holdWaiters

/-- Every array looks for work. -/
def Chip.takeAll (c : Chip) : Chip := (List.range 32).foldl (fun c a => c.takeNext a) c

/-! ### Contexts (R306 to R310) -/

/-- How each placed descriptor at the front of a context's work on an array stands: true when it waits on a WAIT or a peer. -/
def Chip.fronts (c : Chip) (x : Nat) : List Bool :=
  (List.range 32).filterMap (fun a =>
    let r := c.arr a
    if (r.cur.toList ++ r.saved).any (fun k => k.d.ctx == x) then some (c.awaitsPeer a x)
    else if r.queued.any (fun d => d.ctx == x) then some (c.blockedIn a true x || c.blockedIn a false x)
    else none)

/-- The WAITs of a context that are satisfied. -/
def Chip.hasSat (c : Chip) (x : Nat) : Bool := (c.sy.waiters ++ c.sy.retry).any (fun w => w.ctx == x && w.sat)

/-- A descriptor is a WAIT whose target its object has not reached. -/
def Chip.waitsNow (c : Chip) (d : QDesc) : Bool :=
  let b := clampDesc d.bytes
  dOpcode b == 11 &&
    (let o := fieldAt b 0x20 4
     let v := BitVec.ofNat 32 (fieldAt b 0x24 4)
     v != 0 && (match c.obj o with | some x => !reached x.value (c.mark d.ctx o + v) | none => true))

/-- The first descriptor of the list of a step that is not bound yet. -/
def Chip.firstDesc (c : Chip) (t : Step) : Option QDesc :=
  let desc := match c.ctxProg t.ctx with | some g => g.desc | none => []
  (stepList desc t.list).head?.map (fun x => plainDesc t.ctx t.no x.1 x.2)

/-- A swapped-out context is runnable (R306): it has an issued step whose next kernel begins with no WAIT or with one that is satisfied. The
next kernel is one that waits to be placed, what is left of a placed one, or the first of a frame step that has still to be bound. -/
def Chip.runnable (c : Chip) (x : Nat) : Bool :=
  (c.tt.waiting.filter (fun k => k.ctx == x)).any (fun k => !(k.descs.head?.any c.waitsNow)) ||
    (c.fronts x).any (fun w => !w) || c.hasSat x ||
    (c.stepsOf x).any (fun t => t.phase == .waiting && t.subj.isFrame && !(c.firstDesc t).any c.waitsNow)

/-- A context counts as blocked from its step boundary on: its quantum has expired (R308). -/
def Ctx.expire (now : Nat) (k : Ctx) : Ctx := if k.quantum && !k.yields then { k with yields := true, blockedAt := now } else k

/-- A context changes its state; one whose quantum has expired counts as blocked since its step boundary (R307, R308). -/
def Ctx.enter (st : CtxState) (now : Nat) (k : Ctx) : Ctx := { k with st := st, blockedAt := if k.yields then k.blockedAt else now }

/-- The state of a context after an event (R310), with the moments that R306 and R307 count from. -/
def Chip.reckon (x : Nat) (c : Chip) : Chip :=
  let k := c.ctx x
  let now := c.clk.ref
  let placed := c.fronts x
  let idle := (c.stepsOf x).isEmpty
  match k.st with
  | .idle =>
    if placed.isEmpty then c
    else c.updCtx x (fun k => k.enter (if placed.all (fun w => w) then .blocked else .running) now)
  | .running =>
    if placed.isEmpty then (if idle then c.updCtx x (fun k => k.enter .idle now) else c)
    else if placed.all (fun w => w) then c.updCtx x (fun k => k.enter .blocked now) else c
  | .blocked =>
    if placed.isEmpty then c.updCtx x (fun k => k.enter (if idle then .idle else .running) now)
    else if placed.all (fun w => w) then c else c.updCtx x (fun k => { k with st := .running })
  | .swapped =>
    if c.runnable x then c.updCtx x (fun k => { k with runnableAt := some (k.runnableAt.getD now) })
    else c.updCtx x (fun k => { k with runnableAt := none })
  | _ => c

/-- The berths of a context's partition that it may occupy (R302); none for one that has, or waits for, the bytes of a removed berth. -/
def Chip.mayOccupy (c : Chip) (x : Nat) : List Nat :=
  match (c.ctxDecl x).filter (fun _ => !(c.ctx x).left.any (fun l => l.store.isSome)) with
  | none => []
  | some d =>
    if d.berth < 255 then [d.berth]
    else (c.str.berths.filter (fun b => b.part == d.part &&
      !c.str.ctxs.any (fun y => y.berth == b.id && !c.partBe y.part))).map (·.id)

/-- A resident BE context can be evicted from a berth (R307, R308). -/
def Chip.evictable (c : Chip) (y : Nat) : Bool :=
  let k := c.ctx y
  c.partBe (c.partOf y) && k.progressed && !k.left.any (·.unberthed) &&
    (k.st == .blocked || (k.st == .idle && (c.stepsOf y).isEmpty) || (k.yields && (k.st == .idle || k.st == .running)))

/-- The first of a list by a key, ties to the earlier element. -/
def leastBy {α : Type} (f : α → Nat) (l : List α) : Option α :=
  l.foldl (fun b x => match b with | none => some x | some y => if f x < f y then some x else b) none

/-- A context enters a free berth: its swap-in begins (R305, R306). -/
def Chip.enterBerth (b x : Nat) (c : Chip) : Chip :=
  (c.updBerth b (fun r => { r with occ := some x, xfer := 2, incoming := none })).updCtx x (fun k =>
    { k with st := .swapIn, berth := some b, runnableAt := none, quantum := false, yields := false })

/-- The swapper considers one runnable context (R306, R307). -/
def Chip.consider (x : Nat) (c : Chip) : Chip :=
  let k := c.ctx x
  if k.st != .swapped || k.runnableAt.isNone then c else
  let bs := c.mayOccupy x
  match bs.find? (fun b => (c.berth b).occ.isNone && (c.berth b).xfer == 0) with
  | some b => c.enterBerth b x
  | none =>
    if bs.any (fun b => (c.berth b).incoming == some x) then c else
    let cands := (bs.filterMap (fun b => (c.berth b).occ.bind (fun y =>
      if c.evictable y && (c.berth b).xfer == 0 then some (y, b) else none)))
    match leastBy (fun (p : Nat × Nat) => (c.ctx p.1).blockedAt * 256 + p.1) cands with
    | none => c
    | some (y, b) =>
      ((c.updBerth b (fun r => { r with xfer := 1, incoming := some x })).updCtx y (fun k => { k with st := .swapOut })).takeAll

/-- The contexts that the scheduler works for: those of the structure and those that leave it with steps in flight (R61). -/
def Chip.ctxIds (c : Chip) : List Nat :=
  c.str.ctxs.map (·.id) ++ ((c.tt.steps.map (·.ctx)).filter (fun x => (c.ctx x).leaving && (c.str.ctx x).isNone)).eraseDups

/-- Contexts are reckoned, and swapped-out runnable ones considered, the longest runnable first, ties to the lower id (R306). -/
def Chip.schedule (c : Chip) : Chip :=
  let xs := c.ctxIds
  let c := xs.foldl (fun c x => c.reckon x) c
  let ready := xs.filter (fun x => (c.ctx x).st == .swapped && (c.ctx x).runnableAt.isSome)
  let order := ready.mergeSort (fun x y =>
    let k := fun z => ((c.ctx z).runnableAt.getD 0) * 256 + z
    decide (k x ≤ k y))
  (order.foldl (fun c x => c.consider x) c).holdWaiters

/-- A swapped-out context has become runnable since the scheduler last looked. -/
def Chip.rousable (c : Chip) : Bool :=
  c.ctxIds.any (fun x => (c.ctx x).st == .swapped && (c.ctx x).runnableAt.isNone && c.runnable x)

/-- A signal or a satisfied WAIT lets a swapped-out context enter a free berth at once (R306). -/
def Chip.rouse (c : Chip) : Chip := if c.rousable then c.schedule else c

/-! ### Placing kernels (R298 to R300) -/

/-- A physical array that carries a logical array is retired. -/
def Chip.arrayRetired (c : Chip) (a : Nat) : Bool := c.oc.failed.toNat.testBit (vget {} c.oc.map a).phys

/-- A switched domain is off (R478, R479). -/
def Chip.domainOff (c : Chip) (d : Nat) : Bool := c.pm.off.toNat.testBit d

/-- Logical arrays on which kernels of a partition may be placed: in its effective mask, not draining, not retired, powered (R287,
R316, R317, R478, R481). The arrays of a removed partition carry its steps in flight to their end before they go (R61; log 106). -/
def Chip.openArrays (c : Chip) (p : Nat) : List Nat :=
  (bitList 32 (c.partArrays p).toNat).filter (fun a =>
    (decide (8 ≤ p) || !c.tt.drains.any (fun d => d.array == a)) && !c.arrayRetired a && !c.domainOff (vget {} c.oc.map a).phys)

/-- The array takes a kernel of the class now: its LC queue is empty, or its BE queue holds no descriptor that has not started, a blocked
WAIT having started (R299, R300). -/
def Chip.takesKernel (c : Chip) (be : Bool) (a : Nat) : Bool :=
  let r := c.arr a
  if be then r.beTail.isEmpty && r.beq.all (fun d => c.blockedIn a true d.ctx && decide (r.beq.countP (fun x => x.ctx == d.ctx) = 1))
  else r.lcTail.isEmpty && r.lcq.isEmpty && !(r.cur.any (fun k => !k.be))

/-- Where a kernel goes. -/
def Chip.placeFor (c : Chip) (k : Kernel) : Option Nat :=
  if k.be && !c.resident k.ctx then none else (c.openArrays k.part).find? (c.takesKernel k.be)

/-- The waiting kernel that is placed next in a partition, and where; those of a removed partition go on under its number. -/
def Chip.nextPlacement (c : Chip) (p : Nat) : Option (Kernel × Nat) :=
  (c.tt.waiting.filter (fun k => k.part % 8 == p)).findSome? (fun k => (c.placeFor k).map (fun a => (k, a)))

/-- Make the next kernel of a step eligible. -/
def Chip.advanceKernels (no : Word) (c : Chip) : Chip :=
  match c.step? no with
  | some s => match s.later with
    | [] => c
    | k :: ks => (c.updStep no (fun s => { s with later := ks })).updTt (fun t => { t with waiting := t.waiting ++ [k] })
  | none => c

/-- Place a kernel on an array, whose queue its descriptors enter as far as there is space (R301); the next kernel of its step becomes
eligible. -/
def Chip.place (k : Kernel) (a : Nat) (c : Chip) : Chip :=
  let c := c.updTt (fun t => { t with waiting := dropFirst (fun x => x.step == k.step) t.waiting })
  let c := c.updArr a (fun r => if k.be then { r with beTail := r.beTail ++ k.descs } else { r with lcTail := r.lcTail ++ k.descs })
  (c.advanceKernels k.step).takeNext a

/-- Hand a step's kernels to the scheduler: the first is eligible at once. -/
def Chip.enqueue (no : Word) (ks : List (List QDesc)) (c : Chip) : Chip :=
  match c.step? no with
  | none => c
  | some s =>
    let mark := fun (ds : List QDesc) => match ds with | [] => [] | d :: r => { d with head := true } :: r
    let mk := fun ds => ({ step := no, ctx := s.ctx, part := s.part, be := s.be, descs := mark ds } : Kernel)
    let exps := (ks.flatten.filter (fun d => dOpcode d.bytes == 9 && opSpace (dOut d.bytes) == 5)).map (fun d =>
      ({ ctx := d.ctx, step := no, place := d.place, bytes := clampDesc d.bytes } : ExpRec))
    ((c.updStep no (fun s => { s with phase := .running, later := ks.map mk, expands := exps })).advanceKernels no)

/-- The queued and pre-empted descriptors that a test keeps. -/
def Arr.keep (p : QDesc → Bool) (r : Arr) : Arr :=
  { r with
    lcq := r.lcq.filter p
    beq := r.beq.filter p
    lcTail := r.lcTail.filter p
    beTail := r.beTail.filter p
    saved := r.saved.filter (fun k => p k.d) }

/-- The work of a step leaves every queue, the scheduler and the waiter table (R231, R515, R371); a save or restore that has begun runs to
its end (R141, R152). -/
def Chip.unqueue (no : Word) (c : Chip) : Chip :=
  let mine := fun (d : QDesc) => d.step == no
  let c := c.updTt (fun t => { t with waiting := t.waiting.filter (fun k => k.step != no) })
  let c := c.updOc (fun o => { o with arr := o.arr.map (fun r =>
    { r.keep (fun d => !mine d) with
      st := if r.cur.any (fun k => mine k.d) && r.st == .run then .idle else r.st
      cur := r.cur.filter (fun k => !mine k.d) }) })
  let c := c.updPl (fun p => { p with
    reqs := p.reqs.filter (fun r => r.isSignal || r.step != no)
    waitReqs := p.waitReqs.filter (fun r => r.isSignal || r.step != no) })
  (c.dropWaiters (fun w => w.step == no)).takeAll

/-- A step leaves the device with a final journal state: 2 retired, 3 abandoned, 4 faulted (R507, R511). -/
def Chip.closeStep (no : Word) (state : Nat) (c : Chip) : Chip :=
  match c.step? no with
  | none => c
  | some s =>
    let c := c.journal s state
    (c.updTt (fun t => { t with steps := t.steps.filter (fun s => s.no != no) })).updCtx s.ctx (Ctx.expire c.clk.ref)

/-- Abandon a step: its descriptors leave every queue and its entry becomes abandoned (R231, R236, R511). Outstanding reads of it name
serials that are no longer outstanding. -/
def Chip.abandonStep (no : Word) (c : Chip) : Chip := (c.unqueue no).closeStep no 3

end Sys2Proof.Machine
end

