-- ==== Sys2Proof/Machine/Preempt.lean ====
section
/-! DEFINITION. What a descriptor leaves on an array: the expansion buffer and its re-execution (R205), and pre-emption inside a descriptor
(R151, R152, R172, R208, R215). -/

namespace Sys2Proof.Machine

/-- The header of the descriptor in execution names another context than the one it was placed for (R144). -/
def Cur.misplaced (k : Cur) : Bool := dCtx k.d.bytes != k.d.ctx

/-- Write the pieces of a descriptor. -/
def Chip.writePieces (e : Env) (out : Nat) (ps : List Piece) (c : Chip) : Chip :=
  ps.foldl (fun c p => c.opWrite e out p.off p.bytes) c

/-- What a descriptor that writes the expansion buffer leaves there as its record (R205): an EXPAND that ran to its end is named; one that was
cut short, or a descriptor of another context than the one named, leaves none. -/
def Chip.leaveExp (a : Nat) (k : Cur) (whole : Bool) (c : Chip) : Chip :=
  if opSpace (dOut k.d.bytes) != 5 then c else
  let mine : ExpRec := { ctx := k.d.ctx, step := k.d.step, place := k.d.place, bytes := k.d.bytes }
  let left := fun (x : Option ExpRec) =>
    if dOpcode k.d.bytes = 9 then (if whole then some mine else none) else x.filter (fun y => y.ctx == k.d.ctx)
  c.updArr a (fun r => { r with exp := left r.exp })

/-- The latest EXPAND of a descriptor's step before it in program order, by the program (R205). -/
def Chip.latestExp (c : Chip) (k : Cur) : Option ExpRec :=
  (c.step? k.d.step).bind (fun t => (t.expands.filter (fun y => decide (y.place < k.d.place) && !descNop y.bytes)).getLast?)

/-- A descriptor that reads the expansion buffer finds it as its context's latest EXPAND of the step left it: one that another has replaced, or
that another array ran, is executed again (R205). -/
def Chip.refreshExp (a : Nat) (k : Cur) (c : Chip) : Chip :=
  let reads := (operands k.d.bytes []).any (fun x => !x.1.write && opSpace x.1.op == 5)
  match c.latestExp k with
  | none => c
  | some y =>
    if !reads || (c.arr a).exp == some y then c else
    let e := c.env a k.d
    (c.writePieces e (dOut y.bytes) (c.opPieces e y.bytes)).updArr a (fun r => { r with exp := some y })

/-- A COPY that reads a peer window: its bytes come with responses (R429). -/
def fromPeer (d : Bytes) : Bool := dOpcode d == 10 && (copyGeo d).tr != 3 && opSpace (dA d) == 6

/-- The descriptor runs passes or chunks of its own: it has passed its checks, and it is no no-op. -/
def Chip.runsPasses (c : Chip) (e : Env) (k : Cur) : Bool :=
  !k.misplaced && !descNop k.d.bytes && !fromPeer k.d.bytes && decide (0 < dOpcode k.d.bytes) && decide (dOpcode k.d.bytes < 11) &&
    (c.badOperand e k.d.bytes).isNone

/-- The passes of a descriptor before the one at which a pre-emption stops it have written; what the rest writes stays with the descriptor. A
result in the line buffer or the expansion buffer is written again on resume (R151, R152, R215; log 113). -/
def Chip.leavePasses (a pass : Nat) (k : Cur) (c : Chip) : Chip × Cur :=
  let d := k.d.bytes
  let e := c.env a k.d
  if !c.runsPasses e k then (c, k) else
  let n := max k.pass (c.resumeAt e d pass)
  if n = 0 then (c, k) else
  let c := c.refreshExp a k
  let ps := k.rest.getD (c.opPieces e d)
  let c' := ((c.accumulate e d n).writePieces e (dOut d) (ps.filter (fun p => decide (p.pass < n)))).leaveExp a k false
  (c', { k with pass := n, rest := some (if opSpace (dOut d) < 4 then ps.filter (fun p => decide (n ≤ p.pass)) else ps) })

/-- The save of a descriptor: its passes so far, and the 48 KiB of its context (R152). -/
def Chip.saveOut (a pass : Nat) (k : Cur) (c : Chip) : Chip × Cur :=
  let (c, k) := c.leavePasses a pass k
  let e := c.env a k.d
  let c := match e.astore with
    | some (b, size) => c.updSram (fun m => m.write (c.sramAt a (b + size - 48 * 1024)) (c.saveImage e k.d.bytes k.pass))
    | none => c
  ({ c with draws := c.draws + 1 }, k)

/-- The save of the descriptor in execution, at once: it is set aside. -/
def Chip.saveCur (a pass : Nat) (k : Cur) (c : Chip) : Chip :=
  let (c, k) := c.saveOut a pass k
  c.updArr a (fun r => { r with cur := none, transfer := none, saved := r.saved ++ [k], preempts := satInc r.preempts, st := .idle })

/-- A save ends: the pre-empted descriptor is set aside and the array goes on (R152). pass: its next pass, of a COPY its next chunk. A
descriptor that has left the array meanwhile leaves its save behind. -/
def Chip.saveDone (a pass : Nat) (c : Chip) : Chip :=
  match (c.arr a).cur with
  | some k => ((c.saveCur a pass k).takeNext a).schedule
  | none =>
    let c := match (c.arr a).transfer with | some k => (c.saveOut a 0 k).1 | none => c
    ((c.updArr a (fun r => { r with transfer := none, preempts := satInc r.preempts, st := .idle })).takeNext a).schedule

/-- A restore ends: the pre-empted descriptor that it moved resumes, unless it has left the array or its context the berth meanwhile. -/
def Chip.restoreDone (a : Nat) (c : Chip) : Chip :=
  let back := (c.arr a).transfer.filter (fun k => (c.arr a).saved.contains k && c.resident k.d.ctx)
  let c := c.updArr a (fun r => { r with transfer := none, st := .idle })
  match back with
  | none => (c.takeNext a).schedule
  | some k =>
    ((c.updArr a (fun r =>
      { r.switchTo 256 with cur := some k, saved := dropFirst (fun y => y == k) r.saved, st := .run })).takeNext a).schedule

/-- The work of a context leaves the arrays at once, each descriptor in execution saved. -/
def Chip.setAside (x : Nat) (c : Chip) : Chip :=
  ((List.range 32).foldl (fun (c : Chip) a =>
    match (c.arr a).cur with
    | some k => if k.d.ctx = x && k.preemptible then c.saveCur a k.pass k else c
    | none => c) c).takeAll

end Sys2Proof.Machine
end

