-- ==== Sys2Proof/Machine/Proto.lean ====
section
/-! DEFINITION. QCP frames as the device sends them: headers, responses, event and token frames (R407, R408, R423). -/

namespace Sys2Proof.Machine

/-- A QCP frame after its EtherType (R408). -/
def qcpFrame (type op : Nat) (seq session : Word) (status flags : Nat) (payload : Bytes) : Bytes :=
  [1, BitVec.ofNat 8 type] ++ toLe 2 op ++ toLe 4 seq.toNat ++ toLe 4 session.toNat ++ toLe 2 payload.length ++
    [BitVec.ofNat 8 status, BitVec.ofNat 8 flags] ++ payload

/-- Send a QCP frame from a port. -/
def Chip.sendQcp (etype : Word) (port : Nat) (dst : Mac) (tag : Option (BitVec 16)) (bytes : Bytes) (c : Chip) : Chip :=
  c.send { port := port, dst := dst, tag := tag, etype := BitVec.ofNat 16 etype.toNat, bytes := bytes }

/-- Send an event (type 2) or token (type 3) frame to the session host (R407); false where no session is open. -/
def Chip.sendHost (type : Nat) (seq : Word) (payload : Bytes) (c : Chip) : Chip × Bool :=
  match c.pl.session with
  | none => (c, false)
  | some s => (c.sendQcp c.pl.qcpEtype s.port s.mac s.tag (qcpFrame type 0 seq s.id 0 0 payload), true)

/-- A token frame (R281, R423): it takes the next sequence, is logged among the last 4,096, and is sent while a session is open. An
unsent frame that leaves the log sets PL_ERR_STATUS[5]. -/
def Chip.tokenFrame (payload : Bytes) (c : Chip) : Chip :=
  let seq := c.pl.tokNext
  let (c, sent) := c.sendHost 3 seq payload
  let log := c.pl.tokLog ++ [{ seq := seq, payload := payload, sent := sent }]
  let lost := log.length > 4096 && (log.head?.any (fun f => !f.sent))
  let c := c.updPl (fun p => { p with tokNext := seq + 1, tokLog := log.drop (log.length - 4096) })
  if lost then c.plErr 5 else c

/-! ### PWP frames (R426) and outstanding requests (R429 to R431) -/

/-- A PWP frame after its EtherType. -/
def pwpBytes (type status : Nat) (tag target value length piece : Word) (data : Bytes) : Bytes :=
  [1, BitVec.ofNat 8 type, BitVec.ofNat 8 status, 0] ++ toLe 4 tag.toNat ++ toLe 4 target.toNat ++ toLe 4 value.toNat ++
    toLe 4 length.toNat ++ toLe 4 piece.toNat ++ zeros 8 ++ data

/-- Send a PWP frame to a peer, on its entry's port. -/
def Chip.sendPwp (peer : Nat) (bytes : Bytes) (c : Chip) : Chip :=
  let p := c.peer peer
  c.send { port := p.ctl.toNat % 8, dst := p.mac, tag := none, etype := BitVec.ofNat 16 c.pl.pwpEtype.toNat, bytes := bytes }

/-- A request's frame. -/
def PeerReq.frame (r : PeerReq) : Bytes :=
  pwpBytes (if r.isSignal then 3 else 1) 0 r.tag r.target r.value (BitVec.ofNat 32 (if r.isSignal then 0 else r.length)) 0 []

/-- Room for one more outstanding request to a peer: at most 64 to it and 1,024 in all (R431). -/
def Proto.room (p : Proto) (peer : Nat) : Bool :=
  decide (p.reqs.length < 1024) && decide ((p.reqs.filter (fun r => r.peer == peer)).length < 64)

/-- The tag of a request by its serial (R427). -/
def Chip.tagOf (c : Chip) (x serial : Nat) : Word :=
  BitVec.ofNat 32 (x % 256 * 2 ^ 24 + (c.ctx x).incarnation % 256 * 2 ^ 16 + serial % 65536)

/-- The serial of the next tag: the next one whose tag no outstanding request of the context has. At most 1,024 requests are
outstanding (R431), so one of 1,025 serials is free. -/
def Chip.freeSerial (c : Chip) (x : Nat) : Nat :=
  match (List.range 1025).find? (fun i => c.pl.reqs.all (fun r => r.tag != c.tagOf x (c.pl.serial + i))) with
  | some i => c.pl.serial + i
  | none => c.pl.serial

/-- A request becomes outstanding: it gets its tag, its timeout runs from now, and it is sent. -/
def Chip.askFor (r : PeerReq) (c : Chip) : Chip :=
  let n := c.freeSerial r.ctx
  let r := { r with tag := c.tagOf r.ctx n, sentAt := c.clk.ref }
  (c.updPl (fun p => { p with serial := (n + 1) % 65536, reqs := p.reqs ++ [r] })).sendPwp r.peer r.frame

/-- Waiting requests become outstanding while there is room, oldest first. -/
def Chip.promote (c : Chip) : Chip :=
  c.pl.waitReqs.foldl (fun c r =>
    if c.pl.room r.peer then (c.updPl (fun p => { p with waitReqs := p.waitReqs.filter (fun x => x.id != r.id) })).askFor r
    else c) c

end Sys2Proof.Machine
end

