-- ==== Sys2Proof/Machine/Sha.lean ====
section
/-! DEFINITION. SHA-256 (FIPS 180-4) and RSASSA-PKCS1-v1_5 with SHA-256 over 3,072-bit moduli and exponent 65,537 (R437, R438):
verification; the device identity key, drawn from HMAC_DRBG (NIST SP 800-90A) by FIPS 186-5 A.1.3 (log 8), and signing with it.
A signature "over SHA-256 of" bytes carries that digest (log 40). -/

namespace Sys2Proof.Machine

/-! ### SHA-256 -/

/-- Word i of a number's eight 32-bit words, word 0 the most significant, as a digest is printed. -/
def shaWord (n i : Nat) : Word := BitVec.ofNat 32 (n / 2 ^ (32 * (7 - i)))

/-- The round constants, eight to a number: the first 32 bits of the fractional parts of the cube roots of the first 64 primes. -/
def shaRows : List Nat :=
  [0x428a2f9871374491b5c0fbcfe9b5dba53956c25b59f111f1923f82a4ab1c5ed5,
   0xd807aa9812835b01243185be550c7dc372be5d7480deb1fe9bdc06a7c19bf174,
   0xe49b69c1efbe47860fc19dc6240ca1cc2de92c6f4a7484aa5cb0a9dc76f988da,
   0x983e5152a831c66db00327c8bf597fc7c6e00bf3d5a7914706ca635114292967,
   0x27b70a852e1b21384d2c6dfc53380d13650a7354766a0abb81c2c92e92722c85,
   0xa2bfe8a1a81a664bc24b8b70c76c51a3d192e819d6990624f40e3585106aa070,
   0x19a4c1161e376c082748774c34b0bcb5391c0cb34ed8aa4a5b9cca4f682e6ff3,
   0x748f82ee78a5636f84c878148cc7020890befffaa4506cebbef9a3f7c67178f2]

/-- The constant of round t. -/
def shaConst (t : Nat) : Word := shaWord (shaRows.getD (t / 8) 0) (t % 8)

/-- The hash value before the first block: the same of the square roots of the first eight primes. -/
def shaStart : Hash := 0x6a09e667bb67ae853c6ef372a54ff53a510e527f9b05688c1f83d9ab5be0cd19

/-- The exclusive or of a word turned right by i, turned by j, and a third word made of it. -/
def twist (i j : Nat) (third x : Word) : Word := third ^^^ x.rotateRight i ^^^ x.rotateRight j

/-- The message schedule's window: the last sixteen words, oldest first, move on by one. -/
def shaSlide (w : List Word) : List Word :=
  let x := w.getD 1 0
  let y := w.getD 14 0
  w.drop 1 ++ [w.getD 0 0 + twist 7 18 (x >>> 3) x + w.getD 9 0 + twist 17 19 (y >>> 10) y]

/-- The working words a to h. -/
structure ShaRegs where
  a : Word
  b : Word
  c : Word
  d : Word
  e : Word
  f : Word
  g : Word
  h : Word
  deriving DecidableEq, Repr

/-- A round with its constant and its schedule word: every word moves down by one; the choice of f or g by e and the majority of a, b and c
enter the new e and a. -/
def ShaRegs.turn (r : ShaRegs) (x : Word) : ShaRegs :=
  let up := r.h + x + twist 6 11 (r.e.rotateRight 25) r.e + (r.g ^^^ (r.e &&& (r.f ^^^ r.g)))
  { a := up + twist 2 13 (r.a.rotateRight 22) r.a + ((r.a &&& r.b) ||| (r.c &&& (r.a ||| r.b)))
    b := r.a, c := r.b, d := r.c, e := r.d + up, f := r.e, g := r.f, h := r.g }

/-- n rounds from round t on, sliding the schedule's window. -/
def shaRounds : Nat → Nat → List Word → ShaRegs → ShaRegs
  | 0, _, _, r => r
  | n + 1, t, w, r => shaRounds n (t + 1) (shaSlide w) (r.turn (shaConst t + w.getD 0 0))

/-- One block of sixteen words into the hash value. -/
def shaBlock (h : Hash) (w : List Word) : Hash :=
  let n := h.toNat
  let r := shaRounds 64 0 w ⟨shaWord n 0, shaWord n 1, shaWord n 2, shaWord n 3, shaWord n 4, shaWord n 5, shaWord n 6, shaWord n 7⟩
  (shaWord n 0 + r.a) ++ (shaWord n 1 + r.b) ++ (shaWord n 2 + r.c) ++ (shaWord n 3 + r.d) ++ (shaWord n 4 + r.e) ++
    (shaWord n 5 + r.f) ++ (shaWord n 6 + r.g) ++ (shaWord n 7 + r.h)

/-- A block's sixteen big-endian words. -/
def shaWords (block : Bytes) : List Word := (List.range 16).map (fun i => BitVec.ofNat 32 (beNat (slice block (4 * i) 4)))

/-- n blocks from the front of a padded message into the hash value. -/
def shaBlocks : Nat → Bytes → Hash → Hash
  | 0, _, h => h
  | n + 1, bs, h => shaBlocks n (bs.drop 64) (shaBlock h (shaWords (bs.take 64)))

/-- SHA-256 of a byte string: a 1 bit, zeros to 8 bytes short of a whole block, and the length in bits follow it. -/
def sha256 (m : Bytes) : Hash :=
  let n := (m.length + 72) / 64
  shaBlocks n (m ++ 0x80 :: List.replicate (64 * n - 9 - m.length) 0 ++ toBe 8 (m.length * 8)) shaStart

/-- A digest as its byte string. -/
def hashBytes (h : Hash) : Bytes := toBe 32 h.toNat

/-- The digest a byte string spells. -/
def hashOf (bs : Bytes) : Hash := BitVec.ofNat 256 (beNat (bs.take 32))

/-- A modulus or signature as its octet string. -/
def rsaBytes (r : Rsa) : Bytes := toBe 384 r.toNat

/-- The modulus or signature that an octet string spells. -/
def rsaOf (bs : Bytes) : Rsa := BitVec.ofNat 3072 (beNat (bs.take 384))

/-- Word i of a byte string read through registers (R3): bytes 4i to 4i + 3, little-endian. -/
def hashWord (h : Hash) (i : Nat) : Word := BitVec.ofNat 32 (fieldAt (hashBytes h) (4 * i) 4)

/-! ### RSA -/

/-- Repeated squaring over n bits of an exponent. -/
def powMod (m : Nat) : Nat → Nat → Nat → Nat → Nat
  | 0, _, _, acc => acc
  | n + 1, b, e, acc => powMod m n (b * b % m) (e / 2) (if e % 2 = 1 then acc * b % m else acc)

/-- The DigestInfo header of SHA-256 (RFC 8017). -/
def digestInfo : Bytes :=
  [0x30, 0x31, 0x30, 0x0d, 0x06, 0x09, 0x60, 0x86, 0x48, 0x01, 0x65, 0x03, 0x04, 0x02, 0x01, 0x05, 0x00, 0x04, 0x20]

/-- The EMSA-PKCS1-v1_5 encoding of a digest in 384 octets. -/
def emsa (h : Hash) : Nat := beNat ([0x00, 0x01] ++ List.replicate 330 0xFF ++ [0x00] ++ digestInfo ++ hashBytes h)

/-- A signature over a digest verifies under a modulus with exponent 65,537. -/
def rsaVerify (n : Rsa) (h : Hash) (sig : Rsa) : Bool :=
  decide (sig.toNat < n.toNat) && powMod n.toNat 17 sig.toNat 65537 1 == emsa h

/-! ### The identity key (R438) -/

/-- HMAC with SHA-256 under a key of at most 64 bytes. -/
def hmac256 (key m : Bytes) : Bytes :=
  let pad := fun (b : Byte) => (key ++ List.replicate (64 - key.length) 0).map (· ^^^ b)
  hashBytes (sha256 (pad 0x5c ++ hashBytes (sha256 (pad 0x36 ++ m))))

/-- The working state of HMAC_DRBG. -/
structure Drbg where
  key : Bytes
  v : Bytes
  deriving DecidableEq, Repr

/-- Its update function. -/
def Drbg.mix (data : Bytes) (g : Drbg) : Drbg :=
  let half := fun (mark : Byte) (g : Drbg) =>
    let k := hmac256 g.key (g.v ++ mark :: data)
    ({ key := k, v := hmac256 k g.v } : Drbg)
  if data.isEmpty then half 0 g else half 1 (half 0 g)

/-- It is instantiated with the seed as its entropy. -/
def Drbg.start (seed : Hash) : Drbg :=
  ({ key := List.replicate 32 0, v := List.replicate 32 1 } : Drbg).mix (hashBytes seed ++ Config.idSalt)

/-- n blocks of output. -/
def Drbg.blocks : Nat → Drbg → Bytes × Drbg
  | 0, g => ([], g)
  | n + 1, g =>
    let v := hmac256 g.key g.v
    let (bs, h) := Drbg.blocks n { g with v := v }
    (v ++ bs, h)

/-- 1,536 bits of output as a number, as one request. -/
def Drbg.draw (g : Drbg) : Nat × Drbg :=
  let (bs, g) := g.blocks 6
  (beNat bs, g.mix [])

/-- A prime number. -/
def isPrime (n : Nat) : Bool := decide (2 ≤ n) && (List.range n).all (fun d => decide (d < 2) || n % d != 0)

/-- By Euclid's algorithm on a and b in at most n steps: a number that times the first a is their divisor modulo the first b, where x and y
are such numbers for a and b. -/
def inverseFrom : Nat → Int → Int → Int → Int → Int
  | 0, _, _, x, _ => x
  | n + 1, a, b, x, y => if b = 0 then x else inverseFrom n b (a % b) y (x - a / b * y)

/-- The public exponent. -/
def idE : Nat := 65537

/-- Draw odd candidates of 1,536 bits until one is at least 2^1535 times the square root of 2, is prime, has a predecessor prime to the
exponent, and satisfies a further condition. -/
def primeFrom (ok : Nat → Bool) : Nat → Drbg → Option (Nat × Drbg)
  | 0, _ => none
  | n + 1, g =>
    let (x, g) := g.draw
    let p := x / 2 * 2 + 1
    if decide (2 ^ 3071 ≤ p * p) && Nat.gcd (p - 1) idE == 1 && isPrime p && ok p then some (p, g)
    else primeFrom ok n g

/-- The two primes of a seed: more than 2^1436 apart. -/
def idPrimes (seed : Hash) : Option (Nat × Nat) :=
  (primeFrom (fun _ => true) 15360 (Drbg.start seed)).bind (fun p =>
    (primeFrom (fun q => decide (2 ^ 1436 < p.1 - q) || decide (2 ^ 1436 < q - p.1)) 30720 p.2).map (fun q => (p.1, q.1)))

/-- The modulus and the private exponent of a seed's identity key; zeros where generation fails. -/
def idPair (seed : Hash) : Nat × Nat :=
  match idPrimes seed with
  | none => (0, 0)
  | some (p, q) =>
    let l := Nat.lcm (p - 1) (q - 1)
    (p * q, (inverseFrom 6144 idE l 1 0 % (l : Int)).toNat)

/-- The identity modulus; zeros while no identity seed exists. -/
def Chip.idModulus (c : Chip) : Rsa := match c.id.idSeed with | some s => BitVec.ofNat 3072 (idPair s).1 | none => 0

/-- The identity hash (R437); zeros until the identity key is derived. -/
def Chip.idHash (c : Chip) : Hash := if c.hm.idReady then sha256 (rsaBytes c.idModulus) else 0

/-- Sign a digest with the identity key. -/
def Chip.idSign (h : Hash) (c : Chip) : Rsa :=
  match c.id.idSeed with
  | some s => BitVec.ofNat 3072 (powMod (idPair s).1 3072 (emsa h) (idPair s).2 1)
  | none => 0

end Sys2Proof.Machine
end

