-- ==== Sys2Proof/Machine/Serve.lean ====
section
/-! DEFINITION. The serving step unit's tables: the serving header, KV pools, the ends of queries and their token frames (R253 to R257,
R262, R278 to R281). -/

namespace Sys2Proof.Machine

/-- The serving header (R253). -/
structure SvHdr where
  layers : Nat
  d : Nat
  h : Nat
  hkv : Nat
  fvis : Nat
  source : Nat
  vocab : Nat
  dm : Nat
  rcap : Nat
  batch : Nat
  vlist : Nat
  nvt : Nat
  vw : Nat
  vh : Nat
  vfmt : Nat
  vmax : Nat
  slots : Nat
  kv : Nat
  table : Nat
  vision : Nat
  stepObj : Nat
  x : Nat
  q : Nat
  o : Nat
  knew : Nat
  vnew : Nat
  stack : Nat
  hid : Nat
  sin : Nat
  logits : Nat
  vin : Nat
  emb : Nat
  deriving DecidableEq, Repr

/-- Read a serving header; a field outside its range reads as the nearest legal value (R44, R253). -/
def svHdrOf (b : Bytes) : SvHdr :=
  { layers := clampNat 1 255 (fieldAt b 2 1), d := nearestSize [32, 64, 128] (fieldAt b 3 1), h := clampNat 1 128 (fieldAt b 4 1),
    hkv := clampNat 1 128 (fieldAt b 5 1), fvis := clampNat 0 7 (fieldAt b 6 1), source := enc 1 (fieldAt b 7 1),
    vocab := clampNat 1 262144 (fieldAt b 8 4), dm := clampNat 64 16384 (nearestMul 64 (fieldAt b 0x0C 2)),
    rcap := clampNat 64 4096 (fieldAt b 0x0E 2), batch := fieldAt b 0x10 4, vlist := fieldAt b 0x14 4,
    nvt := clampNat 1 4096 (fieldAt b 0x18 2), vw := fieldAt b 0x1A 2, vh := fieldAt b 0x1C 2, vfmt := clampNat 0 1 (fieldAt b 0x1E 1),
    vmax := clampNat 0 32768 (fieldAt b 0x20 4), slots := clampNat 1 1024 (fieldAt b 0x24 2), kv := fieldAt b 0x26 2,
    table := fieldAt b 0x28 2, vision := fieldAt b 0x2A 2, stepObj := fieldAt b 0x2C 4, x := fieldAt b 0x30 8,
    q := fieldAt b 0x38 8, o := fieldAt b 0x40 8, knew := fieldAt b 0x48 8, vnew := fieldAt b 0x50 8, stack := fieldAt b 0x58 8,
    hid := fieldAt b 0x60 8, sin := fieldAt b 0x68 8, logits := fieldAt b 0x70 8, vin := fieldAt b 0x78 8,
    emb := clampNat 0 7 (fieldAt b 0x80 1) }

/-- A step list that a serving header names, at its byte offset; one that would begin inside the 160 bytes of the header, which the unit
never enqueues, is absent (R253; log 104). -/
def servingList (desc : Bytes) (off : Nat) : List (Nat × Bytes) := if off < 160 then [] else stepList desc off

/-- Bytes of a KV page (R255). -/
def SvHdr.page (s : SvHdr) : Nat := roundUp (256 * s.hkv * s.d * 4) 4096

/-- The serving header of a context whose program has kind 2 (R252). -/
def Structure.svHdr (s : Structure) (x : Nat) : Option SvHdr :=
  (s.ctxProg x).bind (fun p => if p.kind = 2 then some (svHdrOf p.desc) else none)

/-- The header as the device uses it: of the program that the context's steps were issued under while it leaves (R61). -/
def Chip.svHdr (c : Chip) (x : Nat) : Option SvHdr := (c.ctxProg x).bind (fun p => if p.kind = 2 then some (svHdrOf p.desc) else none)

/-- The device address of a region declaration, and its bytes. -/
def Structure.regionAt (s : Structure) (id : Nat) : Nat × Nat :=
  match s.region id with | some r => (r.first * 2 ^ 20, r.count * 2 ^ 20) | none => (0, 0)

/-- Blocks of a KV pool (R255). -/
def Structure.poolBlocks (s : Structure) (h : SvHdr) : Nat := (s.regionAt h.kv).2 / (h.layers * h.page)

/-- Text rows of a query's prompt: its token ids that are no placeholders (R258, R270). -/
def Query.textRows (q : Query) : Nat := (q.tokens.filter (fun t => decide (t < 0xFFFFFF00))).length

/-- The KV blocks that R257 reserves for a query. -/
def reserveOf (h : SvHdr) (q : Query) : Nat :=
  let text := q.textRows
  let vis := if q.tokens.any (fun t => decide (0xFFFFFF00 ≤ t)) then h.vmax else 0
  ceilDiv (min 32768 (text + vis + q.maxNew)) 256

/-- Sequences whose context shares a KV pool. -/
def Chip.poolSeqs (c : Chip) (kv : Nat) : List Seq := c.sv.seqs.filter (fun s => (c.svHdr s.q.ctx).any (fun h => h.kv == kv))

/-- Unreserved blocks of a pool. -/
def Chip.poolFree (c : Chip) (h : SvHdr) : Nat := c.str.poolBlocks h - (c.poolSeqs h.kv).foldl (fun a s => a + s.reserved) 0

/-- The blocks of a pool that a query reserves: the lowest that no sequence has reserved (R257; log 130). -/
def Chip.reserveBlocks (c : Chip) (h : SvHdr) (q : Query) : List Nat :=
  let used := (c.poolSeqs h.kv).flatMap (fun s => s.spare ++ s.blocks)
  ((List.range (c.str.poolBlocks h)).filter (fun b => !used.contains b)).take (reserveOf h q)

/-- A program's identity (R41): SHA-256 of its entry followed by the hashes of its weight sets. -/
def Structure.progHash (s : Structure) (p : ProgramDecl) : Hash :=
  sha256 (p.raw ++ p.sets.flatMap (fun w => hashBytes (match s.weight w with | some d => d.hash | none => 0)))

/-- The program hash of a context. -/
def Chip.ctxHash (c : Chip) (x : Nat) : Hash := match c.ctxProg x with | some p => c.str.progHash p | none => 0

/-- A value that the spec leaves open (log 7). -/
def Chip.open_ (c : Chip) : Word × Chip := (Config.openWord c.draws, { c with draws := c.draws + 1 })

/-- What a token or final frame carries (R281). -/
structure TokInfo where
  query : Word
  ctx : Nat
  /-- Token index and token, where it carries one. -/
  tok : Option (Nat × Nat)
  /-- FINAL: reason and detail. -/
  fin : Option (Nat × Nat)
  vframes : Nat
  rows : Nat
  /-- The batch step's number; a frame of no batch step leaves the field open (log 7). -/
  step : Option Word
  deriving DecidableEq, Repr

/-- Send a token or final frame. -/
def Chip.sendToken (i : TokInfo) (c : Chip) : Chip :=
  let (o1, c) := c.open_
  let (o2, c) := c.open_
  let idx := match i.tok with | some t => t.1 | none => o1.toNat % 65536
  let count := b2n i.tok.isSome
  let step := match i.step with | some w => w.toNat | none => o2.toNat
  let (r, d) := i.fin.getD (0, 0)
  let payload := toLe 4 i.query.toNat ++ toLe 2 idx ++ toLe 1 count ++ toLe 1 (b2n i.fin.isSome) ++ toLe 1 r ++ toLe 1 d ++
    toLe 2 i.vframes ++ toLe 4 i.rows ++ toLe 8 c.clk.dev ++ toLe 8 step ++ hashBytes (c.ctxHash i.ctx) ++
    (match i.tok with | some t => toLe 4 t.2 | none => [])
  let c := c.updSv (fun v => { v with tokens := sat64 (v.tokens + count) })
  c.tokenFrame payload

/-- SV_ERR_STATUS for an ending: CLIP sets bit 1, FAULT and ABORTED bit 2. -/
def Chip.endingErr (reason : Nat) (c : Chip) : Chip :=
  if reason = 7 then c.svErr 1 else if reason = 5 ∨ reason = 6 then c.svErr 2 else c

/-- A query that holds no sequence entry ends (R262, R279, R280). Its prompt has its text rows, the clips not having been resolved (R281; log
132). -/
def Chip.endQuery (q : Query) (reason detail : Nat) (c : Chip) : Chip :=
  (c.sendToken { query := q.id, ctx := q.ctx, tok := none, fin := some (reason, detail), vframes := 0, rows := q.textRows,
                 step := none }).endingErr reason

/-- A sequence leaves the table; its blocks return to the pool with it (R257). -/
def Chip.dropSeq (entry : Nat) (c : Chip) : Chip :=
  c.updSv (fun v => { v with seqs := v.seqs.filter (fun s => s.entry != entry) })

/-- A sequence ends with no token (R265, R279, R280). -/
def Chip.endSeq (s : Seq) (reason detail : Nat) (step : Option Word) (c : Chip) : Chip :=
  ((c.dropSeq s.entry).sendToken { query := s.q.id, ctx := s.q.ctx, tok := none, fin := some (reason, detail),
                                   vframes := s.frames.length, rows := s.rows, step := step }).endingErr reason

/-- Every query of the contexts that a test names ends with a reason (R280). -/
def Chip.endQueries (p : Nat → Bool) (reason : Nat) (c : Chip) : Chip :=
  let seqs := c.sv.seqs.filter (fun s => p s.q.ctx)
  let qs := c.sv.queue.filter (fun q => p q.ctx)
  let c := c.updSv (fun v => { v with queue := v.queue.filter (fun q => !p q.ctx) })
  let c := seqs.foldl (fun c s => c.endSeq s reason 0 none) c
  qs.foldl (fun c q => c.endQuery q reason 0) c

/-- Some issued step works for a sequence. -/
def Chip.seqBusy (c : Chip) (s : Seq) : Bool :=
  c.tt.steps.any (fun t =>
    t.ctx == s.q.ctx && (match t.subj with
      | .batch _ => t.segs.any (fun g => g.seq == s.entry)
      | .vision q _ => q == s.q.id
      | _ => false))

/-- A cancel (R279): a queued query ends at once, a sequence when its running step completes, at once when none runs. A staged query
is discarded (R259). -/
def Chip.cancelQuery (id : Word) (c : Chip) : Chip :=
  match c.sv.seqs.find? (fun s => s.q.id == id) with
  | some s =>
    if c.seqBusy s then c.updSv (fun v => { v with seqs := v.seqs.map (fun t =>
      if t.entry == s.entry then { t with cancel := true, st := .ending } else t) })
    else c.endSeq s 4 0 none
  | none =>
    match c.sv.queue.find? (fun q => q.id == id) with
    | some q => (c.updSv (fun v => { v with queue := v.queue.filter (fun q => q.id != id) })).endQuery q 4 0
    | none => c

/-- Discard a staged query (R259). -/
def Chip.dropStaged (id : Word) (c : Chip) : Chip :=
  c.updSv (fun v => { v with staged := v.staged.filter (fun q => q.id != id) })

end Sys2Proof.Machine
end

