-- ==== Sys2Proof/Machine/Teardown.lean ====
section
/-! DEFINITION. Context teardown and faults (R150, R311), partition resets (R313, R314), the retirement of arrays (R127, R316) and the
request for a replay (R514). -/

namespace Sys2Proof.Machine

/-! ### Shares -/

/-- Zero-fill n bytes of the array store of a logical array. -/
def Chip.clearStore (a o n : Nat) (c : Chip) : Chip := c.updSram (fun m => m.clear (c.sramAt a o) n)

/-- The logical arrays on which a partition's berth shares lie: its effective mask. -/
def Chip.shareArrays (c : Chip) (p : Nat) : List Nat := bitList 32 (c.partArrays p).toNat

/-- Zero-fill a berth's share: on every array of its partition and in the Basin (R304, R311). -/
def Chip.zeroShare (b : Nat) (c : Chip) : Chip :=
  match c.str.berth b with
  | none => c
  | some d =>
    let c := match c.placed d.part 4 b with
      | some p => (c.shareArrays d.part).foldl (fun (c : Chip) a => c.clearStore a p.off p.size) c
      | none => c
    match c.placed d.part 3 b with
    | some p => c.basinClear (c.banks d.part) p.off p.size
    | none => c

/-! ### Teardown (R311) -/

/-- A context is torn down: its steps are abandoned, the one that faulted is marked so; its waiters leave the table; its peer requests
are orphaned and its incarnation advances (R427); its packs write nothing more (R236); its berth is freed and its share
zero-filled, after a transfer in progress has ended; its queries end with FAULT (R280). code is the fault, none for a teardown
without one. -/
def Chip.teardown (x : Nat) (code : Option Nat) (step : Option Word) (c : Chip) : Chip :=
  let k := c.ctx x
  if k.st == .absent || k.st == .faulted then c else
  let c := (c.stepsOf x).foldl (fun c s => (c.unqueue s.no).closeStep s.no (if some s.no == step then 4 else 3)) c
  let c := c.dropWaiters (fun w => w.ctx == x)
  let c := c.updPl (fun p => { p with
    reqs := p.reqs.filter (fun r => r.ctx != x)
    waitReqs := p.waitReqs.filter (fun r => r.ctx != x) })
  let c := c.updFg (fun g => { g with packs := g.packs.filter (fun p => p.ctx != x) })
  let moving := !k.left.any (·.unberthed) && k.berth.any (fun b => (c.berth b).xfer != 0)
  let c := match k.berth.filter (fun _ => !k.left.any (·.unberthed)) with
    | some b => if moving then c else (c.zeroShare b).updBerth b (fun r => { r with occ := none })
    | none => c
  let c := c.updCtx x (fun k => { k with
    st := .faulted
    berth := if moving then k.berth else none
    fault := code.getD k.fault
    incarnation := (k.incarnation + 1) % 256
    runnableAt := none
    progressed := true
    quantum := false
    yields := false
    fresh := true })
  ((c.endQueries (fun y => y == x) 5).ttErr 4).promote.takeAll.schedule

/-- The bit of AR_ERR_STATUS and OC_ERR_STATUS that a fault code sets (R155). -/
def faultBit (code : Nat) : Nat := match code with | 5 => 4 | 6 => 2 | 7 => 1 | 8 => 3 | _ => 0

/-- Record an error of a descriptor on an array: AR_ERR_INFO, AR_ERR_ADDR, the status bits, source 771 (R150, R185). -/
def Chip.arrayErr (a bit code opcode ctx : Nat) (addr : Nat) (c : Chip) : Chip :=
  (c.updArr a (fun r => { r with
    err := setBit r.err bit
    errInfo := BitVec.ofNat 32 (code * 2 ^ 24 + opcode * 2 ^ 16 + ctx)
    errAddr := BitVec.ofNat 64 addr })).ocErr bit a

/-- A fault of a context at a descriptor (R150): recorded with the address of R549, and the context torn down. -/
def Chip.fault (a code opcode ctx : Nat) (addr : Nat) (step : Word) (c : Chip) : Chip :=
  (c.arrayErr a (faultBit code) code opcode ctx addr).teardown ctx (some code) (some step)

/-- A fault of a context outside an array (R347, R517, R548). -/
def Chip.ctxFault (ctx code : Nat) (c : Chip) : Chip := c.teardown ctx (some code) none

/-- A fault of a context for which R150 gives no code: the recorded code is open (log 7). -/
def Chip.openFault (ctx : Nat) (c : Chip) : Chip :=
  let (w, c) := c.open_
  c.teardown ctx (some (w.toNat % 256)) none

/-! ### Partition reset (R313, R314) -/

/-- The streams whose frame-generation context belongs to a partition. -/
def Chip.streamsOf (c : Chip) (p : Nat) : List StreamDecl := c.str.active.filter (fun s => c.partOf s.ctx == p)

/-- An engine drops its jobs of some streams, the running one included when stop says so (R102). -/
def Engine.drop (p : Nat → Bool) (stop : Bool) (e : Engine) : Engine :=
  { e with
    q := e.q.filter (fun j => !p j.stream)
    run := if stop then e.run.filter (fun j => !p j.stream) else e.run }

/-- Reset a partition: every context torn down, its jobs stopped, its banks and array stores zero-filled; it returns to service at the
next boundary. Left frames that wait for their right view are no jobs yet and go on waiting until then (log 120). -/
def Chip.partReset (p : Nat) (c : Chip) : Chip :=
  if (c.str.part p).isNone then c else
  let xs := (c.str.ctxs.filter (fun d => d.part == p)).map (·.id)
  let bs := (c.str.berths.filter (fun b => b.part == p)).map (·.id)
  let c := bs.foldl (fun c b => c.updBerth b (fun r => { r with xfer := 0, incoming := none })) c
  let c := xs.foldl (fun c x => c.teardown x none none) c
  let c := bs.foldl (fun c b => c.updBerth b (fun r => { r with occ := none })) c
  let c := xs.foldl (fun c x => c.updCtx x (fun k => { k with berth := none })) c
  let mine := fun s => (c.streamsOf p).any (fun d => d.idx == s)
  let c := (c.updMe (fun m => { m with eng := m.eng.drop mine true })).updSd (fun m => { m with eng := m.eng.drop mine true })
  let c := c.basinClear (c.banks p) 0 ((c.banks p).length * 2 ^ 24)
  let c := (c.shareArrays p).foldl (fun (c : Chip) a => c.clearStore a 0 lineBuf) c
  (c.updTt (fun t => { t with pst := vset t.pst p .reset })).ttErr 3

/-! ### Retired arrays (R127, R128, R316) -/

/-- Ask for a replay of a step, with what the limit gives (R514). -/
def Chip.askReplay (no : Word) (r : Replay) (c : Chip) : Chip := c.updStep no (fun s => { s with replay := some r })

/-- The spare that takes over next: the lowest-numbered physical array that is neither fused off, retired, mapped nor promised. -/
def Chip.spare (c : Chip) : Option Nat :=
  (List.range 34).find? (fun p =>
    !c.id.arrayFused.toNat.testBit p && !c.oc.failed.toNat.testBit p &&
      !(List.range 32).any (fun n =>
        let m := vget {} c.oc.map n
        (m.valid && m.phys == p) || (m.pending && m.nextPhys == p)))

/-- Retire the physical array under a logical array: no kernel is placed on it, its steps are replayed elsewhere, and the lowest spare
is promised for the next boundary. code and addr: of the error that retires it, which the limit gives to each of those steps (R514). -/
def Chip.retire (a code addr : Nat) (c : Chip) : Chip :=
  let m := vget {} c.oc.map a
  if c.oc.failed.toNat.testBit m.phys then c else
  let r := c.arr a
  let work := (r.cur.toList ++ r.saved).map (·.d) ++ r.queued
  let c := c.updOc (fun o => { o with failed := o.failed ||| BitVec.ofNat 34 (2 ^ m.phys) })
  let c := match c.spare with
    | some p => c.updMap a (fun m => { m with pending := true, nextPhys := p })
    | none => c
  (work.reverse.foldl (fun (c : Chip) d => c.askReplay d.step { code := code, array := a, opcode := dOpcode d.bytes, addr := addr }) c).ocErr 5 a

/-- A step may be replayed again: at most twice for all causes together (R186). -/
def Step.mayReplay (s : Step) : Bool := decide (s.runs < 3)

end Sys2Proof.Machine
end

