-- ==== Sys2Proof/Machine/MemErr.lean ====
section
/-! DEFINITION. Memory errors: DRAM sectors (R348 to R352), channels lost, Basin words (R332 to R334). -/

namespace Sys2Proof.Machine

/-! ### DRAM -/

/-- A bit of MC_ERR_STATUS with the recorded error as its detail. -/
def Chip.mcEvt (b : Nat) (c : Chip) : Chip := c.mcErr b c.mc.errInfo c.mc.errAddr c.mc.errStep

/-- A corrected sector: counted; it raises the memory source only with CORR_EVT (R348, R355). -/
def Chip.mcCorrected (ch : Nat) (c : Chip) : Chip :=
  let c := c.updChan ch (fun h => { h with corr := satInc h.corr })
  if c.mc.ctl.toNat.testBit 0 then c.mcEvt 0 else c.updMc (fun m => { m with err := setBit m.err 0 })

/-- The contexts whose structure names a region declaration (R352). -/
def Structure.naming (s : Structure) (decl : Nat) : List Nat :=
  (s.ctxs.filter (fun x =>
    s.streams.any (fun t => t.active && t.ctx == x.id &&
      (t.evid == decl || t.liveRing == decl || t.setRing == decl || t.analysis == decl)) ||
    (match s.prog x.prog with
      | some p => p.sets.any (fun w => (s.weight w).any (fun d => d.region == decl))
      | none => false) ||
    ((s.svHdr x.id).any (fun h => h.kv == decl || h.table == decl || h.vision == decl)) ||
    decl == 3840 + x.id)).map (·.id)

/-- Change every entry of the region table. -/
def Chip.mapTable (f : Entry → Entry) (c : Chip) : Chip :=
  c.updMc (fun m => { m with table := m.table.map (fun p => (p.1, f p.2)) })

/-- A channel is lost (R351, R352): its entries lose their copies, contexts naming newly withdrawn entries fault. -/
def Chip.loseChannel (ch cause : Nat) (c : Chip) : Chip :=
  if (c.chan ch).lost then c else
  let hit := fun (e : Entry) => { e with plost := e.plost || e.pch == ch, rlost := e.rlost || (e.repl && e.rch == ch) }
  let newly := (c.mc.table.filter (fun p => !p.2.withdrawn && (hit p.2).withdrawn)).map (fun p => p.2.decl)
  let xs := (newly.eraseDups.flatMap c.str.naming).eraseDups
  let c := (c.updChan ch (fun h => { h with lost := true, cause := cause, trained := false })).mapTable hit
  let c := c.mcEvt 5
  let c := if newly.isEmpty then c else c.mcEvt 3
  xs.foldl (fun c x => c.ctxFault x 3) c

/-- Retire a slot (R349, R350), and log it in MC_BAD_SLOTS and MC_BAD_LIST. -/
def Channel.retire (slot : Nat) (h : Channel) : Channel :=
  if h.bad.contains slot then h else
  { h with
    bad := h.bad ++ [slot]
    badCount := BitVec.ofNat 32 (min 256 (h.bad.length + 1))
    badList := if h.bad.length < 256 then assocSet h.bad.length (BitVec.ofNat 32 (2 ^ 31 + slot)) h.badList else h.badList }

/-- A channel that meets a limit of R351 is lost. -/
def Chip.checkChannel (ch : Nat) (c : Chip) : Chip :=
  let h := c.chan ch
  let recent := h.failAt.filter (fun t => decide (c.clk.ref - t.2 ≤ 1000000000))
  if 16 < recent.length then c.loseChannel ch 4
  else if 256 ≤ h.bad.length then c.loseChannel ch 5
  else c

/-- Count a sector of a slot that failed all three reads; R351 counts each sector once. -/
def Chip.uncorr (ch slot addr : Nat) (c : Chip) : Chip :=
  let sec := slot * 2048 + addr % 2 ^ 20 / 512
  c.updChan ch (fun h => { h with
    uncorr := satInc h.uncorr
    failAt := h.failAt.filter (fun t => t.1 != sec && decide (c.clk.ref - t.2 ≤ 1000000000)) ++ [(sec, c.clk.ref)] })

/-- Record the last uncorrectable sector (MC_ERR_ADDR, MC_ERR_INFO, MC_ERR_STEP). -/
def Chip.recordSector (r : Requester) (ctx ch outcome addr : Nat) (step : Word) (c : Chip) : Chip :=
  c.updMc (fun m => { m with
    errAddr := addr / 512 * 512
    errInfo := BitVec.ofNat 32 (r.code * 2 ^ 24 + ctx * 2 ^ 16 + ch * 2 ^ 12 + outcome * 2 ^ 8 + 0xFF)
    errStep := step })

/-- Replace one entry of the region table. -/
def Chip.setEntry (i : Nat) (e : Entry) (c : Chip) : Chip := c.updMc (fun m => { m with table := assocSet i e m.table })

/-- What a sector decode does (R348 to R350): no more than 8 symbols are corrected (R337); true when the read fails to its requester. -/
def Chip.sector (r : Requester) (ctx : Nat) (step : Word) (e : SectorErr) (c : Chip) : Chip × Bool :=
  let i := e.addr / 2 ^ 20
  match c.entry i with
  | none => (c, false)
  | some t =>
    if t.withdrawn then (c, false) else
    let (ch, slot) := if t.plost then (t.rch, t.rslot) else (t.pch, t.pslot)
    if !e.fails && e.symbols ≤ 8 then (if e.symbols = 0 then c else c.mcCorrected ch, false) else
    let c := c.uncorr ch slot e.addr
    if t.repl && !t.plost && !t.rlost && !e.replicaFails then
      let sec := e.addr % 2 ^ 20 / 512
      let c := (c.recordSector r ctx ch 0 e.addr step).mcEvt 1
      let h := c.chan ch
      let again := h.rewritten.any (fun x => x.1 == slot && x.2.1 == sec && decide (c.clk.ref - x.2.2 ≤ 1000000000))
      let c := if again then
          (((c.updChan ch (Channel.retire slot)).setEntry i { t with plost := true }).mcEvt 4)
        else c.updChan ch (fun h => { h with
          rewritten := h.rewritten.filter (fun x => x.1 != slot || x.2.1 != sec) ++ [(slot, sec, c.clk.ref)] })
      (c.checkChannel ch, false)
    else
      let c := if t.repl && !t.plost && !t.rlost then c.uncorr t.rch t.rslot e.addr else c
      let c := c.recordSector r ctx ch (if t.repl then 1 else 2) e.addr step
      let c := c.updChan t.pch (Channel.retire t.pslot)
      let c := if t.repl then c.updChan t.rch (Channel.retire t.rslot) else c
      let c := c.setEntry i { t with plost := true, rlost := t.repl }
      let c := ((c.mcEvt 2).mcEvt 3).mcEvt 4
      let c := c.checkChannel t.pch
      (if t.repl then c.checkChannel t.rch else c, true)

/-- A read of n bytes meets the sector errors of the command that lie in them: its channels leave their low-power states (R354), each
error has its effect once; true when a sector of it failed. -/
def Chip.readSectors (r : Requester) (ctx : Nat) (step : Word) (a n : Nat) (c : Chip) : Chip × Option Nat :=
  let here := fun (e : SectorErr) => decide (a < e.addr / 512 * 512 + 512) && decide (e.addr / 512 * 512 < a + n)
  let errs := c.met.filter here
  errs.foldl (fun (x : Chip × Option Nat) e =>
    let (c, failed) := x.1.sector r ctx step e
    (c, if failed then x.2.or (some (max a (e.addr / 512 * 512))) else x.2)) ({ (c.touch false a n) with met := c.met.filter (fun e => !here e) }, none)

/-- A read of DRAM for a context by the Quay, an engine, the sequencer or the serving step unit: the bytes, or none where it is refused,
which faults the context with code 0x03 (R347). The retry of a failed read meets a withdrawn entry, so it is refused too (R349). What an error
on the way costs the context, a channel with a region it names (R352), ends the read as well. -/
def Chip.readFor (r : Requester) (ctx : Nat) (step : Word) (a n : Nat) (c : Chip) : Chip × Option Bytes :=
  let refused := fun (v : Nat × Nat) (c : Chip) => ((c.recordViol r ctx v.1 v.2 step).ctxFault ctx 3, (none : Option Bytes))
  match c.refusal (.ctx ctx) false a n with
  | some v => refused v c
  | none =>
    match c.readSectors r ctx step a n with
    | (c, some at_) => refused (2, at_) c
    | (c, none) => (c, if (c.ctx ctx).st == .faulted then none else some (c.dramRead a n))

/-- A read of DRAM by the device itself (R548): the bytes, or none where it is refused or fails, which is recorded. -/
def Chip.readOwn (r : Requester) (ctx : Nat) (a n : Nat) (c : Chip) : Chip × Option Bytes :=
  match c.refusal .device false a n with
  | some v => (c.recordViol r ctx v.1 v.2 noStep, none)
  | none =>
    match c.readSectors r ctx noStep a n with
    | (c, some at_) => (c.recordViol r ctx 2 at_ noStep, none)
    | (c, none) => (c, some (c.dramRead a n))

/-- A requester for which R357 names no code: any of the codes, open (log 109). -/
def Chip.openRequester (c : Chip) : Requester × Chip :=
  let (w, c) := c.open_
  (.other (w.toNat % 13), c)

/-! ### The Basin -/

/-- The partition that owns a bank; 255 for none. -/
def Chip.bankOwner (c : Chip) (b : Nat) : Nat :=
  match c.str.parts.find? (fun p => p.banks.toNat.testBit b) with | some p => p.id | none => 255

/-- The intake lies in bank 31 while no structure is applied (R22). -/
def Chip.intakeBank (c : Chip) (b : Nat) : Bool := c.cfg.applied.isNone && b == 31

/-- The area of a Basin byte by R360, and the berth whose share holds it. -/
def Chip.areaOf (c : Chip) (addr : Nat) : Nat × Nat :=
  let b := addr / 2 ^ 24
  let p := c.bankOwner b
  if p = 255 then (if c.intakeBank b then 4 else 5, 0) else
  match (c.banks p).findIdx? (fun k => k == b) with
  | none => (5, 0)
  | some k =>
    let o := k * 2 ^ 24 + addr % 2 ^ 24
    match c.tt.layout.find? (fun x => x.part == p && x.kind != 4 && decide (x.off ≤ o) && decide (o < x.off + x.size)) with
    | some x => (if x.kind = 0 then 0 else if x.kind = 3 then 2 else 1, x.id)
    | none => (3, 0)

/-- A bit of BS_ERR_STATUS with the recorded error as its detail. -/
def Chip.bsEvt (b : Nat) (c : Chip) : Chip := c.bsErr b c.bs.errInfo c.bs.errAddr c.bs.errStep

/-- A Basin word that was corrected, or whose second read recovered (R332). -/
def Chip.bsCorrected (addr : Nat) (c : Chip) : Chip :=
  let c := c.updBank (addr / 2 ^ 24) (fun k => { k with corr := satInc k.corr })
  if c.bs.ctl.toNat.testBit 0 then c.bsEvt 0 else c.updBs (fun m => { m with err := setBit m.err 0 })

/-- A word fails uncorrectably: one that was rewritten within the last second is stuck (R334). -/
def Chip.noteFailed (addr : Nat) (c : Chip) : Chip :=
  let w := addr / 8 * 8
  c.updBank (addr / 2 ^ 24) (fun k =>
    let stuck := k.failed.any (fun f => f.1 == w && f.2.any (fun t => decide (c.clk.ref - t ≤ 1000000000)))
    { k with
      failed := k.failed.filter (fun f => f.1 != w) ++ [(w, none)]
      stuck := if stuck && !k.stuck.contains w then k.stuck ++ [w] else k.stuck })

/-- A failed Basin read is recorded: BS_ERR_ADDR, BS_ERR_INFO, BS_ERR_STEP, BS_ERR_STATUS[1] (R332). -/
def Chip.basinFail (r : Requester) (ctx : Nat) (step : Word) (addr : Nat) (c : Chip) : Chip :=
  let info := r.code * 2 ^ 24 + ctx * 2 ^ 16 + c.bankOwner (addr / 2 ^ 24) * 2 ^ 8 + (c.areaOf addr).1
  ((c.updBs (fun m => { m with errAddr := addr / 8 * 8, errInfo := BitVec.ofNat 32 info, errStep := step })).noteFailed addr).bsEvt 1

/-- What follows when a requester's retries are exhausted (R333): the context that owns the share faults, or the partition resets. -/
def Chip.basinOutcome (addr : Nat) (c : Chip) : Chip :=
  let (area, id) := c.areaOf addr
  if area = 2 then
    match (c.berth id).occ with
    | some x => (c.openFault x).bsEvt 4
    | none => c
  else if area < 4 then (c.partReset (c.bankOwner (addr / 2 ^ 24))).bsEvt 3
  else c

/-- Stuck words are remapped at a boundary (R334): a spare row takes each, which then reads 0; a bank with none left keeps it. -/
def Chip.remapRows (c : Chip) : Chip :=
  (List.range 32).foldl (fun c b =>
    (vget {} c.bs.bank b).stuck.foldl (fun c w =>
      if (vget {} c.bs.bank b).spares < 32 then
        ((c.updBank b (fun k => { k with
            spares := k.spares + 1
            stuck := k.stuck.filter (fun x => x != w)
            failed := k.failed.filter (fun f => f.1 != w) })).updBasin (fun m => m.clear w 8)).bsEvt 5
      else (c.updBank b (fun k => { k with stuck := k.stuck.filter (fun x => x != w) })).bsEvt 6) c) c

end Sys2Proof.Machine
end

