-- ==== Sys2Proof/Machine/Instants.lean ====
section
/-! DEFINITION. Instants of frame generation: presentation times, designated inputs, brackets, rings and slots, the frames a stream
holds, and when a Basin slot is released (R216 to R219, R234, R242). -/

namespace Sys2Proof.Machine

/-- The frame-generation header (R222). -/
structure FgHdr where
  fUnpack : Nat
  fPix : Nat
  obs : Nat
  ext : Nat
  intp : Nat
  state : Nat
  inA : Nat
  inB : Nat
  out0 : Nat
  out1 : Nat
  param : Nat
  inBytes : Nat
  outBytes : Nat
  allow : Nat
  warm : Nat
  gap : Nat
  fAux : Nat
  dither : Bool
  deriving DecidableEq, Repr

/-- Read a frame-generation header; a field outside its range reads as the nearest legal value (R7, R46, R222), the state bytes as the
nearest multiple of 64 (log 16). -/
def fgHdrOf (b : Bytes) : FgHdr :=
  { fUnpack := clampNat 0 7 (fieldAt b 2 1), fPix := clampNat 0 15 (fieldAt b 3 1), obs := fieldAt b 4 4, ext := fieldAt b 8 4,
    intp := fieldAt b 0x0C 4, state := min 0xFFFFFFC0 (nearestMul 64 (fieldAt b 0x10 4)), inA := fieldAt b 0x14 4, inB := fieldAt b 0x18 4,
    out0 := fieldAt b 0x1C 4, out1 := fieldAt b 0x20 4, param := fieldAt b 0x24 4, inBytes := fieldAt b 0x28 4,
    outBytes := fieldAt b 0x2C 4, allow := fieldAt b 0x30 2, warm := fieldAt b 0x32 1, gap := max 1 (fieldAt b 0x33 1),
    fAux := clampNat 0 15 (fieldAt b 0x34 1), dither := (fieldAt b 0x35 1).testBit 0 }

/-- The frame-generation header that serves a stream. -/
def Structure.fgHdr (s : Structure) (d : StreamDecl) : FgHdr :=
  match s.ctxProg d.ctx with | some p => fgHdrOf p.desc | none => fgHdrOf []

/-- The header as the device uses it: of the program that the context's steps were issued under while it leaves (R61). -/
def Chip.fgHdr (c : Chip) (d : StreamDecl) : FgHdr :=
  match c.ctxProg d.ctx with | some p => fgHdrOf p.desc | none => fgHdrOf []

/-! ### Frames -/

/-- Bytes of a frame: three planes, or luma only (R80). -/
def StreamDecl.frameBytes (d : StreamDecl) : Nat := if d.fmt = 1 then d.w * d.h else d.w * d.h + d.w * d.h / 2

/-- Bytes of a frame slot (R328), which are also those of an evidence entry (R90). -/
def StreamDecl.slotBytes (d : StreamDecl) : Nat := 4096 + roundUp d.frameBytes 4096

/-- Line units of a frame (R84). -/
def StreamDecl.units (d : StreamDecl) : Nat := if d.fmt = 1 then d.h else d.h / 2

/-- The input period in nanoseconds, rounded down. -/
def StreamDecl.period (d : StreamDecl) : Nat := 1000000000 / max 1 d.fps

/-- The space-2 offset of a frame slot of a stream. -/
def Chip.frameSlot (c : Chip) (d : StreamDecl) (slot : Nat) : Nat :=
  match c.placed (c.partOf d.ctx) 0 (3 * d.idx + slot) with | some p => p.off | none => 0

/-- The banks that hold a stream's frames. -/
def Chip.streamBanks (c : Chip) (d : StreamDecl) : List Nat := c.banks (c.partOf d.ctx)

/-- A frame of a stream closed since its last Quay cold start, by counter. -/
def Chip.rec? (c : Chip) (s counter : Nat) : Option FrameRec := (c.stream s).hist.find? (fun f => f.counter == counter)

/-- A closed frame that still lies in a Basin slot, by counter. -/
def Chip.held? (c : Chip) (s counter : Nat) : Option ClosedFrame := (c.stream s).frames.find? (fun f => f.counter == counter)

/-! ### Presentation and designation -/

/-- floor(k · 10^9 / (fps · T)) for an offset of k instants. -/
def StreamDecl.instantNs (d : StreamDecl) (k : Int) : Int := k * 1000000000 / ((d.fps * d.tm : Nat) : Int)

/-- pres(j) (R216). -/
def StreamDecl.pres (d : StreamDecl) (settled : Bool) (ref : Nat × Nat) (j : Nat) : Nat :=
  let k : Int := (j : Int) - ref.1 * d.tm
  (if settled then (ref.2 : Int) + d.instantNs (k + d.tm) + 20000000 else (ref.2 : Int) + d.instantNs k + d.dlive * 1000000).toNat

/-- X of R217, in nanoseconds. -/
def StreamDecl.lag (d : StreamDecl) (h : FgHdr) : Int := (h.allow : Int) * 1000 - d.dlive * 1000000 + 6000000

/-- n(j) (R217). -/
def StreamDecl.designated (d : StreamDecl) (h : FgHdr) (c0 j : Nat) : Int :=
  (c0 : Int) + ((((j : Int) - c0 * d.tm) * 1000000000 - d.lag h * d.fps * d.tm) / ((d.tm : Int) * 1000000000))

/-- The least j at or after k instants of nanoseconds from the reference. -/
def StreamDecl.instantFrom (d : StreamDecl) (c0 : Nat) (ns : Int) : Nat :=
  let k : Int := -((-(ns * d.fps * d.tm)) / 1000000000)
  ((c0 : Int) * d.tm + k).toNat

/-- The first LIVE instant after a cold start (R219): the least j that the reference frame or a later one serves and whose
presentation lies at least 6 ms after the reference frame's close. -/
def StreamDecl.firstLive (d : StreamDecl) (h : FgHdr) (ref : Nat × Nat) (close : Nat) : Nat :=
  max (d.instantFrom ref.1 (d.lag h)) (d.instantFrom ref.1 ((close : Int) + 6000000 - ref.2 - d.dlive * 1000000))

/-- LIVE instant j is its frame's anchor (R221). -/
def StreamDecl.anchor (d : StreamDecl) (h : FgHdr) (c0 j : Nat) : Bool :=
  j = 0 || d.designated h c0 (j - 1) != d.designated h c0 j

/-! ### Modes -/

/-- A mode of a stream. -/
def Chip.mode (c : Chip) (s : Nat) (settled : Bool) : FgMode := if settled then (c.fgs s).settled else (c.fgs s).live

/-- Change a mode of a stream. -/
def Chip.updMode (s : Nat) (settled : Bool) (f : FgMode → FgMode) : Chip → Chip :=
  Chip.updFgs s (fun g => if settled then { g with settled := f g.settled } else { g with live := f g.live })

/-- A LIVE instant is written. -/
def FgMode.written (m : FgMode) (j : Nat) : Bool := decide (j < m.next) || m.ahead.contains j

/-- Move past the instants written in a row. -/
def settleNext : Nat → Nat → List Nat → Nat × List Nat
  | 0, n, l => (n, l)
  | k + 1, n, l => if l.contains n then settleNext k (n + 1) (l.filter (fun x => x != n)) else (n, l)

/-- Note a LIVE instant as written. -/
def FgMode.note (j : Nat) (m : FgMode) : FgMode :=
  if m.written j then m else
  let (n, l) := settleNext (m.ahead.length + 1) m.next (m.ahead ++ [j])
  { m with next := n, ahead := l, issued := m.issued.filter (fun x => decide (n ≤ x)) }

/-- The earliest LIVE instant at or after j that satisfies a test, among the next n. -/
def findFrom (p : Nat → Bool) : Nat → Nat → Option Nat
  | 0, _ => none
  | n + 1, j => if p j then some j else findFrom p n (j + 1)

/-- Every weight set that a context's program names is sealed (R42, R43). -/
def Chip.ctxSealed (c : Chip) (x : Nat) : Bool :=
  match c.ctxProg x with
  | some p => p.sets.all (fun w => c.cfg.sealedSets.contains w)
  | none => false

/-- Issued steps of a context run to completion, with their replays, whether or not its weight sets are sealed: it is not absent, faulted
or restarting, and its partition is in service (R43, R61, R236). -/
def Chip.ctxRuns (c : Chip) (x : Nat) : Bool :=
  let k := c.ctx x
  k.st != .absent && k.st != .faulted && k.st != .restarting && c.partRuns (c.partOf x)

/-- The instants of a context's streams are written: its steps run, and its weight sets are sealed unless it leaves (R42, R43, R61). -/
def Chip.ctxAlive (c : Chip) (x : Nat) : Bool := c.ctxRuns x && ((c.ctx x).leaving || c.ctxSealed x)

/-- Steps of a context may be issued: it runs and does not leave (R61). -/
def Chip.ctxRunnable (c : Chip) (x : Nat) : Bool := c.ctxAlive x && !(c.ctx x).leaving

/-! ### Rings and slots (R239 to R243) -/

/-- Sizes of an output slot. -/
structure SlotGeo where
  wo : Nat
  ho : Nat
  luma : Nat
  chroma : Nat
  prov : Nat
  deriving DecidableEq, Repr

def StreamDecl.slotGeo (d : StreamDecl) : SlotGeo :=
  let wo := d.w * d.sc
  let ho := d.h * d.sc
  let row := ceilDiv wo 4 * 5
  { wo := wo, ho := ho, luma := ho * row, chroma := ho / 2 * row, prov := ceilDiv ho 16 * ceilDiv wo 16 }

def SlotGeo.chromaAt (g : SlotGeo) : Nat := 4096 + roundUp g.luma 4096
def SlotGeo.provAt (g : SlotGeo) : Nat := g.chromaAt + roundUp g.chroma 4096
def SlotGeo.size (g : SlotGeo) : Nat := g.provAt + roundUp g.prov 4096

/-- The device address and slots of a mode's ring (R242). -/
def Chip.ring (c : Chip) (d : StreamDecl) (settled : Bool) : Nat × Nat :=
  let (a, n) := c.str.regionAt (if settled then d.setRing else d.liveRing)
  (a, n / d.slotGeo.size)

/-- The device address of the slot of instant j. -/
def Chip.slotAt (c : Chip) (d : StreamDecl) (settled : Bool) (j : Nat) : Nat :=
  let (a, n) := c.ring d settled
  a + j % max 1 n * d.slotGeo.size

/-! ### The analysis region (R104, R119, R120) -/

/-- Blocks per row and block rows of a motion field. -/
def StreamDecl.motionDims (d : StreamDecl) : Nat × Nat := (ceilDiv d.w 8, ceilDiv d.h 8)

/-- M: bytes of a motion-field entry. -/
def StreamDecl.motionBytes (d : StreamDecl) : Nat := roundUp (64 + 4 * (d.motionDims.1 * d.motionDims.2)) 4096

/-- Entry offset of the info plane of a disparity map. -/
def StreamDecl.infoAt (d : StreamDecl) : Nat := 4096 + roundUp (2 * (d.w * d.h)) 4096

/-- D: bytes of a disparity entry. -/
def StreamDecl.dispBytes (d : StreamDecl) : Nat := d.infoAt + roundUp (d.w * d.h) 4096

/-- Device address of a motion-field entry. -/
def Chip.motionAt (c : Chip) (d : StreamDecl) (closeIdx : Nat) : Nat :=
  (c.str.regionAt d.analysis).1 + closeIdx % 4 * d.motionBytes

/-- Device address of a disparity entry of a left view. -/
def Chip.dispAt (c : Chip) (d : StreamDecl) (closeIdx : Nat) : Nat :=
  (c.str.regionAt d.analysis).1 + 4 * d.motionBytes + closeIdx % 4 * d.dispBytes

/-- The left view of a stream's pair, none outside a pair (R110). -/
def Chip.leftView (c : Chip) (d : StreamDecl) : Option StreamDecl :=
  if d.partner = 255 then none else if d.idx < d.partner then some d else c.str.stream d.partner

/-! ### When a Basin slot is released (R80, R101, R234) -/

/-- Two records are of one frame of a stream. -/
def ClosedFrame.same (f g : ClosedFrame) : Bool := f.slot == g.slot && f.close == g.close && f.closeIdx == g.closeIdx

/-- A motion or disparity job or an evidence copy still reads a frame of a stream (R101). -/
def Chip.jobReads (c : Chip) (s : Nat) (f : ClosedFrame) : Bool :=
  (c.me.eng.run.toList ++ c.me.eng.q).any (fun j => j.stream == s && (j.frame.same f || j.ref.any f.same)) ||
  (c.sd.eng.run.toList ++ c.sd.eng.q).any (fun j => (j.stream == s && j.frame.same f) || j.right.any (fun g => g.1 == s && g.2.same f)) ||
  c.qy.copies.any (fun k => k.stream == s && k.frame.same f)

/-- The LIVE instant of a stream from which on instants can still bind frames: the earliest unwritten one that is not being packed, or an
anchor that waits for the journal. -/
def Chip.liveFrom (c : Chip) (d : StreamDecl) : Nat :=
  let m := c.mode d.idx false
  let packed := fun (j : Nat) => c.fg.packs.any (fun p => p.stream == d.idx && !p.settled && p.j == j && p.epoch == m.epoch)
  m.late.foldl min ((findFrom (fun j => !m.written j && !packed j) (m.ahead.length + c.fg.packs.length + 1) m.next).getD m.next)

/-- An instant that is not yet issued can bind the frame with a counter: SETTLED, a bracket of a period not yet issued, or the last closed
frame; LIVE, from the frame before the designated one of the first instant that can. -/
def Chip.needed (c : Chip) (d : StreamDecl) (n : Nat) : Bool :=
  let q := c.stream d.idx
  let newest := q.hist.getLast?.any (fun r => r.counter == n)
  let set := d.settled && (newest || (c.mode d.idx true).periods.any (fun p => n == p.c || n == p.c + p.m))
  let live := d.live && (match (c.mode d.idx false).ref with
    | none => newest
    | some r =>
      let n0 := d.designated (c.fgHdr d) r.1 (c.liveFrom d)
      let prev := (q.hist.filter (fun h => decide ((h.counter : Int) < n0))).getLast?
      decide (n0 ≤ (n : Int)) || prev.any (fun h => h.counter == n))
  set || live

/-- A step of a stream whose network has not completed binds the frame with a counter. -/
def Chip.stepBinds (c : Chip) (s n : Nat) : Bool :=
  c.tt.steps.any (fun t => match t.subj with | .frame x _ _ => x == s && (t.a == n || t.b == n) | _ => false)

/-- The right view of a pair binds the disparity map of a frame of its left view, or can still: the map whose right counter names one of its
frames, the most recent one for a frame that none names, or one that a running step has bound (R224, R234). -/
def Chip.mapNeeded (c : Chip) (l : StreamDecl) (f : ClosedFrame) : Bool :=
  match (c.str.stream l.partner).filter (fun r => l.partner != 255 && decide (l.idx < r.idx)) with
  | none => false
  | some r =>
    let uses := fun (n : Nat) => c.needed r n || c.stepBinds r.idx n
    let pair := c.sd.maps.filter (fun m => m.left == l.idx)
    let bare := fun (g : ClosedFrame) => uses g.counter && !pair.any (fun m => m.rightCtr == some g.counter)
    pair.any (fun m => m.closeIdx == f.closeIdx && m.rightCtr.any uses) ||
    (pair.getLast?.any (fun m => m.closeIdx == f.closeIdx) && (c.stream r.idx).frames.any bare) ||
    c.tt.steps.any (fun t => (match t.subj with | .frame x _ _ => x == r.idx | _ => false) &&
      ((t.binds.drop 3).take 2).contains (opAt 3 (c.dispAt l f.closeIdx)))

/-- A step, engine job or evidence copy still reads a frame, or its left view's frame waits for the right one. -/
def Chip.reads (c : Chip) (d : StreamDecl) (f : ClosedFrame) : Bool :=
  c.stepBinds d.idx f.counter || c.jobReads d.idx f || c.sd.await.any (fun a => a.1 == d.idx && a.2 == f.closeIdx) || !f.evidDone

/-- The slot of a closed frame is released. -/
def Chip.released (c : Chip) (d : StreamDecl) (f : ClosedFrame) : Bool := !c.needed d f.counter && !c.mapNeeded d f && !c.reads d f

end Sys2Proof.Machine
end

