-- ==== Sys2Proof/Machine/Ledger.lean ====
section
/-! DEFINITION. The Relty ledger: its region, records, marker records, checkpoints and the genesis (R454 to R463). -/

namespace Sys2Proof.Machine

/-- The applied ledger region: declaration 3,839 (R454). -/
def Chip.lgRegion (c : Chip) : Option RegionDecl := c.str.region 3839

/-- Records of the record ring, 0 while no region is applied (R455, LG_RING_RECORDS). -/
def Chip.lgRecords (c : Chip) : Nat := match c.lgRegion with | some r => (r.count - 1) * 2 ^ 20 / 64 | none => 0

/-- Write an item to the ledger region; a refused or failed write is kept to be written again, and the first write of an item that is refused
or fails sets LG_ERR_STATUS[0] (R463, R548). An item that is no whole sector is written into the sector that its write reads, which can
fail (log 136). -/
def Chip.lgWrite (first failed : Bool) (off : Nat) (bs : Bytes) (c : Chip) : Chip :=
  match c.lgRegion with
  | none => c
  | some r =>
    let a := r.first * 2 ^ 20 + off
    let keep := fun (c : Chip) =>
      let c := c.updLg (fun l => { l with rewrite := l.rewrite.filter (fun x => x.1 != off) ++ [(off, bs)] })
      if first then c.lgErr 0 else c
    match c.refusal .device true a bs.length with
    | some v => keep (c.recordViol .ledger 0xFF v.1 v.2 noStep)
    | none =>
      let (c, bad) := if bs.length % 512 = 0 then (c, none) else c.readSectors .ledger 0xFF noStep a bs.length
      if failed || bad.isSome then keep c
      else (c.updLg (fun l => { l with rewrite := l.rewrite.filter (fun x => x.1 != off) })).dramWrite a bs

/-- Extend the chain by a record and write it to the ring. -/
def Chip.lgChain (rec : Bytes) (c : Chip) : Chip :=
  let off := 2 ^ 20 + c.lg.index % c.lgRecords * 64
  (c.updLg (fun l => { l with head := sha256 (hashBytes l.head ++ rec), index := l.index + 1 })).lgWrite true false off rec

/-- Append a record of 64 bytes (R458): nothing while no region is applied or no chain is begun (log 41). -/
def Chip.lgAppend (rec : Bytes) (c : Chip) : Chip :=
  if c.lgRecords = 0 || !c.lg.started then c else (c.updLg (fun l => { l with moment := none })).lgChain rec

/-- Append the record of a slot, its order its stream index and mode: the records of slots that complete at one moment stand in ascending
stream index, LIVE before SETTLED (R458; log 137). -/
def Chip.lgAppendSlot (order : Nat) (rec : Bytes) (c : Chip) : Chip :=
  if c.lgRecords = 0 || !c.lg.started then c else
  let m : LgMoment := match c.lg.moment with
    | some m => if m.at_ = c.clk.ref then m else { at_ := c.clk.ref, head := c.lg.head, index := c.lg.index, recs := [] }
    | none => { at_ := c.clk.ref, head := c.lg.head, index := c.lg.index, recs := [] }
  let early := m.recs.filter (fun x => x.1 ≤ order)
  let late := m.recs.filter (fun x => order < x.1)
  let c := if late.isEmpty then c else
    c.updLg (fun l => { l with
      index := m.index + early.length
      head := early.foldl (fun h x => sha256 (hashBytes h ++ x.2)) m.head })
  (((order, rec) :: late).foldl (fun (c : Chip) x => c.lgChain x.2) c).updLg (fun l => { l with
    moment := some { m with recs := early ++ (order, rec) :: late } })

/-- A marker record (R459). -/
def Chip.markerBytes (c : Chip) (cause : Nat) : Bytes :=
  toLe 1 0xFF ++ toLe 1 cause ++ List.replicate 6 0 ++ toLe 8 c.str.serial ++ toLe 8 c.clk.dev ++ List.replicate 8 0 ++
    (hashBytes c.cfg.storeHash).take 16 ++ (hashBytes c.hm.fwHash).take 16

/-- Append a marker record and set LG_ERR_STATUS[2]. -/
def Chip.marker (cause : Nat) (c : Chip) : Chip :=
  if c.lgRecords = 0 || !c.lg.started then c else (c.lgAppend (c.markerBytes cause)).lgErr 2

/-! ### Checkpoints (R460 to R462) -/

/-- QY_TIME_STATUS.STATE. -/
def timeCode : TimeState → Nat
  | .free => 0
  | .sync => 1
  | .holdover => 2

/-- Bytes 0x000 to 0x07F of a checkpoint. -/
def Ckpt.body (k : Ckpt) : Bytes :=
  toLe 4 0x59544C52 ++ toLe 2 1 ++ toLe 2 k.flags ++ toLe 8 k.q ++ toLe 8 k.time ++ toLe 8 k.first ++ toLe 4 k.count ++
    toLe 1 k.state ++ List.replicate 3 0 ++ hashBytes k.head ++ toLe 8 k.serial ++ toLe 4 k.bootCount.toNat ++
    toLe 4 k.fwVersion.toNat ++ hashBytes k.storeHash ++ List.replicate 8 0

/-- The first record index that the next checkpoint covers. -/
def Ledger.nextFirst (l : Ledger) : Nat :=
  match l.signing.getLast? with
  | some k => k.first + k.count
  | none => if l.ckpts = 0 then 0 else l.ckptFirst + l.ckptCount

/-- Close a checkpoint with given flags: its fields as they stand. -/
def Chip.closeCkpt (flags : Nat) (c : Chip) : Chip :=
  let c := c.updLg (fun l => { l with closedAt := some c.clk.ref, moment := none })
  if c.hm.debug then c.lgErr 1 else
  let first := c.lg.nextFirst
  let k : Ckpt := { q := c.lg.ckpts + c.lg.signing.length, flags := flags, time := c.clk.dev, first := first,
                    count := c.lg.index - first, state := timeCode c.qy.tst, head := c.lg.head, serial := c.str.serial,
                    bootCount := c.hm.bootCount, fwVersion := c.hm.fwVersion, storeHash := c.cfg.storeHash }
  c.updLg (fun l => { l with signing := l.signing ++ [k], flags := 0 })

/-- Sign and write the oldest closed checkpoint (R460); a debug unlock refuses the signature (R453). -/
def Chip.writeCkpt (failed : Bool) (c : Chip) : Chip :=
  match c.lg.signing with
  | [] => c
  | k :: rest =>
    let c := c.updLg (fun l => { l with signing := rest })
    if c.hm.debug then c.lgErr 1 else
    let sig := c.idSign (sha256 k.body)
    let c := c.updLg (fun l => { l with
      ckpts := k.q + 1
      ckptHead := k.head
      ckptTime := k.time
      ckptFirst := k.first
      ckptCount := k.count
      genesis := l.genesis || k.q == 0 })
    c.lgWrite true failed (k.q % 2048 * 512) (k.body ++ rsaBytes sig)

/-- The genesis (R461): the chain head from the random source, and checkpoint 0. It waits for a passing source (R439) and a ledger region;
the checkpoint waits for the identity key. -/
def Chip.genesis (c : Chip) : Chip :=
  if c.lg.started || c.lgRecords = 0 || !c.hm.rngOk then c else
  let (h, c) := c.draw 32
  let c := c.updLg (fun l => { l with head := hashOf h, started := true })
  let c := c.closeCkpt (1 + c.lg.flags / 2 % 4 * 2)
  if c.hm.idReady then c.writeCkpt false else c

/-- What warm reset and sleep entry do to the ledger (R462): a checkpoint not yet written is discarded, the flag of the next one is
set (1 warm reset, 2 sleep); LG_ERR_STATUS[3] says that one was discarded. -/
def Chip.ledgerPause (bit : Nat) (c : Chip) : Chip :=
  let lost := !c.lg.signing.isEmpty
  let f := fun (l : Ledger) => if l.flags.testBit bit then l.flags else l.flags + 2 ^ bit
  let c := c.updLg (fun l => { l with signing := [], flags := f l })
  if lost then c.lgErr 3 else c

/-- CHECKPOINT_CLOSE happens at a whole second of device time while a region is applied (R460), once. -/
def Chip.ckptDue (c : Chip) : Bool :=
  c.awake && c.lg.started && c.lgRecords != 0 && c.clk.dev % 1000000000 == 0 &&
    c.lg.closedAt != some c.clk.ref

/-- Write every kept item again at its place (R463); one that is refused or fails stays. -/
def Chip.lgRewrite (failed : Bool) (c : Chip) : Chip :=
  let items := c.lg.rewrite
  items.foldl (fun c x => c.lgWrite false failed x.1 x.2) c

end Sys2Proof.Machine
end

