-- ==== Sys2Proof/Machine/Pack.lean ====
section
/-! DEFINITION. Output slots: the pack's pixel codes and provenance plane, slot headers, repeats, and their Relty records (R237 to R245,
R456 to R458). -/

namespace Sys2Proof.Machine

/-! ### Pixels (R237 to R239) -/

/-- num / den rounded to the nearest integer, ties away from zero. -/
def rnaDiv (num : Int) (den : Nat) : Int :=
  let q : Int := ((2 * num.natAbs + den) / (2 * den) : Nat)
  if num < 0 then -q else q

/-- The dither state of an instant (R238). -/
def ditherState (seed : Dword) (settled : Bool) (j : Nat) : Dword :=
  seedState (seedState seed ^^^ (BitVec.ofNat 64 j * 0x9E3779B97F4A7C15) ^^^ (if settled then 0x8000000000000000 else 0))

/-- Draws of the generator: n numbers. -/
def drawsOf : Nat → Dword → List Dword
  | 0, _ => []
  | n + 1, s => let (x, s) := xs64 s; x :: drawsOf n s

/-- The code of a staging sample: dither none, or a draw's bit (R237). -/
def pixCode (fPix : Nat) (d : Option Bool) (q : Int) : Nat :=
  let t : Int := match d with | none => 0 | some true => (2 ^ fPix : Nat) | some false => -((2 ^ fPix : Nat) : Int)
  (clampInt 0 1023 (rnaDiv (4 * q + t) (4 * 2 ^ fPix))).toNat

/-- The codes of samples in order, dithered when a state is given. -/
def pixCodes (fPix : Nat) (s0 : Option Dword) (qs : List Int) : List Nat :=
  match s0 with
  | none => qs.map (pixCode fPix none)
  | some s =>
    let bits := (drawsOf (ceilDiv qs.length 64) s).flatMap (fun x => (List.range 64).map (fun i => x.toNat.testBit i))
    List.zipWith (fun q b => pixCode fPix (some b) q) qs bits

/-- A row of codes packed four to five bytes (R239). -/
def packRow (row : List Nat) : Bytes :=
  (cut 4 row).flatMap (fun g => toLe 5 (g.getD 0 0 + g.getD 1 0 * 2 ^ 10 + g.getD 2 0 * 2 ^ 20 + g.getD 3 0 * 2 ^ 30))

/-- A plane of rows of n codes. -/
def packPlane (n : Nat) (codes : List Nat) : Bytes := (cut n codes).flatMap packRow

/-- A line unit of a loss map is filled. -/
def lossBit (m : Bytes) (k : Nat) : Bool := (m.getD (k / 8) 0).toNat.testBit (k % 8)

/-- LOSS of block row r (R241). -/
def lossRow (d : StreamDecl) (maps : List Bytes) (r : Nat) : Bool :=
  let g := d.slotGeo
  let l0 := 16 * r / d.sc
  let l1 := min (16 * r + 15) (g.ho - 1) / d.sc
  (List.range (l1 + 1 - l0)).any (fun i =>
    let k := if d.fmt = 1 then l0 + i else (l0 + i) / 2
    maps.any (fun m => lossBit m k))

/-! ### Headers and records -/

/-- The counts of a provenance plane: blocks of each origin, lossy, disoccluded (R243). -/
structure ProvCounts where
  o0 : Nat
  o1 : Nat
  o2 : Nat
  o3 : Nat
  lossy : Nat
  disocc : Nat
  deriving DecidableEq, Repr

def provCounts (p : Bytes) : ProvCounts :=
  let n := fun (f : Nat → Bool) => (p.filter (fun b => f b.toNat)).length
  ⟨n (fun b => b / 64 == 0), n (fun b => b / 64 == 1), n (fun b => b / 64 == 2), n (fun b => b / 64 == 3), n (fun b => b.testBit 5),
    n (fun b => b.testBit 4)⟩

/-- What a slot header says (R243). -/
structure Header where
  stream : Nat
  settled : Bool
  j : Nat
  a : Nat
  b : Nat
  pres : Nat
  completion : Nat
  kind : Nat
  cold : Bool
  late : Bool
  cause : Nat
  e : Int
  den : Nat
  source : Nat
  counts : ProvCounts
  s0 : Dword
  prog : Hash
  deriving DecidableEq, Repr

/-- Bytes 0x00 to 0x7F of a slot header. -/
def Header.bytes (h : Header) (d : StreamDecl) : Bytes :=
  let g := d.slotGeo
  let flags := b2n h.cold + 2 * b2n h.late + 4 * b2n (d.fmt == 1) + 8 * h.cause
  toLe 8 h.j ++ toLe 8 h.a ++ toLe 8 h.b ++ toLe 8 h.pres ++ toLe 8 h.completion ++ toLe 1 h.stream ++ toLe 1 (b2n h.settled) ++
    toLe 1 h.kind ++ toLe 1 flags ++ toLe 2 g.wo ++ toLe 2 g.ho ++ toLe 1 d.sc ++ toLe 1 d.tm ++ toLe 2 (unsigned 16 h.e) ++ toLe 2 h.den ++
    zeros 2 ++ toLe 8 h.source ++ toLe 4 h.counts.o0 ++ toLe 4 h.counts.o1 ++ toLe 4 h.counts.o2 ++ toLe 4 h.counts.o3 ++
    toLe 4 h.counts.lossy ++ toLe 4 h.counts.disocc ++ toLe 8 h.s0.toNat ++ hashBytes h.prog

/-- The frame hash of a slot (R457). -/
def frameHash (h : Header) (d : StreamDecl) (luma chroma prov : Bytes) : Hash :=
  sha256 (luma ++ chroma ++ prov ++ ({ h with completion := 0, late := false } : Header).bytes d)

/-- The Relty record of a slot (R456). -/
def slotRecord (h : Header) (d : StreamDecl) (capture : Nat) (fh : Hash) : Bytes :=
  let repeated := h.cause != 0
  let counter := if repeated then h.j / d.tm else h.a
  let e := if repeated then h.j % d.tm else unsigned 16 h.e
  let flags := b2n h.settled + 2 * h.kind + 8 * b2n h.cold + 16 * h.cause
  toLe 1 h.stream ++ toLe 1 flags ++ toLe 1 d.tm ++ toLe 1 d.sc ++ toLe 2 e ++ toLe 2 h.counts.lossy ++ toLe 8 counter ++
    toLe 8 capture ++ toLe 2 h.counts.o0 ++ toLe 2 h.counts.o1 ++ toLe 2 h.counts.o2 ++ toLe 2 h.counts.o3 ++
    (hashBytes fh).take 16 ++ (hashBytes h.prog).take 16

/-- All ones in 64 bits. -/
def ones64 : Nat := 2 ^ 64 - 1

/-- The flags byte of a slot header. -/
def Header.flags (h : Header) (d : StreamDecl) : Nat := b2n h.cold + 2 * b2n h.late + 4 * b2n (d.fmt == 1) + 8 * h.cause

/-- The detail of a frame-generation stream event (R381). -/
def fgDetail (j flags : Nat) (settled : Bool) : Bytes := toLe 8 j ++ toLe 1 flags ++ toLe 1 (b2n settled) ++ zeros 6

/-- Raise source 256 + s when a bit of FG_STREAM_CTL allows it (R250). -/
def Chip.fgEvent (s bit j flags : Nat) (settled : Bool) (c : Chip) : Chip :=
  if (c.fgs s).ctl.toNat.testBit bit then c.raise (256 + s) (fgDetail j flags settled) else c

/-- A SETTLED slot that is written over is gone from its ring (R265). -/
def Chip.noteGone (d : StreamDecl) (settled : Bool) (j : Nat) (c : Chip) : Chip :=
  let h := c.dramRead (c.slotAt d settled j) 0x40
  if !settled || fieldAt h 0 8 = ones64 || fieldAt h 0x2C 2 ≠ d.slotGeo.wo then c
  else c.updMode d.idx true (fun m => { m with gone := some (match m.gone with | some t => min t (fieldAt h 0x18 8) | none => fieldAt h 0x18 8) })

/-- Begin a slot (R244): its j reads all ones. A refusal of any of its bytes, in the order they are written, faults the stream's context
with code 0x03 (R347). The answer says whether the slot may be written. -/
def Chip.openSlot (d : StreamDecl) (settled : Bool) (j : Nat) (step : Word) (c : Chip) : Chip × Bool :=
  let g := d.slotGeo
  let a := c.slotAt d settled j
  let refused := fun (v : Nat × Nat) (c : Chip) => ((c.recordViol .sequencer d.ctx v.1 v.2 step).ctxFault d.ctx 3, false)
  match c.refusal (.ctx d.ctx) true a 8 with
  | some v => refused v c
  | none =>
    let c := (c.noteGone d settled j).dramWrite a (toLe 8 ones64)
    match (c.refusal (.ctx d.ctx) true (a + 4096) (g.size - 4096)).or (c.refusal (.ctx d.ctx) true a 4096) with
    | some v => refused v c
    | none => (c, true)

/-- Write a whole slot (R244): j as all ones, the planes, the header, j last; then its record and its signal. A refused slot is not
written. -/
def Chip.writeSlot (d : StreamDecl) (h : Header) (luma chroma prov : Bytes) (step : Word) (c : Chip) : Chip × Bool :=
  let g := d.slotGeo
  let a := c.slotAt d h.settled h.j
  let (c, ok) := c.openSlot d h.settled h.j step
  if !ok then (c, false) else
  let pad := fun (b : Bytes) => b ++ zeros (roundUp b.length 4096 - b.length)
  let c := c.dramWrite (a + 4096) (pad luma)
  let c := c.dramWrite (a + g.chromaAt) (pad chroma)
  let c := c.dramWrite (a + g.provAt) (pad prov)
  let c := c.dramWrite a (h.bytes d ++ zeros (4096 - 0x80))
  let frame := if h.cause = 0 then h.a else h.j / d.tm
  let capture := match c.rec? h.stream frame with | some r => r.capture | none => ones64
  let fh := frameHash h d luma chroma prov
  let c := c.lgAppendSlot (2 * h.stream + b2n h.settled) (slotRecord h d capture fh)
  let obj := (if h.settled then 1024 else 768) + h.stream
  (c.deviceSignal 4 obj, true)

/-- A mode marks its slots COLD until W anchors have committed (R247). -/
def Chip.coldNow (c : Chip) (d : StreamDecl) (settled : Bool) : Bool :=
  decide ((c.mode d.idx settled).anchors < (c.fgHdr d).warm)

/-- Note a written slot: the last instant, the source of the next repeat. An instant of an earlier cold start (epoch) is no instant of
the mode's reference frame. -/
def Chip.noteSlot (s : Nat) (settled : Bool) (epoch j source : Nat) (c : Chip) : Chip :=
  c.updMode s settled (fun m =>
    let m := { m with lastJ := some j, src := some (j, source) }
    if settled || epoch != m.epoch then m else m.note j)

/-- The slot most recently written for a mode since its cold start, as a repeat copies it: its planes, its provenance plane and its program
hash, black where there is none (R245); none where a read of it is refused, which faults the stream's context. -/
def Chip.repeatSource (d : StreamDecl) (settled : Bool) (c : Chip) : Chip × Option (Bytes × Bytes × Bytes × Hash) :=
  let g := d.slotGeo
  match (c.mode d.idx settled).src with
  | none => (c, some (packPlane g.wo (List.replicate (g.wo * g.ho) 0x040), packPlane g.wo (List.replicate (g.wo * (g.ho / 2)) 0x200),
      List.replicate g.prov 0xC0, 0))
  | some (i, _) =>
    let a := c.slotAt d settled i
    match c.readFor .sequencer d.ctx noStep a g.size with
    | (c, none) => (c, none)
    | (c, some bs) => (c, some (slice bs 4096 g.luma, slice bs g.chromaAt g.chroma, slice bs g.provAt g.prov, hashOf (slice bs 0x60 32)))

/-- Write instant j, at offset e of den, as a repeat (R243, R245): the planes of the slot most recently written for the mode, every ORIGIN
11; with no slot since the cold start, black with cause 3. -/
def Chip.writeRepeat (d : StreamDecl) (settled : Bool) (epoch j : Nat) (e : Int) (den pres cause : Nat) (c : Chip) : Chip :=
  let from_ := (c.mode d.idx settled).src.map (·.2)
  match c.repeatSource d settled with
  | (c, none) => c
  | (c, some (luma, chroma, prov, prog)) =>
    let prov := prov.map (fun b => b ||| 0xC0)
    let cause := if from_.isNone then 3 else cause
    let h : Header := { stream := d.idx, settled := settled, j := j, a := ones64, b := ones64, pres := pres, completion := c.clk.dev,
                        kind := 3, cold := c.coldNow d settled, late := false, cause := cause, e := e, den := den,
                        source := from_.getD ones64, counts := provCounts prov, s0 := 0, prog := prog }
    let (c, ok) := c.writeSlot d h luma chroma prov noStep
    if !ok then c else
    let c := c.noteSlot d.idx settled epoch j (from_.getD ones64)
    let c := if cause = 1 then (c.updFgs d.idx (fun s => { s with repDeadline := satInc s.repDeadline })).fgErr 0
      else (c.updFgs d.idx (fun s => { s with repInput := satInc s.repInput })).fgErr 1
    c.fgEvent d.idx 0 j (h.flags d) settled

/-! ### The pack (R227, R237 to R244) -/

/-- The planes and provenance plane of a pack, from the bytes of its OUT buffer. -/
def Pack.planes (p : Pack) (d : StreamDecl) (h : FgHdr) (out : Bytes) : Bytes × Bytes × Bytes :=
  let g := d.slotGeo
  let nl := g.wo * g.ho
  let nc := if d.fmt = 1 then 0 else g.wo / 2 * (g.ho / 2) * 2
  let lumaLen := roundUp (2 * nl) 64
  let chromaLen := roundUp (2 * nc) 64
  let ys := a16s (slice out 0 (2 * nl))
  let cs := a16s (slice out lumaLen (2 * nc))
  let s0 := if h.dither then some p.s0 else none
  let codes := pixCodes h.fPix s0 (ys ++ cs)
  let luma := packPlane g.wo (codes.take nl)
  let chroma := packPlane g.wo (if d.fmt = 1 then List.replicate (g.wo * (g.ho / 2)) 0x200 else codes.drop nl)
  let aux := a16s (slice out (lumaLen + chromaLen) (4 * g.prov))
  let bw := ceilDiv g.wo 16
  let maps := if p.kind = 1 then [p.lossA, p.lossB] else [p.lossA]
  let prov := (List.range g.prov).map (fun i =>
    let conf := clampInt 0 15 (rnaDiv (15 * aux.getD (2 * i) 0) (2 ^ h.fAux))
    BitVec.ofNat 8 (p.kind * 64 + 32 * b2n (lossRow d maps (i / bw)) + 16 * b2n (decide (0 < aux.getD (2 * i + 1) 0)) + conf.toNat))
  (luma, chroma, prov)

/-- Bytes of the OUT buffer that a stream needs (R227). -/
def StreamDecl.outNeed (d : StreamDecl) : Nat :=
  let g := d.slotGeo
  let nc := if d.fmt = 1 then 0 else g.wo / 2 * (g.ho / 2) * 2
  roundUp (2 * (g.wo * g.ho)) 64 + roundUp (2 * nc) 64 + 4 * g.prov

/-- Reads of the OUT buffer that failed: the recovered ones count as corrected. The first that is not ends the pack; its step has retired, so
no replay is left, and the outcome of R333 follows (R332; log 124). -/
def Chip.packFails (p : Pack) : List Sys2Proof.JobErr → Chip → Chip × Bool
  | [], c => (c, false)
  | .check :: es, c => packFails p es c
  | .word a recovered :: es, c =>
    if recovered then packFails p es (c.bsCorrected a) else ((c.basinFail .sequencer p.ctx p.step a).basinOutcome a, true)

/-- A pack finishes (R244): the slot is written, j last; LATE when a SETTLED slot completes after its presentation (R233). -/
def Chip.finishPack (p : Pack) (d : StreamDecl) (c : Chip) : Chip :=
  let hd := c.fgHdr d
  let out := c.basinRead (c.streamBanks d) p.outAt d.outNeed
  let (luma, chroma, prov) := p.planes d hd out
  let late := p.settled && decide (p.pres < c.clk.dev)
  let h : Header := { stream := d.idx, settled := p.settled, j := p.j, a := p.a, b := p.b, pres := p.pres, completion := c.clk.dev,
                      kind := p.kind, cold := p.cold, late := late, cause := 0, e := p.e, den := p.den, source := ones64,
                      counts := provCounts prov, s0 := if hd.dither then p.s0 else 0, prog := p.prog }
  let c := c.updFg (fun g => { g with packs := g.packs.filter (fun x => x.step != p.step) })
  let (c, ok) := c.writeSlot d h luma chroma prov p.step
  if !ok then c else
  let c := c.noteSlot d.idx p.settled p.epoch p.j p.j
  let g := d.slotGeo
  let c := c.updFg (fun x => { x with px := x.px + g.wo * g.ho })
  if p.settled then
    if late then ((c.updFgs d.idx (fun s => { s with setLate := satInc s.setLate })).fgErr 2).fgEvent d.idx 1 p.j (h.flags d) true
    else c
  else c.updFgs d.idx (fun s => { s with slack := BitVec.ofInt 32 (((p.pres : Int) - c.clk.dev) / 1000) })

end Sys2Proof.Machine
end

