-- ==== Sys2Proof/Machine/FrameGen.lean ====
section
/-! DEFINITION. The frame-generation sequencer: cold starts (R247), what a frame's close does to a stream's modes (R216 to R219), issuing
LIVE and SETTLED steps (R228), gates and misses (R230 to R232), binding and unpacking (R224 to R226), retirement (R221). -/

namespace Sys2Proof.Machine

/-! ### Cold starts (R247) -/

/-- The sequencer works for a stream (R42, R43, R236). -/
def Chip.streamRuns (c : Chip) (d : StreamDecl) : Bool := d.active && c.ctxRunnable d.ctx && !c.cfg.coldAfterSeal.contains d.idx

/-- Instants of a stream are still written: the sequencer works for it, or its context leaves with steps in flight (R61, R236). -/
def Chip.streamAlive (c : Chip) (d : StreamDecl) : Bool := d.active && c.ctxAlive d.ctx && !c.cfg.coldAfterSeal.contains d.idx

/-- One mode starts cold: both state buffers zero, parity 0, no reference, no slot written since, no anchor committed. -/
def Chip.coldMode (d : StreamDecl) (settled keep : Bool) (c : Chip) : Chip :=
  let c := match c.placed (c.partOf d.ctx) (if settled then 2 else 1) d.idx with
    | some p => c.basinClear (c.streamBanks d) p.off p.size
    | none => c
  c.updMode d.idx settled (fun m => { epoch := m.epoch + 1, lastJ := m.lastJ, gone := m.gone, periods := if keep then m.periods else [] })

/-- Both modes of a stream start cold. keep: SETTLED periods formed before stay to be issued (a gap, R218). -/
def Chip.coldStart (d : StreamDecl) (keep : Bool) (c : Chip) : Chip :=
  let c := (c.coldMode d false false).coldMode d true keep
  let c := (c.updFgs d.idx (fun s => { s with coldCount := satInc s.coldCount })).fgErr 3
  c.fgEvent d.idx 2 ones64 1 false

/-! ### Issuing -/

/-- The frame closed before a frame; the frame itself when none was (R224). -/
def Chip.prevOf (c : Chip) (s n : Nat) : Nat :=
  match ((c.stream s).hist.filter (fun h => decide (h.counter < n))).getLast? with
  | some r => r.counter
  | none => n

/-- What one instant's step is to be. -/
structure InstantPlan where
  j : Nat
  a : Nat
  b : Nat
  e : Int
  den : Nat
  kind : Nat
  pres : Nat
  epoch : Nat
  anchor : Bool
  discard : Bool
  deriving DecidableEq, Repr

/-- The step list of a kind (R222). -/
def FgHdr.list (h : FgHdr) (kind : Nat) : Nat := match kind with | 0 => h.obs | 1 => h.intp | _ => h.ext

/-- Issue the step of one instant. -/
def Chip.issueFrame (d : StreamDecl) (settled : Bool) (p : InstantPlan) (be : Bool) (budgetEnd : Option Nat) (c : Chip) : Chip :=
  let h := c.fgHdr d
  let list := h.list p.kind
  let desc := match c.ctxProg d.ctx with | some g => g.desc | none => []
  let waits := waitObjects ((stepList desc list).map (·.2))
  c.issue { blankStep d.ctx (c.partOf d.ctx) be (.frame d.idx settled p.j) with
    gen := if h.dither then ditherState d.seed settled p.j else 0
    anchor := p.anchor
    discard := p.discard
    kind := p.kind
    pres := p.pres
    epoch := p.epoch
    e := p.e
    den := p.den
    a := p.a
    b := p.b
    list := list
    budgetEnd := budgetEnd } waits

/-- Steps that a partition's journal can still open (R509; log 42). -/
def Chip.openSlots (c : Chip) (p : Nat) : Nat := 4096 - (c.journaled p).length

/-- A stream is degraded (R318). -/
def Chip.degraded (c : Chip) (s : Nat) : Bool := c.tt.degraded.contains s

/-- The offset of LIVE instant j from its designated frame (R217). -/
def Chip.liveOffset (c : Chip) (d : StreamDecl) (ref : Nat × Nat) (j : Nat) : Int := (j : Int) - d.designated (c.fgHdr d) ref.1 j * d.tm

/-- The plan of LIVE instant j (R217, R220, R221). R217 names no kind for an instant before its designated frame's own; such a one is
extrapolated (log 123). -/
def Chip.livePlan (c : Chip) (d : StreamDecl) (ref : Nat × Nat) (j : Nat) (discard : Bool) : InstantPlan :=
  let h := c.fgHdr d
  let n := (d.designated h ref.1 j).toNat
  let e := c.liveOffset d ref j
  { j := j, a := n, b := c.prevOf d.idx n, e := e, den := d.tm, kind := if e = 0 then 0 else 2, pres := d.pres false ref j,
    epoch := (c.mode d.idx false).epoch, anchor := d.anchor h ref.1 j, discard := discard }

/-- Issue LIVE instant j; no later entry issues it again. -/
def Chip.issueLive (d : StreamDecl) (ref : Nat × Nat) (j : Nat) (discard be : Bool) (budgetEnd : Option Nat) (c : Chip) : Chip :=
  (c.updMode d.idx false (fun m => { m with issued := m.issued ++ [j] })).issueFrame d false (c.livePlan d ref j discard) be budgetEnd

/-- How far a search for a LIVE instant looks: past every instant that is already written or issued, and to the given time. -/
def Chip.liveSpan (c : Chip) (d : StreamDecl) (ref : Nat × Nat) (due : Nat) : Nat :=
  let m := c.mode d.idx false
  let past := (d.instantFrom ref.1 ((due : Int) - ref.2 - d.dlive * 1000000) : Nat)
  (past - m.next) + m.ahead.length + m.issued.length + 2

/-- The instant that a LIVE entry due at a time issues: the earliest not written, not issued, presented later (R228). -/
def Chip.liveNext (c : Chip) (d : StreamDecl) (ref : Nat × Nat) (due : Nat) : Option Nat :=
  let m := c.mode d.idx false
  findFrom (fun j => !m.written j && !m.issued.contains j && decide (due < d.pres false ref j)) (c.liveSpan d ref due) m.next

/-- An anchor whose instant is a repeat is issued, or waits for the journal to have room for it (R232, R509). -/
def Chip.issueLate (d : StreamDecl) (ref : Nat × Nat) (j : Nat) (c : Chip) : Chip :=
  let p := c.partOf d.ctx
  if 0 < c.openSlots p then c.issueLive d ref j true (c.partBe p) none
  else c.updMode d.idx false (fun m => { m with late := m.late ++ [j], issued := m.issued ++ [j] })

/-- A LIVE entry comes due. Of a degraded stream only anchors run: any other instant passes its entry by and is a repeat at its presentation
(R231, R318). -/
def Chip.tideLive (d : StreamDecl) (due : Nat) (be : Bool) (budgetEnd : Option Nat) (c : Chip) : Chip :=
  if !c.streamRuns d then c else
  match (c.mode d.idx false).ref with
  | none => c
  | some ref =>
    match c.liveNext d ref due with
    | none => c
    | some j =>
      if c.degraded d.idx && !d.anchor (c.fgHdr d) ref.1 j then c.updMode d.idx false (fun m => { m with issued := m.issued ++ [j] })
      else c.issueLive d ref j false be budgetEnd

/-- Instants of a SETTLED period with their offsets. -/
def StreamDecl.periodInstants (d : StreamDecl) (p : Period) : List (Nat × Nat) :=
  (List.range (if p.only0 then 1 else p.m * d.tm)).map (fun e => (p.c * d.tm + e, e))

/-- Issue the earliest SETTLED period formed and not issued (R228); a degraded stream's instants other than the anchor are written as
repeats with cause 1 (R318). -/
def Chip.issuePeriod (d : StreamDecl) (be : Bool) (budgetEnd : Option Nat) (c : Chip) : Chip :=
  match (c.mode d.idx true).periods with
  | [] => c
  | p :: rest =>
    let c := c.updMode d.idx true (fun m => { m with periods := rest })
    (d.periodInstants p).foldl (fun c x =>
      let pres := d.pres true p.ref x.1
      if c.degraded d.idx && x.2 != 0 then c.writeRepeat d true p.epoch x.1 x.2 (p.m * d.tm) pres 1
      else c.issueFrame d true { j := x.1, a := p.c, b := p.c + p.m, e := x.2, den := p.m * d.tm, kind := if x.2 = 0 then 0 else 1,
                                 pres := pres, epoch := p.epoch, anchor := x.2 == 0, discard := false } be budgetEnd) c

/-- Steps that issuing the next SETTLED period of a stream opens. -/
def Chip.periodSteps (c : Chip) (d : StreamDecl) : Nat :=
  match (c.mode d.idx true).periods with
  | [] => 0
  | p :: _ => if c.degraded d.idx then 1 else (d.periodInstants p).length

/-- The class and budget of a tide entry: the step's BE flag, and when a class-0 step overruns (R295, R296). -/
def Chip.entryClass (c : Chip) (t : TideDecl) (due : Nat) : Bool × Option Nat :=
  (t.cls == .be || c.partBe t.part, if t.cls = .lc then some (due + t.budget * 10000) else none)

/-- A SETTLED entry comes due; with no period formed it stays owed to the next one, and its budget runs (log 33). -/
def Chip.tideSettled (d : StreamDecl) (be : Bool) (budgetEnd : Option Nat) (c : Chip) : Chip :=
  if !c.streamRuns d then c else
  if (c.mode d.idx true).periods.isEmpty then c.updMode d.idx true (fun m => { m with owed := m.owed.or (some (be, budgetEnd)) })
  else c.issuePeriod d be budgetEnd

/-- An owed SETTLED entry issues the period that has just formed, while the journal has room. -/
def Chip.payOwed (d : StreamDecl) (c : Chip) : Chip :=
  match (c.mode d.idx true).owed with
  | none => c
  | some (be, fin) =>
    if c.periodSteps d ≤ c.openSlots (c.partOf d.ctx) then
      (c.updMode d.idx true (fun m => { m with owed := none })).issuePeriod d be fin
    else c

/-! ### A frame closes (R216, R218, R219) -/

/-- A waiting LIVE step whose output is discarded and whose designated frame was skipped never runs: no frame has it as anchor (R221; log 122).
A waiting one of the stream takes the frame that closed before its designated one as it stands now. -/
def Chip.settleWaiting (d : StreamDecl) (c : Chip) : Chip :=
  let newest := match (c.stream d.idx).hist.getLast? with | some r => r.counter | none => 0
  let mine := c.tt.steps.filter (fun t => t.phase == .waiting && (match t.subj with | .frame s m _ => s == d.idx && !m | _ => false))
  mine.foldl (fun c t =>
    if t.discard && decide (t.a < newest) && (c.rec? d.idx t.a).isNone then c.abandonStep t.no
    else c.updStep t.no (fun x => { x with b := c.prevOf d.idx x.a })) c

/-- A mode takes its reference frame. -/
def Chip.takeRef (d : StreamDecl) (settled : Bool) (f : FrameRec) (c : Chip) : Chip :=
  let ref := (f.counter, f.capture)
  if settled then c.updMode d.idx true (fun m => { m with ref := some ref })
  else
    let first := d.firstLive (c.fgHdr d) ref f.close
    (c.updMode d.idx false (fun m => { m with ref := some ref, first := first, next := first, ahead := [], issued := [] })).updFgs d.idx
      (fun s => { s with refCapt := f.capture })

/-- Modes that are enabled and wait for a reference take this frame. -/
def Chip.takeRefs (d : StreamDecl) (f : FrameRec) (c : Chip) : Chip :=
  let c := if d.live && (c.mode d.idx false).ref.isNone then c.takeRef d false f else c
  if d.settled && (c.mode d.idx true).ref.isNone then c.takeRef d true f else c

/-- A frame of a stream closed: references, SETTLED periods, and the gap rule. prev is the frame closed before it. -/
def Chip.fgClose (d : StreamDecl) (f : FrameRec) (prev : Option FrameRec) (c : Chip) : Chip :=
  if !c.streamRuns d then (if c.streamAlive d then c.settleWaiting d else c) else
  let h := c.fgHdr d
  let set := c.mode d.idx true
  let known := set.ref.isSome || (c.mode d.idx false).ref.isSome
  match prev with
  | none => (c.takeRefs d f).settleWaiting d
  | some p =>
    let m := f.counter - p.counter
    if known && h.gap < m then
      let c := match set.ref with
        | some r =>
          let c := c.updMode d.idx true (fun x => { x with periods := x.periods ++ [({ c := p.counter, m := m, only0 := true, ref := r, epoch := set.epoch } : Period)] })
          let c := c.payOwed d
          (List.range (m * d.tm - 1)).foldl (fun (c : Chip) i =>
            let j := p.counter * d.tm + 1 + i
            c.writeRepeat d true set.epoch j (i + 1 : Nat) (m * d.tm) (d.pres true r j) 2) c
        | none => c
      ((c.coldStart d true).takeRefs d f).settleWaiting d
    else
      let c := match set.ref with
        | some r => (c.updMode d.idx true (fun x => { x with periods := x.periods ++ [({ c := p.counter, m := m, only0 := false, ref := r, epoch := set.epoch } : Period)] })).payOwed d
        | none => c
      (c.takeRefs d f).settleWaiting d

/-! ### Inputs (R224, R229) -/

/-- The device time at which a LIVE step's wait for its inputs ends: its gate time, or its issue when that came later; none for a SETTLED step
and for an anchor whose output is discarded (R229, R232). -/
def Step.waitEnd (t : Step) : Option Nat := if t.subj.settled || t.discard then none else some (max (t.pres - 6000000) t.opened)

/-- The device time by which it is known that no map of a pair will name a frame of the right view, none while it is not: a left frame later
than its window has closed, or the last left frame that could match it has found it missing (R112, R224). -/
def Chip.unusedFrom (c : Chip) (l d : StreamDecl) (f : ClosedFrame) : Option Nat :=
  let quarter := d.period / 4
  let job := (c.sd.eng.run.toList ++ c.sd.eng.q).any (fun j => j.stream == l.idx && j.right.any (fun g => g.1 == d.idx && g.2.same f))
  let later := (((c.stream l.idx).hist.find? (fun r => decide (f.capture + quarter < r.capture))).map (·.close))
  let fin := f.capture + d.period + quarter
  let known := match later with | some t => min t fin | none => fin
  if job || c.clk.dev < known then none else some (max known f.close)

/-- The disparity entry for a frame of a stream in a pair: the close index of the left frame, and whether the map is stale; none while
it is still to be signalled by the end of a wait. -/
def Chip.dispFor (c : Chip) (d : StreamDecl) (f : ClosedFrame) (fin : Option Nat) : Option (Nat × Bool) :=
  let inTime := fun (t : Nat) => fin.all (fun w => decide (t ≤ w))
  match c.leftView d with
  | none => some (0, false)
  | some l =>
    let pair := c.sd.maps.filter (fun m => m.left == l.idx && inTime m.at_)
    if l.idx = d.idx then (if pair.any (fun m => m.closeIdx == f.closeIdx && m.leftCtr == f.counter) then some (f.closeIdx, false) else none)
    else
      match pair.find? (fun m => m.rightCtr == some f.counter) with
      | some m => some (m.closeIdx, false)
      | none =>
        if c.sd.maps.any (fun m => m.left == l.idx && m.rightCtr == some f.counter) then none
        else if (c.unusedFrom l d f).any inTime then some ((pair.getLast?.map (·.closeIdx)).getD 0, true)
        else none

/-- What a frame step reads: its frames, the frame whose field it binds, its disparity entries and their staleness. -/
structure Bound where
  fa : ClosedFrame
  fb : ClosedFrame
  field : ClosedFrame
  da : Nat × Bool
  db : Nat × Bool
  deriving DecidableEq, Repr

/-- The inputs of a frame step, once each has been signalled within its wait (R229). A replay takes the bindings of the journal entry and
waits for nothing (R235, R515). -/
def Chip.inputs (c : Chip) (d : StreamDecl) (t : Step) : Option Bound :=
  match c.held? d.idx t.a, c.held? d.idx t.b with
  | some fa, some fb =>
    let fld := if t.subj.settled then fb else fa
    let inTime := fun (t' : Nat) => t.waitEnd.all (fun w => decide (t' ≤ w))
    if !t.binds.isEmpty then some { fa := fa, fb := fb, field := fld, da := (0, t.stale), db := (0, t.stale) }
    else if inTime fa.close && inTime fb.close && c.me.written.any (fun w => w.stream == d.idx && w.closeIdx == fld.closeIdx && inTime w.at_) then
      match c.dispFor d fa t.waitEnd, c.dispFor d fb t.waitEnd with
      | some da, some db => some { fa := fa, fb := fb, field := fld, da := da, db := db }
      | _, _ => none
    else none
  | _, _ => none

/-! ### Gates and misses (R230 to R232) -/

/-- A LIVE step of a stream whose output still counts. -/
def Step.live (t : Step) (s : Nat) : Bool := (match t.subj with | .frame x m _ => x == s && !m | _ => false) && !t.discard

/-- The issued step of a LIVE instant of the mode's present reference that still counts for it. -/
def Chip.liveStep (c : Chip) (s j : Nat) : Option Step :=
  c.tt.steps.find? (fun t => t.live s && t.subj == .frame s false j && t.epoch == (c.mode s false).epoch)

/-- The pack of a LIVE instant in one cold start of the mode. -/
def Pack.live (p : Pack) (s epoch j : Nat) : Bool := p.stream == s && !p.settled && p.j == j && p.epoch == epoch

/-- The designated frame of an instant has no close by its gate time, pres − 6 ms. -/
def Chip.gateFails (c : Chip) (d : StreamDecl) (n pres : Nat) : Bool :=
  !((c.rec? d.idx n).any (fun r => decide (r.close + 6000000 ≤ pres)))

/-- The wait of a LIVE step for its inputs has ended without one of them: the instant becomes a repeat (R124, R229). -/
def Chip.inputLate (c : Chip) (d : StreamDecl) (t : Step) : Bool :=
  t.phase == .waiting && t.binds.isEmpty && t.waitEnd.any (fun w => decide (w ≤ c.clk.dev)) && (c.inputs d t).isNone

/-- A step whose instant has become a repeat: one that is no anchor is abandoned, an anchor runs on and its output is discarded (R231,
R232). -/
def Chip.dropStep (d : StreamDecl) (t : Step) (c : Chip) : Chip :=
  if t.anchor then (c.updStep t.no (fun t => { t with discard := true })).settleWaiting d else c.abandonStep t.no

/-- What becomes of the step of an instant that turns into a repeat: its step or pack is dropped, and an anchor not yet issued is issued
with its output discarded (R231, R232). -/
def Chip.dropInstant (d : StreamDecl) (ref : Nat × Nat) (j : Nat) (c : Chip) : Chip :=
  let epoch := (c.mode d.idx false).epoch
  match c.liveStep d.idx j with
  | some t => c.dropStep d t
  | none =>
    if c.fg.packs.any (fun p => p.live d.idx epoch j) then c.updFg (fun g => { g with packs := g.packs.filter (fun p => !p.live d.idx epoch j) })
    else if c.streamRuns d && d.anchor (c.fgHdr d) ref.1 j then (c.issueLate d ref j).settleWaiting d
    else c

/-- A repeat of a LIVE instant of the mode's present reference. -/
def Chip.repeatLive (d : StreamDecl) (ref : Nat × Nat) (j cause : Nat) (c : Chip) : Chip :=
  (c.writeRepeat d false (c.mode d.idx false).epoch j (c.liveOffset d ref j) d.tm (d.pres false ref j) cause).dropInstant d ref j

/-- A repeat of the LIVE instant of a step issued before the mode's last cold start. -/
def Chip.repeatStep (d : StreamDecl) (t : Step) (cause : Nat) (c : Chip) : Chip :=
  (c.writeRepeat d false t.epoch t.subj.instant t.e t.den t.pres cause).dropStep d t

/-- The LIVE instant that the gate turns into a repeat now: its designated frame has not closed, or the wait of its step has ended. -/
def Chip.gated (c : Chip) (d : StreamDecl) : Option (Nat × (Nat × Nat)) :=
  (c.mode d.idx false).ref.bind (fun ref =>
    let m := c.mode d.idx false
    let n := d.instantFrom ref.1 ((c.clk.dev : Int) + 6000000 - ref.2 - d.dlive * 1000000) + 2 - m.next
    let unclosed := findFrom (fun j => !m.written j && decide (d.pres false ref j ≤ c.clk.dev + 6000000) &&
        c.gateFails d (d.designated (c.fgHdr d) ref.1 j).toNat (d.pres false ref j)) n m.next
    (unclosed.or ((c.tt.steps.find? (fun t => t.live d.idx && t.epoch == m.epoch && c.inputLate d t)).map (·.subj.instant))).map (fun j => (j, ref)))

/-- A LIVE step issued before the mode's last cold start, still waiting, that its own gate turns into a repeat now. -/
def Chip.gatedOld (c : Chip) (d : StreamDecl) : Option Step :=
  c.tt.steps.find? (fun t => t.live d.idx && t.phase == .waiting && t.epoch != (c.mode d.idx false).epoch &&
    ((t.binds.isEmpty && decide (t.pres ≤ c.clk.dev + 6000000) && c.gateFails d t.a t.pres) || c.inputLate d t))

/-- LIVE_GATE: the instant is written as a repeat with cause 2, with cause 1 where the stream is degraded and the instant is no anchor
(R318). -/
def Chip.liveGate (d : StreamDecl) (c : Chip) : Chip :=
  let cause := fun (anchor : Bool) => if c.degraded d.idx && !anchor then 1 else 2
  match c.gated d with
  | some (j, ref) => c.repeatLive d ref j (cause (d.anchor (c.fgHdr d) ref.1 j))
  | none =>
    match c.gatedOld d with
    | some t => c.repeatStep d t (cause t.anchor)
    | none => c

/-- The LIVE instant that misses its presentation now. -/
def Chip.missed (c : Chip) (d : StreamDecl) : Option (Nat × (Nat × Nat)) :=
  (c.mode d.idx false).ref.bind (fun ref =>
    let m := c.mode d.idx false
    let n := d.instantFrom ref.1 ((c.clk.dev : Int) - ref.2 - d.dlive * 1000000) + 2 - m.next
    (findFrom (fun j => !m.written j && decide (d.pres false ref j < c.clk.dev)) n m.next).map (fun j => (j, ref)))

/-- A LIVE step issued before the mode's last cold start that misses its presentation now. -/
def Chip.missedOld (c : Chip) (d : StreamDecl) : Option Step :=
  c.tt.steps.find? (fun t => t.live d.idx && t.epoch != (c.mode d.idx false).epoch && decide (t.pres < c.clk.dev))

/-- The pack of such a step that misses its presentation now. -/
def Chip.packMissed (c : Chip) (d : StreamDecl) : Option Pack :=
  c.fg.packs.find? (fun p => p.live d.idx p.epoch p.j && p.epoch != (c.mode d.idx false).epoch && decide (p.pres < c.clk.dev))

/-- LIVE_DEADLINE_MISS: the instant is written as a repeat with cause 1. -/
def Chip.liveMiss (d : StreamDecl) (c : Chip) : Chip :=
  match c.missed d with
  | some (j, ref) => c.repeatLive d ref j 1
  | none =>
    match c.missedOld d with
    | some t => c.repeatStep d t 1
    | none =>
      match c.packMissed d with
      | some p => (c.writeRepeat d false p.epoch p.j p.e p.den p.pres 1).updFg (fun g => { g with packs := g.packs.filter (fun x => x.step != p.step) })
      | none => c

/-- The first anchor of a stream that waits for the journal, once there is room for it (R232, R509). -/
def Chip.lateAnchor (c : Chip) : Option (StreamDecl × (Nat × Nat) × Nat) :=
  c.str.active.findSome? (fun d =>
    let m := c.mode d.idx false
    match m.ref, m.late with
    | some ref, j :: _ => if c.streamRuns d && decide (0 < c.openSlots (c.partOf d.ctx)) then some (d, ref, j) else none
    | _, _ => none)

/-- It is issued. -/
def Chip.payLate (c : Chip) : Chip :=
  match c.lateAnchor with
  | some (d, ref, j) => ((c.updMode d.idx false (fun m => { m with late := m.late.drop 1 })).issueLate d ref j).settleWaiting d
  | none => c

/-! ### Binding (R224 to R226, R228) -/

/-- The OUT buffer that a step takes: the next of its context, and on a replay the one it took (R224, R235). -/
def Chip.outIndex (c : Chip) (t : Step) : Bool := if t.binds.isEmpty then c.fg.toggle.contains t.ctx else t.out1

/-- First byte in space 2 of a context's Basin share. -/
def Chip.shareAt (c : Chip) (x : Nat) : Nat :=
  match c.sharePlace x false with | some p => p.off | none => 0

/-- First byte in space 2 of a state buffer of a mode. -/
def Chip.stateAt (c : Chip) (d : StreamDecl) (settled b : Bool) : Nat :=
  (match c.placed (c.partOf d.ctx) (if settled then 2 else 1) d.idx with | some p => p.off | none => 0) +
    b2n b * (c.fgHdr d).state

/-- A frame step can bind now: it is the first waiting step of its context, no other runs, its context is resident, its inputs are
signalled and the OUT buffer it takes is not being packed. -/
def Chip.canBind (c : Chip) (t : Step) : Bool :=
  match t.subj with
  | .frame s _ _ =>
    match c.str.stream s with
    | none => false
    | some d =>
      let h := c.fgHdr d
      let mine := c.stepsOf t.ctx
      let out := c.shareAt t.ctx + (if c.outIndex t then h.out1 else h.out0)
      t.phase == .waiting && t.replay.isNone && c.ctxRuns t.ctx && c.resident t.ctx &&
        !mine.any (fun x => x.phase == .running) &&
        (mine.find? (fun x => x.phase == .waiting)).any (fun x => x.no == t.no) &&
        !c.fg.packs.any (fun p => p.ctx == t.ctx && p.outAt == out) && (c.inputs d t).isSome
  | _ => false

/-- Unpacked samples of a frame (R225). -/
def unpack (f : Nat) (bs : Bytes) : Bytes := bs.flatMap (fun b => toLe 2 (b.toNat * 2 ^ f))

/-- The parameter block (R226). -/
def paramBlock (d : StreamDecl) (t : Step) (j : Nat) (cold stale : Bool) : Bytes :=
  let flags := b2n t.anchor + 2 * b2n cold + 4 * b2n (d.fmt == 1) + 8 * b2n (d.partner != 255) + 16 * b2n stale + 32 * b2n (t.a == t.b)
  toLe 4 (rna32 (decide (t.e < 0)) t.e.natAbs t.den 0).toNat ++ toLe 2 (unsigned 16 t.e) ++ toLe 2 t.den ++ toLe 1 t.kind ++ toLe 1 flags ++ toLe 1 d.sc ++ toLe 1 d.tm ++
    toLe 2 (d.w * d.sc) ++ toLe 2 (d.h * d.sc) ++ toLe 8 j ++ toLe 8 t.a ++ toLe 8 t.b ++ zeros 24

/-- The bound objects of a frame step in binding order: address and size (R224). A replay binds the addresses of its journal entry (R235,
R515). -/
def Chip.objects (c : Chip) (d : StreamDecl) (t : Step) (b : Bound) (parity out1 : Bool) : List (Nat × Nat) :=
  let h := c.fgHdr d
  let settled := t.subj.settled
  let left := c.leftView d
  let disp := fun (k : Nat) => match left with | some l => opAt 3 (c.dispAt l k) | none => opAt 3 0
  let dispBytes := match left with | some l => l.dispBytes | none => 0
  let fresh := [opAt 1 h.inA, opAt 1 h.inB, opAt 3 (c.motionAt d b.field.closeIdx), disp b.da.1, disp b.db.1,
    opAt 2 (c.stateAt d settled parity), opAt 2 (c.stateAt d settled (!parity)), opAt 1 (if out1 then h.out1 else h.out0), opAt 1 h.param]
  (if t.binds.isEmpty then fresh else t.binds).zip
    [h.inBytes, h.inBytes, d.motionBytes, dispBytes, dispBytes, h.state, h.state, h.outBytes, 64]

/-- Resolve one operand: a bound operand becomes its object's address plus the byte offset, with the bytes that remain there; a
reserved index keeps the operand (R224). -/
def resolve (objs : List (Nat × Nat)) (op : Nat) : Nat × Option (Nat × Option Nat) :=
  if opSpace op = 1 && opOff op / 2 ^ 32 == 0xF8 then
    let i := opOff op / 2 ^ 24 % 256
    let o := op % 2 ^ 24
    match objs[i]? with
    | some (a, size) => (a + o, some (op, some (size - o)))
    | none => (op, some (op, none))
  else (op, none)

/-- A queued descriptor with its operands resolved. -/
def bindDesc (objs : List (Nat × Nat)) (q : QDesc) : QDesc :=
  let d := q.bytes
  let (a, xa) := resolve objs (dA d)
  let (b, xb) := resolve objs (dB d)
  let (o, xo) := resolve objs (dOut d)
  let (v, xv) := if readsV d then resolve objs (fieldAt d 0x20 8) else (fieldAt d 0x20 8, none)
  { q with bytes := setField (setField (setField (setField d 8 8 a) 16 8 b) 24 8 o) 0x20 8 v, bound := [xa, xb, xo, xv] }

/-- The kernels of a plain step list of a context's program, bound. -/
def Chip.listKernels (c : Chip) (ctx : Nat) (no : Word) (list : Nat) (objs : List (Nat × Nat)) : List (List QDesc) :=
  let desc := match c.ctxProg ctx with | some g => g.desc | none => []
  splitKernels (numberSignals 0 ((stepList desc list).map (fun x => bindDesc objs (plainDesc ctx no x.1 x.2))))

/-- Bind a frame step: unpack its frames, write its parameter block, record its bindings and enqueue its list. -/
def Chip.bindFrame (d : StreamDecl) (t : Step) (j : Nat) (b : Bound) (c : Chip) : Chip :=
  let h := c.fgHdr d
  let settled := t.subj.settled
  let banks := c.streamBanks d
  let share := c.shareAt t.ctx
  let parity := if t.binds.isEmpty then (c.mode d.idx settled).parity else t.parity
  let out1 := c.outIndex t
  let load := fun (f : ClosedFrame) (at_ : Nat) (c : Chip) =>
    c.basinWrite banks (share + at_) (unpack h.fUnpack (c.basinRead banks (c.frameSlot d f.slot + 4096) d.frameBytes))
  let c := load b.fb h.inB (load b.fa h.inA c)
  let c := c.basinWrite banks (share + h.param) (paramBlock d t j (c.coldNow d settled) (b.da.2 || b.db.2))
  let objs := c.objects d t b parity out1
  let c := c.updStep t.no (fun x => { x with binds := objs.map (·.1), parity := parity, stale := b.da.2 || b.db.2, out1 := out1 })
  let c := if !t.binds.isEmpty then c else c.updFg (fun g => { g with toggle := if out1 then g.toggle.filter (fun y => y != t.ctx) else g.toggle ++ [t.ctx] })
  (c.rejournal t.no).enqueue t.no (c.listKernels t.ctx t.no t.list objs)

/-- Failed unpack reads: the recovered ones count as corrected; the first that is not ends the unpack, and the step is replayed, or the
limit's outcome follows (R332, R333, R514). -/
def Chip.unpackFails (t : Step) : List Sys2Proof.JobErr → Chip → Chip × Bool
  | [], c => (c, false)
  | .check :: es, c => unpackFails t es c
  | .word a recovered :: es, c =>
    if recovered then unpackFails t es (c.bsCorrected a)
    else
      let c := c.basinFail .sequencer t.ctx t.no a
      (if t.mayReplay then c.askReplay t.no { code := 0, addr := a, basin := true } else c.basinOutcome a, true)

/-- FG_INPUTS_READY. -/
def Chip.fgInputs (no : Word) (fails : List Sys2Proof.JobErr) (c : Chip) : Chip :=
  match c.step? no with
  | none => c
  | some t =>
    match t.subj with
    | .frame s _ j =>
      match c.str.stream s with
      | none => c
      | some d =>
        match c.inputs d t with
        | none => c
        | some b =>
          let (c, failed) := Chip.unpackFails t fails c
          if failed then c else (c.bindFrame d t j b).schedule
    | _ => c

/-! ### Retirement (R221, R511) -/

/-- The loss map of a frame, from its slot (R84). -/
def Chip.lossMap (c : Chip) (d : StreamDecl) (f : ClosedFrame) : Bytes :=
  c.basinRead (c.streamBanks d) (c.frameSlot d f.slot) (ceilDiv d.units 8)

/-- A frame step's network completes: an anchor commits the state it wrote, and the pack starts unless the output is discarded. -/
def Chip.frameRetired (t : Step) (s : Nat) (settled : Bool) (j : Nat) (c : Chip) : Chip :=
  match c.str.stream s with
  | none => c
  | some d =>
    let h := c.fgHdr d
    let m := c.mode s settled
    let c := if t.anchor && t.epoch == m.epoch then
        c.updMode s settled (fun m => { m with parity := !m.parity, anchors := min 255 (m.anchors + 1) })
      else c
    if t.discard || c.cfg.coldAfterSeal.contains s then c else
    let lossOf := fun (n : Nat) => match c.held? s n with | some f => c.lossMap d f | none => []
    let p : Pack := { step := t.no, ctx := t.ctx, stream := s, settled := settled, j := j, pres := t.pres, kind := t.kind, e := t.e,
                      den := t.den, a := t.a, b := t.b, lossA := lossOf t.a, lossB := lossOf t.b,
                      outAt := c.shareAt t.ctx + (if t.out1 then h.out1 else h.out0), s0 := t.gen, cold := c.coldNow d settled,
                      prog := c.ctxHash t.ctx, epoch := t.epoch }
    let (c, ok) := c.openSlot d settled j t.no
    if ok then c.updFg (fun g => { g with packs := g.packs ++ [p] }) else c

/-- A pack may finish: a LIVE one no later than its presentation (R231). -/
def Pack.inTime (p : Pack) (now : Nat) : Bool := p.settled || decide (now ≤ p.pres)

end Sys2Proof.Machine
end

