-- ==== Sys2Proof/Machine/ServeStep.lean ====
section
/-! DEFINITION. The serving step unit: query records and their admission (R258 to R263), clips (R264, R265), vision steps (R266), batch
steps and the expansion of their templates (R267 to R273), sampling and the ends of sequences (R276 to R282). -/

namespace Sys2Proof.Machine

/-! ### Query records (R258 to R262) -/

/-- A clip entry (R260). -/
def clipOf (b : Bytes) : Clip :=
  { stream := fieldAt b 0 1, source := enc 1 (fieldAt b 1 1), stride := max 1 (fieldAt b 2 1), cap := clampNat 0 64 (fieldAt b 3 1),
    start := fieldAt b 8 8, stop := fieldAt b 16 8 }

/-- A query record with the token ids it holds so far. -/
def queryOf (b : Bytes) : Query :=
  { id := BitVec.ofNat 32 (fieldAt b 0 4), ctx := fieldAt b 4 2, topk := clampNat 1 1024 (fieldAt b 6 2),
    temp := BitVec.ofNat 16 (fieldAt b 8 2),
    stops := (List.range (clampNat 0 4 (fieldAt b 0x0A 1))).map (fun i => fieldAt b (0x20 + 4 * i) 4),
    clips := (List.range (clampNat 0 4 (fieldAt b 0x0B 1))).map (fun i => clipOf (slice b (0x30 + 32 * i) 32)),
    n := clampNat 0 32768 (fieldAt b 0x0C 4), maxNew := clampNat 0 32768 (fieldAt b 0x10 4),
    seed := BitVec.ofNat 64 (fieldAt b 0x18 8), tokens := (cut 4 (b.drop 0xB0)).map leNat }

/-- A token id is a placeholder. -/
def isClip (t : Nat) : Bool := decide (0xFFFFFF00 ≤ t)

/-- The clip that a placeholder names. -/
def clipIx (t : Nat) : Nat := t - 0xFFFFFF00

/-- A query id is held by a live query. -/
def Chip.liveQuery (c : Chip) (id : Word) : Bool := c.sv.queue.any (fun q => q.id == id) || c.sv.seqs.any (fun s => s.q.id == id)

/-- The failures of a complete record by R261: code and offset. -/
def Chip.queryFails (c : Chip) (q : Query) (staged : Bool) : List (Nat × Nat) :=
  let hdr := c.svHdr q.ctx
  let held := c.liveQuery q.id || (!staged && c.sv.staged.any (fun x => x.id == q.id))
  let ix := (List.range q.tokens.length).zip q.tokens
  let at_ := fun (i : Nat) => 0xB0 + 4 * i
  let noVision := match hdr with | some h => h.vlist == 0 | none => false
  let bad := fun (i t : Nat) =>
    if isClip t then decide (q.clips.length ≤ clipIx t) || (q.tokens.take i).contains t
    else match hdr with | some h => decide (h.vocab ≤ t) | none => false
  (if 256 ≤ c.sv.queue.length then [(0x22, 0)] else []) ++ (if held then [(0x23, 0)] else []) ++
    (if hdr.isNone then [(0x20, 4)] else if !c.ctxRunnable q.ctx then [(0x21, 4)] else []) ++
    (match hdr with
      | some h => if q.n ≠ 0 && q.maxNew ≠ 0 && c.str.poolBlocks h < reserveOf h q then [(0x25, 0x10)] else []
      | none => []) ++
    ix.filterMap (fun x => if isClip x.2 && noVision then some (0x21, at_ x.1) else if bad x.1 x.2 then some (0x24, at_ x.1) else none)

/-- The first field that fails, ties to the lower code. -/
def firstFail (l : List (Nat × Nat)) : Option (Nat × Nat) := leastBy (fun p => p.2 * 256 + p.1) l

/-- A query is rejected (R261). -/
def Chip.rejectQuery (code off : Nat) (c : Chip) : Chip :=
  (c.updSv (fun v => { v with reject := BitVec.ofNat 32 (off % 65536 * 65536 + code) })).svErr 0

/-- A complete record is checked and admitted; an empty one completes at once (R262). The failure, if any. -/
def Chip.admitQuery (q : Query) (staged : Bool) (c : Chip) : Chip × Option (Nat × Nat) :=
  match firstFail (c.queryFails q staged) with
  | some (code, off) => (c.rejectQuery code off, some (code, off))
  | none =>
    if q.n = 0 || q.maxNew = 0 then (c.endQuery q 3 0, none)
    else (c.updSv (fun v => { v with queue := v.queue ++ [q] }), none)

/-- What a QUERY payload does (R259): none is the record's misfit, answered with code 0x31. -/
def Chip.takeQuery (b : Bytes) (c : Chip) : Option (Chip × Option (Nat × Nat)) :=
  let q := queryOf b
  if b.length < 0xB0 || b.length % 4 ≠ 0 || q.n < q.tokens.length then none
  else if q.tokens.length = q.n then some (c.admitQuery q false)
  else
    let fails := (if 16 ≤ c.sv.staged.length then [(0x22, 0)] else []) ++
      (if c.liveQuery q.id || c.sv.staged.any (fun x => x.id == q.id) then [(0x23, 0)] else [])
    match firstFail fails with
    | some (code, off) => some (c.rejectQuery code off, some (code, off))
    | none => some (c.updSv (fun v => { v with staged := v.staged ++ [q] }), none)

/-- What a QUERY_TOKENS payload does: query id, index of the first id, the ids (R259). -/
def Chip.takeTokens (id : Word) (first : Nat) (ids : List Nat) (c : Chip) : Option (Chip × Option (Nat × Nat)) :=
  match c.sv.staged.find? (fun q => q.id == id) with
  | none => none
  | some q =>
    if first ≠ q.tokens.length || q.n < first + ids.length || ids.isEmpty || 2048 < ids.length then none
    else
      let q := { q with tokens := q.tokens ++ ids }
      if q.tokens.length < q.n then
        some (c.updSv (fun v => { v with staged := v.staged.map (fun x => if x.id == id then q else x) }), none)
      else some ((c.dropStaged id).admitQuery q true)

/-! ### Prompt rows -/

/-- A row of the expanded prompt: a token's embedding, or the k-th vision row of the sequence. -/
inductive PromptRow where
  | text (token : Nat)
  | vision (k : Nat)
  deriving DecidableEq, Repr

/-- The rows of an expanded prompt; vision rows are taken in the order in which the prompt reaches them. -/
def promptRows (nvt : Nat) (frames : List ClipFrame) : Nat → List Nat → List PromptRow
  | _, [] => []
  | k, t :: ts =>
    if isClip t then
      let n := (frames.filter (fun f => f.clip == clipIx t)).length * nvt
      (List.range n).map (fun i => PromptRow.vision (k + i)) ++ promptRows nvt frames (k + n) ts
    else .text t :: promptRows nvt frames k ts

/-! ### Clips (R264, R265) -/

/-- A ring that a clip reads: region declaration, address, entries, bytes of an entry. -/
structure ClipRing where
  decl : Nat
  base : Nat
  n : Nat
  size : Nat
  deriving DecidableEq, Repr

/-- The ring of a clip's source. -/
def Chip.clipRing (c : Chip) (d : StreamDecl) (source : Nat) : Option ClipRing :=
  if source = 0 then
    if d.settled then
      let (a, n) := c.ring d true
      some ⟨d.setRing, a, n, d.slotGeo.size⟩
    else none
  else if d.span ≠ 0 then some ⟨d.evid, (c.str.regionAt d.evid).1, d.span * d.fps, d.slotBytes⟩
  else none

/-- The size and format of a ring's frames, monochrome as 1. -/
def StreamDecl.clipSize (d : StreamDecl) (source : Nat) : Nat × Nat × Nat :=
  if source = 0 then (d.w * d.sc, d.h * d.sc, d.fmt) else (d.w, d.h, d.fmt)

/-- What the header of a ring entry says: its time and its key, j or the frame counter; none for an entry that is being written or never was. -/
def entryMark (source w : Nat) (h : Bytes) : Option (Nat × Nat) :=
  if fieldAt h 0 8 = ones64 || fieldAt h (if source = 0 then 0x2C else 0x1C) 2 ≠ w then none
  else some (fieldAt h (if source = 0 then 0x18 else 0x08) 8, fieldAt h 0 8)

/-- The complete entries of a ring, each as its time, key and index, by their headers; none where a read is refused, which faults the context
(R264, R347). -/
def Chip.ringEntries (x : Nat) (r : ClipRing) (source w : Nat) (c : Chip) : Chip × Option (List (Nat × Nat × Nat)) :=
  (List.range r.n).foldl (fun (a : Chip × Option (List (Nat × Nat × Nat))) i =>
    match a.2 with
    | none => a
    | some l =>
      match a.1.readFor .serving x noStep (r.base + i * r.size) 0x40 with
      | (c, none) => (c, none)
      | (c, some h) => (c, some (l ++ ((entryMark source w h).map (fun m => (m.1, m.2, i))).toList))) (c, some [])

/-- An entry of the ring older than a time has been written over (R265). -/
def Chip.ringGone (c : Chip) (s source start : Nat) : Bool :=
  (if source = 0 then (c.mode s true).gone else (c.stream s).evGone).any (fun t => decide (t < start))

/-- A context reads a region: its partition owns it, or it holds a grant (R37). -/
def Chip.mayReadRegion (c : Chip) (x decl : Nat) : Bool :=
  (c.str.region decl).any (fun r => r.owner == c.partOf x) || c.str.grants.any (fun g => g.grantee == x && g.region == decl)

/-- Every (stride)-th of a list, from its first. -/
def everyNth {α : Type} (stride : Nat) (l : List α) : List α :=
  ((List.range l.length).zip l).filterMap (fun p => if p.1 % stride = 0 then some p.2 else none)

/-- The frames that a clip offers, or the detail of R265; none where a read of the ring faults the context. -/
def Chip.clipFrames (x : Nat) (h : SvHdr) (ix : Nat) (k : Clip) (c : Chip) : Chip × Option (Except Nat (List ClipFrame)) :=
  match (c.str.stream k.stream).filter (·.active) with
  | none => (c, some (.error 1))
  | some d =>
    match c.clipRing d k.source with
    | none => (c, some (.error 1))
    | some r =>
      if !c.mayReadRegion x r.decl then (c, some (.error 2))
      else if d.clipSize k.source ≠ (h.vw, h.vh, h.vfmt) then (c, some (.error 3))
      else
        match c.ringEntries x r k.source (d.clipSize k.source).1 with
        | (c, none) => (c, none)
        | (c, some held) =>
          let sorted := held.mergeSort (fun a b => decide (a.1 ≤ b.1))
          if c.ringGone d.idx k.source k.start && sorted.head?.any (fun p => decide (k.start < p.1)) then (c, some (.error 4))
          else (c, some (.ok (((everyNth k.stride (sorted.filter (fun p => decide (k.start ≤ p.1) && decide (p.1 < k.stop)))).take k.cap).map
            (fun p => { clip := ix, stream := k.stream, source := k.source, entry := p.2.2, key := p.2.1 }))))

/-- Resolve the clips that placeholders name, in ascending index, within 32,768 rows and Vmax vision rows. -/
def Chip.resolveClips (x : Nat) (h : SvHdr) (q : Query) (c : Chip) : Chip × Option (Except Nat (List ClipFrame)) :=
  let used := (List.range q.clips.length).filter (fun i => q.tokens.any (fun t => isClip t && clipIx t == i))
  used.foldl (fun (acc : Chip × Option (Except Nat (List ClipFrame))) i =>
    match acc.2, q.clips[i]? with
    | some (.ok fs), some k =>
      match acc.1.clipFrames x h i k with
      | (c, some (.ok gs)) => (c, some (.ok (fs ++ gs.take (min ((32768 - q.textRows) / h.nvt) (h.vmax / h.nvt) - fs.length))))
      | stop => stop
    | _, _ => acc) (c, some (.ok []))

/-! ### The head of the queue (R263) -/

/-- Sequences of a context. -/
def Chip.ctxSeqs (c : Chip) (x : Nat) : List Seq := c.sv.seqs.filter (fun s => s.q.ctx == x)

/-- The head may take an entry: one is free, its context has room. -/
def Chip.headFits (c : Chip) (q : Query) (h : SvHdr) : Bool :=
  decide (c.sv.seqs.length < 1024) && decide ((c.ctxSeqs q.ctx).length < h.slots)

/-- A query becomes a sequence: VISION with frames to take, PREFILL otherwise. -/
def Chip.enterSeq (q : Query) (h : SvHdr) (frames : List ClipFrame) (c : Chip) : Chip :=
  let s : Seq :=
    { entry := (lowestFree 1024 (c.sv.seqs.map (·.entry))).getD 0, slot := (lowestFree h.slots ((c.ctxSeqs q.ctx).map (·.slot))).getD 0,
      q := q, st := if frames.isEmpty then .prefill else .vision, reserved := reserveOf h q, spare := c.reserveBlocks h q, blocks := [], frames := frames, vdone := 0,
      rows := (promptRows h.nvt frames 0 q.tokens).length, done := 0, positions := 0, gen := seedState q.seed, generated := 0, last := 0,
      cancel := false }
  c.updSv (fun v => { v with seqs := v.seqs ++ [s] })

/-- QUERY_ADMIT_HEAD: the head takes an entry, or waits; waiting for KV blocks sets SV_ERR_STATUS[3]. -/
def Chip.admitHead (c : Chip) : Chip :=
  match c.sv.queue with
  | [] => c
  | q :: _ =>
    match c.svHdr q.ctx with
    | none => c
    | some h =>
      if !c.headFits q h then c
      else if c.poolFree h < reserveOf h q then c.svErr 3
      else
        let pop := Chip.updSv (fun v => { v with queue := v.queue.drop 1 })
        match if q.tokens.any isClip then c.resolveClips q.ctx h q else (c, some (.ok [])) with
        | (c, none) => c
        | (c, some (.error detail)) => (pop c).endQuery q 7 detail
        | (c, some (.ok frames)) => (pop c).enterSeq q h frames

/-! ### Bindings and templates (R267 to R270) -/

/-- The binding index and field of an operand address, none for a plain one. -/
def svMark (op : Nat) : Option (Nat × Nat) :=
  if opSpace op = 1 && opOff op / 2 ^ 32 == 0xF8 then some (opOff op / 2 ^ 24 % 256, op % 2 ^ 24) else none

/-- A descriptor names a binding that makes it a template. -/
def isTemplate (d : Bytes) : Bool :=
  [dA d, dB d, dOut d].any (fun op => match svMark op with | some (b, _) => (16 ≤ b && b ≤ 20) || b == 22 | none => false)

/-- What an expansion works with: the header, the pool, table and vision addresses, segments and their sequences, R and Rs. -/
structure SvEnv where
  h : SvHdr
  pool : Nat
  table : Nat
  vision : Nat
  segs : List Seg
  seqs : List Seq
  rows : Nat
  samples : Nat
  deriving DecidableEq, Repr

def Chip.svEnv (c : Chip) (h : SvHdr) (segs : List Seg) : SvEnv :=
  { h := h, pool := (c.str.regionAt h.kv).1, table := (c.str.regionAt h.table).1, vision := (c.str.regionAt h.vision).1, segs := segs,
    seqs := segs.filterMap (fun g => c.sv.seqs.find? (fun s => s.entry == g.seq)),
    rows := segs.foldl (fun a g => a + g.rows) 0, samples := (segs.filter (·.sample)).length }

/-- Address of the slice of a KV head in a block's page of a layer, as an operand. -/
def SvEnv.sliceAt (e : SvEnv) (block layer : Nat) (value : Bool) (head : Nat) : Nat :=
  opAt 3 (e.pool + (block * e.h.layers + layer) * e.h.page + ((if value then e.h.hkv else 0) + head) * 256 * e.h.d * 2)

/-- Device address of the block table of a slot for a layer and KV head (R256). -/
def SvEnv.tableAt (e : SvEnv) (slot layer head : Nat) : Nat := e.table + ((slot * e.h.layers + layer) * e.h.hkv + head) * 2048

/-- The runs of a segment's rows within one KV block: first row, rows, first position. -/
def Seg.runs (g : Seg) : List (Nat × Nat × Nat) := (pieces 256 g.p0 g.rows).map (fun p => (g.r0 + (p.1 - g.p0), p.2, p.1))

/-- Set the three operands of a descriptor. -/
def withOps (d : Bytes) (a b o : Nat) : Bytes := setField (setField (setField d 8 8 a) 16 8 b) 24 8 o

/-- A plain COPY of rows (R269). -/
def copyDesc (ctx a o rows bytes ss ds : Nat) : Bytes :=
  toLe 1 10 ++ toLe 1 0 ++ toLe 1 ctx ++ toLe 1 0 ++ zeros 4 ++ toLe 8 a ++ zeros 8 ++ toLe 8 o ++ toLe 4 rows ++ toLe 4 bytes ++
    toLe 4 ss ++ toLe 4 ds ++ zeros 16

/-- The expansion of a KVNEW to KVPAGE COPY for a segment. -/
def SvEnv.expandKv (e : SvEnv) (d : Bytes) (fa fo : Nat) (g : Seg) (s : Seq) : List Bytes :=
  let h := e.h
  g.runs.map (fun x =>
    let (r, n, p) := x
    let src := (if fa.testBit 8 then h.vnew else h.knew) + (r * h.hkv + fa % 256) * 2 * h.d
    let dst := e.sliceAt (s.blocks.getD (p / 256) 0) (fo / 65536) (fo.testBit 8) (fo % 256) + p % 256 * 2 * h.d
    let d := withOps d src (dB d) dst
    setField (setField (setField (setField d 0x20 4 n) 0x24 4 (2 * h.d)) 0x28 4 (2 * h.hkv * h.d)) 0x2C 4 (2 * h.d))

/-- An ATTEND with its operands, query positions, key positions, first position and mask; paged. -/
def attendDesc (d : Bytes) (a b o nq nk first mask : Nat) : Bytes :=
  let d := withOps d a b o
  let d := setField (setField (setField (setField d 0x28 2 nq) 0x2A 2 nk) 0x2E 2 first) 0x36 1 mask
  setField d 0x37 1 (fieldAt d 0x37 1 / 2 * 2 + 1)

/-- The expansion of an ATTEND for a segment: one for a prefill segment; for a decode row one for the stack of each KV head. -/
def SvEnv.expandAttend (e : SvEnv) (d : Bytes) (fa fb fo : Nat) (g : Seg) : List Bytes :=
  let h := e.h
  let at_ := fun (base head : Nat) => base + (head * h.rcap + g.r0) * 2 * h.d
  let table := opAt 3 (e.tableAt g.slot (fb / 65536) (fb % 256))
  if !g.decode then [attendDesc d (at_ h.q (fa % 256)) table (at_ h.o (fo % 256)) g.rows (g.p0 + g.rows) g.p0 1]
  else
    let grp := h.h / h.hkv
    if fa % 256 % grp ≠ 0 then []
    else
      let wide := 2 * h.rcap * h.d
      [copyDesc (dCtx d) (at_ h.q (fa % 256)) h.stack grp (2 * h.d) wide (2 * h.d),
        attendDesc d h.stack table (h.stack + 32768) grp (g.p0 + 1) (fieldAt d 0x2E 2) 0,
        copyDesc (dCtx d) (h.stack + 32768) (at_ h.o (fo % 256)) grp (2 * h.d) (2 * h.d) wide]

/-- The expansion of an SROW COPY for a segment: its sampling row, if it has one. -/
def SvEnv.expandRow (e : SvEnv) (d : Bytes) (g : Seg) : List Bytes :=
  if !g.sample then [] else
  let row := 2 * e.h.dm
  let rank := ((e.segs.takeWhile (fun x => decide (x.r0 < g.r0))).filter (·.sample)).length
  let d := withOps d (e.h.hid + (g.r0 + g.rows - 1) * row) (dB d) (e.h.sin + rank * row)
  [setField (setField d 0x20 4 1) 0x24 4 row]

/-- Resolve the bindings of a descriptor that is no template: every binding is reserved but VISOUT in a vision step (R267). -/
def svPlain (ctx : Nat) (no : Word) (place : Nat) (visOut : Option Nat) (d : Bytes) : QDesc :=
  let res := fun (op : Nat) => match svMark op with
    | none => (op, none)
    | some (b, _) => match b, visOut with
      | 21, some a => (a, none)
      | _, _ => (op, some (op, none))
  let (a, xa) := res (dA d)
  let (b, xb) := res (dB d)
  let (o, xo) := res (dOut d)
  let xv := if readsV d then (res (fieldAt d 0x20 8)).2 else none
  { plainDesc ctx no place (withOps d a b o) with bound := [xa, xb, xo, xv] }

/-- The expansion of one template for one segment; a combination of bindings that R269 does not list keeps its reserved operands. -/
def SvEnv.expandOne (e : SvEnv) (ctx : Nat) (no : Word) (x : Nat × Bytes) (g : Seg) (s : Seq) : List QDesc :=
  let d := setField x.2 1 1 (fieldAt x.2 1 1 / 2 * 2)
  let plain := fun (ds : List Bytes) => ds.map (plainDesc ctx no x.1)
  match dOpcode d, svMark (dA d), svMark (dB d), svMark (dOut d) with
  | 10, some (19, fa), none, some (20, fo) => plain (e.expandKv d fa fo g s)
  | 8, some (16, fa), some (18, fb), some (17, fo) => plain (e.expandAttend d fa fb fo g)
  | 10, some (22, _), none, some (22, _) => plain (e.expandRow d g)
  | _, _, _, _ => [svPlain ctx no x.1 none d]

/-- A template group's kernel (R270): segment by segment, template by template. A STEP_END moves to the last descriptor; an empty
expansion that carries one leaves a COPY of no rows to close the step. -/
def SvEnv.expandGroup (e : SvEnv) (ctx : Nat) (no : Word) (grp : List (Nat × Bytes)) : List QDesc :=
  let ds := (e.segs.zip e.seqs).flatMap (fun p => grp.flatMap (fun x => e.expandOne ctx no x p.1 p.2))
  if grp.any (fun x => dStepEnd x.2) then
    match ds.getLast? with
    | some l => ds.dropLast ++ [{ l with bytes := setField l.bytes 1 1 (fieldAt l.bytes 1 1 / 2 * 2 + 1) }]
    | none => [plainDesc ctx no (grp.head?.map (·.1) |>.getD 0) (setField (copyDesc ctx 0 0 0 0 0 0) 1 1 1)]
  else ds

/-- Put the row counts into count fields (R268). -/
def SvEnv.counts (e : SvEnv) (d : Bytes) : Bytes :=
  let offs := match dOpcode d with | 1 => [0x20, 0x24, 0x28] | 6 => [0x20, 0x24] | 7 => [0x20, 0x24] | 10 => [0x20] | _ => []
  offs.foldl (fun d o =>
    if fieldAt d o 4 = 0xFFFFFFF0 then setField d o 4 e.rows
    else if fieldAt d o 4 = 0xFFFFFFF1 then setField d o 4 e.samples
    else d) d

/-- A list cut into runs of templates and runs of others. -/
def templateRuns : List (Nat × Bytes) → List (Bool × List (Nat × Bytes))
  | [] => []
  | x :: xs =>
    let t := isTemplate x.2
    match templateRuns xs with
    | [] => [(t, [x])]
    | (u, r) :: rest => if t == u then (t, x :: r) :: rest else (t, [x]) :: (u, r) :: rest

/-- Number the SIGNALs of a step across its kernels. -/
def numberKernels : Nat → List (List QDesc) → List (List QDesc)
  | _, [] => []
  | n, k :: ks => numberSignals n k :: numberKernels (n + (k.filter (fun d => dOpcode d.bytes == 12)).length) ks

/-- The kernels of a batch step. -/
def Chip.batchKernels (c : Chip) (ctx : Nat) (no : Word) (e : SvEnv) : List (List QDesc) :=
  let desc := match c.ctxProg ctx with | some g => g.desc | none => []
  let list := (servingList desc e.h.batch).map (fun x => (x.1, e.counts x.2))
  numberKernels 0 ((templateRuns list).flatMap (fun r =>
    if r.1 then
      let k := e.expandGroup ctx no r.2
      if k.isEmpty then [] else [k]
    else splitKernels (r.2.map (fun x => svPlain ctx no x.1 none x.2))))

/-! ### Reading and writing through the header's operands -/

/-- Where a serving step's own accesses run: the context's shares, array-local spaces by array 0. -/
def Chip.svAccess (c : Chip) (ctx : Nat) (no : Word) : Env :=
  c.env 0 { ctx := ctx, step := no, bytes := [], place := 0, sig := 0, bound := [] }

/-- An access of the serving step unit that R138 or R347 refuses. -/
def Chip.svRefused (c : Chip) (e : Env) (op len : Nat) (write : Bool) : Option Bad :=
  c.checkSpace e true { op := op, len := len, write := write, bound := none }

/-- A refused access of the unit faults the context with code 0x03 (R347). -/
def Chip.svFault (ctx : Nat) (no : Word) (b : Bad) (c : Chip) : Chip :=
  let c := match b.viol with | some v => c.recordViol .serving ctx v.1 v.2 no | none => c
  c.ctxFault ctx 3

/-! ### Assembling a batch step (R271) -/

/-- The decode rows of a batch: the sequences taken, in rotation. -/
def rotated {α : Type} (l : List α) (rot n : Nat) : List α := ((l.drop (rot % max 1 l.length)) ++ l.take (rot % max 1 l.length)).take n

/-- Add the prefill segments while rows remain. -/
def addPrefill (chunk budget : Nat) : List Seq → Nat → List Seg → List Seg
  | [], _, acc => acc
  | s :: ss, rows, acc =>
    let n := min (min chunk (s.rows - s.done)) (budget - rows)
    if n = 0 then addPrefill chunk budget ss rows acc
    else addPrefill chunk budget ss (rows + n)
      (acc ++ [{ seq := s.entry, slot := s.slot, rows := n, r0 := rows, p0 := s.done, decode := false, sample := s.done + n == s.rows }])

/-- The segments of the next batch step of a context, and the new rotation. -/
def Chip.assemble (c : Chip) (x : Nat) (h : SvHdr) : List Seg × Nat :=
  let d := (c.ctxSeqs x).filter (fun s => s.st == .decode)
  let p := (c.ctxSeqs x).filter (fun s => s.st == .prefill)
  let b := min c.sv.budget.toNat h.rcap
  let cap := if p.isEmpty then b else b / 2
  let rot := (assoc x c.sv.rot).getD 0
  let dec := rotated d rot cap
  let segs := ((List.range dec.length).zip dec).map (fun q =>
    ({ seq := q.2.entry, slot := q.2.slot, rows := 1, r0 := q.1, p0 := q.2.positions, decode := true, sample := true } : Seg))
  (addPrefill c.sv.chunk.toNat b p segs.length segs, (rot + dec.length) % max 1 d.length)

/-- A serving step of a context is issued and not retired. -/
def Chip.svBusy (c : Chip) (x : Nat) : Bool := !(c.stepsOf x).isEmpty

/-- A sequence waits for vision steps. -/
def Chip.visionWaiting (c : Chip) (x : Nat) : Bool := (c.ctxSeqs x).any (fun s => s.st == .vision)

/-- BATCH_STEP_ASSEMBLE may issue (R271, R272): the context runs, has no serving step in flight, a vision step is not due first, and some
row can be packed. -/
def Chip.canBatch (c : Chip) (x : Nat) : Bool :=
  match c.svHdr x with
  | none => false
  | some h =>
    c.ctxRunnable x && !c.svBusy x && !(c.sv.lastBatch.contains x && c.visionWaiting x) && !(c.assemble x h).1.isEmpty &&
      c.canOpen (c.partOf x) true

/-- Give a sequence the blocks that its positions below n reach, and write their table entries (R256, R257). -/
def Chip.growSeq (e : SvEnv) (ctx : Nat) : Nat → Nat → Nat → Chip → Option Bad × Chip
  | 0, _, _, c => (none, c)
  | fuel + 1, entry, n, c =>
    match c.sv.seqs.find? (fun s => s.entry == entry) with
    | none => (none, c)
    | some s =>
      if ceilDiv n 256 ≤ s.blocks.length then (none, c) else
      let b := s.spare.headD 0
      let t := s.blocks.length
      let c := c.updSv (fun v => { v with seqs := v.seqs.map (fun x =>
        if x.entry == entry then { x with spare := x.spare.drop 1, blocks := x.blocks ++ [b] } else x) })
      let writes := (List.range e.h.layers).flatMap (fun l => (List.range e.h.hkv).map (fun k =>
        (e.tableAt s.slot l k + 16 * t, toLe 8 (e.sliceAt b l false k) ++ toLe 8 (e.sliceAt b l true k))))
      match writes.findSome? (fun w => c.refusal (.ctx ctx) true w.1 16) with
      | some v => (some { code := 3, addr := opAt 3 v.2, viol := some v }, c)
      | none => Chip.growSeq e ctx fuel entry n (writes.foldl (fun c w => c.dramWrite w.1 w.2) c)

/-- Issue a batch step. -/
def Chip.issueBatch (x : Nat) (h : SvHdr) (c : Chip) : Chip :=
  let (segs, rot) := c.assemble x h
  let no := c.tt.stepNo
  let (bad, c) := segs.foldl (fun (a : Option Bad × Chip) g =>
    match a.1 with
    | some b => (some b, a.2)
    | none => Chip.growSeq (a.2.svEnv h segs) x 129 g.seq (g.p0 + g.rows) a.2) (none, c)
  match bad with
  | some b => c.svFault x no b
  | none =>
    let c := c.updSv (fun v => { v with rot := assocSet x rot v.rot, lastBatch := if v.lastBatch.contains x then v.lastBatch else v.lastBatch ++ [x] })
    let ks := c.batchKernels x no (c.svEnv h segs)
    let waits := waitObjects (ks.flatten.map (·.bytes))
    let c := c.issue { blankStep x (c.partOf x) (c.partBe (c.partOf x)) (.batch c.sv.steps) with segs := segs } waits
    ((c.enqueue no ks).updStep no (fun s => { s with phase := .waiting })).schedule

/-- The bytes of an input row of X (R270). -/
def Chip.rowBytes (c : Chip) (x : Nat) (h : SvHdr) (s : Seq) (r : PromptRow) : Nat × Nat :=
  match r with
  | .text t =>
    let set := match c.ctxProg x with | some p => p.sets.getD h.emb 65535 | none => 65535
    let region := match c.str.weight set with | some w => w.region | none => 65535
    ((c.str.regionAt region).1 + t * h.dm * 2, h.dm * 2)
  | .vision k => ((c.str.regionAt h.vision).1 + (s.slot * h.vmax + k) * h.dm * 2, h.dm * 2)

/-- Write X for a batch step. -/
def Chip.writeX (t : Step) (h : SvHdr) (c : Chip) : Chip :=
  let e := c.svAccess t.ctx t.no
  let rows := t.segs.flatMap (fun g =>
    match c.sv.seqs.find? (fun s => s.entry == g.seq) with
    | none => []
    | some s =>
      let ps := if g.decode then [PromptRow.text s.last] else (promptRows h.nvt s.frames 0 s.q.tokens).drop g.p0 |>.take g.rows
      ((List.range ps.length).zip ps).map (fun p => (g.r0 + p.1, c.rowBytes t.ctx h s p.2)))
  let total := rows.length * h.dm * 2
  match c.svRefused e h.x total true with
  | some b => c.svFault t.ctx t.no b
  | none => (rows.foldl (fun (a : Chip × Bool) r =>
      if !a.2 then a else
      match a.1.readFor .serving t.ctx t.no r.2.1 r.2.2 with
      | (c, none) => (c, false)
      | (c, some bs) => (c.opWrite e h.x (r.1 * h.dm * 2) bs, true)) (c, true)).1

/-! ### Vision steps (R266, R272) -/

/-- The earliest-admitted sequence in VISION of a context. -/
def Chip.visionSeq (c : Chip) (x : Nat) : Option Seq := (c.ctxSeqs x).find? (fun s => s.st == .vision)

/-- VISION_STEP may issue: after a batch step, or when no batch step can be assembled. -/
def Chip.canVision (c : Chip) (x : Nat) : Bool :=
  match c.svHdr x with
  | none => false
  | some h =>
    c.ctxRunnable x && !c.svBusy x && c.visionWaiting x && (c.sv.lastBatch.contains x || (c.assemble x h).1.isEmpty) &&
      c.canOpen (c.partOf x) false

/-- The frame that a vision step takes stands in its ring as it did when the clip was resolved (R265); none where the read is refused. -/
def Chip.frameStands (x : Nat) (no : Word) (f : ClipFrame) (c : Chip) : Chip × Option Bool :=
  match (c.str.stream f.stream).bind (fun d => c.clipRing d f.source) with
  | none => (c, some false)
  | some r =>
    match c.readFor .serving x no (r.base + f.entry * r.size) 8 with
    | (c, none) => (c, none)
    | (c, some bs) => (c, some (leNat bs == f.key))

/-- Issue a vision step of a sequence, or end its query when the entry has been overwritten. -/
def Chip.issueVision (x : Nat) (h : SvHdr) (c : Chip) : Chip :=
  match c.visionSeq x with
  | none => c
  | some s =>
    match s.frames[s.vdone]? with
    | none => c
    | some f =>
      let no := c.tt.stepNo
      match c.frameStands x no f with
      | (c, none) => c
      | (c, some false) => c.endSeq s 7 5 none
      | (c, some true) =>
      let c := c.updSv (fun v => { v with lastBatch := v.lastBatch.filter (fun y => y != x) })
      let out := opAt 3 ((c.str.regionAt h.vision).1 + (s.slot * h.vmax + s.vdone * h.nvt) * h.dm * 2)
      let desc := match c.ctxProg x with | some g => g.desc | none => []
      let ks := numberKernels 0 (splitKernels ((servingList desc h.vlist).map (fun q => svPlain x no q.1 (some out) q.2)))
      let c := c.issue (blankStep x (c.partOf x) (c.partBe (c.partOf x)) (.vision s.q.id s.vdone)) (waitObjects (ks.flatten.map (·.bytes)))
      ((c.enqueue no ks).updStep no (fun s => { s with phase := .waiting })).schedule

/-- Codes of a plane packed four to five bytes, rows of n (R239). -/
def unpackPlane (n rows : Nat) (bs : Bytes) : List Nat :=
  (List.range rows).flatMap (fun i =>
    ((cut 5 (slice bs (i * (ceilDiv n 4 * 5)) (ceilDiv n 4 * 5))).flatMap (fun g =>
      let v := leNat g
      [v % 1024, v / 1024 % 1024, v / 1048576 % 1024, v / 1073741824 % 1024])).take n)

/-- A16 words of codes scaled by 2^f; a value beyond A16 saturates, as every A16 result does (R159, R266, R283; log 131). -/
def visWords (f : Nat) (codes : List Nat) : Bytes := codes.flatMap (fun q => toLe 2 (min 32767 (q * 2 ^ f)))

/-- Pad a run of bytes to a multiple of 64. -/
def pad64 (b : Bytes) : Bytes := b ++ zeros (roundUp b.length 64 - b.length)

/-- Interleave two planes. -/
def interleave (a b : List Nat) : List Nat := (a.zip b).flatMap (fun p => [p.1, p.2])

/-- The codes of an entry's planes and its provenance words: luma, interleaved chroma, provenance (R266). -/
def StreamDecl.visCodes (d : StreamDecl) (source : Nat) (bs : Bytes) : List Nat × List Nat × List Nat :=
  if source = 0 then
    let g := d.slotGeo
    let luma := unpackPlane g.wo g.ho (slice bs 4096 g.luma)
    let chroma := if d.fmt = 1 then [] else unpackPlane g.wo (g.ho / 2) (slice bs g.chromaAt g.chroma)
    (luma, chroma, (slice bs g.provAt g.prov).map (·.toNat))
  else
    let px := (slice bs 4096 d.frameBytes).map (·.toNat)
    let n := d.w * d.h
    let chroma := if d.fmt = 1 then [] else interleave (px.drop n |>.take (n / 4)) (px.drop (n + n / 4))
    let one := { d with sc := 1 }
    let map := slice bs 0x40 (ceilDiv d.units 8)
    let bw := ceilDiv d.w 16
    (px.take n, chroma, (List.range (ceilDiv d.h 16 * bw)).map (fun i => if lossRow one [map] (i / bw) then 0x20 else 0))

/-- The bytes of VIN for a frame (R266). -/
def StreamDecl.visBytes (d : StreamDecl) (h : SvHdr) (source : Nat) (bs : Bytes) : Bytes :=
  let (luma, chroma, prov) := d.visCodes source bs
  pad64 (visWords h.fvis luma) ++ pad64 (visWords h.fvis chroma) ++ prov.flatMap (fun q => toLe 2 q)

/-- Unpack a vision step's frame into VIN; an entry overwritten since ends the query (R265, R266). -/
def Chip.unpackVision (t : Step) (h : SvHdr) (s : Seq) (frame : Nat) (c : Chip) : Chip :=
  match (s.frames[frame]?).bind (fun f => (c.str.stream f.stream).bind (fun d => (c.clipRing d f.source).map (fun r => (f, d, r)))) with
  | none => c
  | some (f, d, r) =>
    match c.frameStands t.ctx t.no f with
    | (c, none) => c
    | (c, some false) => (c.abandonStep t.no).endSeq s 7 5 none
    | (c, some true) =>
      match c.readFor .serving t.ctx t.no (r.base + f.entry * r.size) r.size with
      | (c, none) => c
      | (c, some bs) =>
        let bytes := d.visBytes h f.source bs
        let e := c.svAccess t.ctx t.no
        match c.svRefused e h.vin bytes.length true with
        | some b => c.svFault t.ctx t.no b
        | none => c.opWrite e h.vin 0 bytes

/-- Before the first kernel of a serving step is placed, the unit writes its inputs: X of a batch step, VIN of a vision step (R266,
R270, R515). -/
def Chip.stage (no : Word) (c : Chip) : Chip :=
  match c.step? no with
  | none => c
  | some t =>
    if t.phase != .waiting then c else
    match c.svHdr t.ctx with
    | none => c
    | some h =>
      match t.subj with
      | .batch _ => (c.updStep no (fun s => { s with phase := .running })).writeX t h
      | .vision q frame =>
        let c := c.updStep no (fun s => { s with phase := .running })
        match c.sv.seqs.find? (fun s => s.q.id == q) with
        | some s => c.unpackVision t h s frame
        | none => c
      | _ => c

/-! ### Sampling (R276 to R278) -/

/-- The token indices in rank order: logit descending, equal logits by smaller index. -/
def ranks (lg : List Word) : List (Word × Nat) :=
  (lg.zip (List.range lg.length)).mergeSort (fun a b => !fLt a.1 b.1)

/-- Cumulative weights of the ranked logits. -/
def cumulative (top it : Word) : Word → List (Word × Nat) → List (Word × Nat)
  | _, [] => []
  | tot, (l, i) :: rest =>
    let tot := fAdd tot (fEx (fMul (fSub l top) it))
    (tot, i) :: cumulative top it tot rest

/-- Sample one token: the token and the generator state after it. -/
def sampleToken (lg : List Word) (topk : Nat) (temp : BitVec 16) (gen : Dword) : Nat × Dword :=
  let rank := ranks lg
  let best := (rank.head?.map (·.2)).getD 0
  let t := take16 temp
  if topk = 1 || !fLt 0 t then (best, gen)
  else
    let k := rank.take (min topk lg.length)
    let cs := cumulative ((rank.head?.map (·.1)).getD 0) (fDiv f32One t) 0 k
    let tot := (cs.getLast?.map (·.1)).getD 0
    let (x, gen) := xs64 gen
    let lim := fMul (uniform x) tot
    match cs.find? (fun p => fLt lim p.1) with
    | some p => (p.2, gen)
    | none => ((cs.getLast?.map (·.2)).getD best, gen)

/-- Change one sequence. -/
def Chip.updSeq (entry : Nat) (f : Seq → Seq) (c : Chip) : Chip :=
  c.updSv (fun v => { v with seqs := v.seqs.map (fun s => if s.entry == entry then f s else s) })

/-- The reason with which a sampled token ends its query, if it does (R278). -/
def tokenEnd (s : Seq) (tok generated positions : Nat) : Option Nat :=
  if s.q.stops.contains tok then some 0
  else if s.q.maxNew ≤ generated then some 1
  else if 32768 ≤ positions then some 2
  else none

/-- One segment of a retired batch step: positions, sampling, token and final frames. logits: the row's logits. -/
def Chip.retireSeg (no : Word) (g : Seg) (logits : List Word) (c : Chip) : Chip :=
  match c.sv.seqs.find? (fun s => s.entry == g.seq) with
  | none => c
  | some s =>
    let positions := g.p0 + g.rows
    if s.cancel then (c.updSeq s.entry (fun s => { s with positions := positions })).endSeq { s with positions := positions } 4 0 (some no)
    else if !g.sample then c.updSeq s.entry (fun s => { s with positions := positions, done := positions })
    else
      let (tok, gen) := sampleToken logits s.q.topk s.q.temp s.gen
      let n := s.generated + 1
      let fin := tokenEnd s tok n positions
      let c := match fin with
        | some _ => c.dropSeq s.entry
        | none => c.updSeq s.entry (fun s => { s with
            st := .decode
            positions := positions
            done := s.rows
            gen := gen
            generated := n
            last := tok })
      c.sendToken { query := s.q.id, ctx := s.q.ctx, tok := some (n - 1, tok), fin := fin.map (fun r => (r, 0)), vframes := s.frames.length,
                    rows := s.rows, step := some no }

/-- A batch step retires (R276, R281, R282). The step is closed before its frames are sent. -/
def Chip.batchRetired (t : Step) (c : Chip) : Chip :=
  match c.svHdr t.ctx with
  | none => c
  | some h =>
    let rows := t.segs.foldl (fun a g => a + g.rows) 0
    let samples := (t.segs.filter (·.sample)).length
    let e := c.svAccess t.ctx t.no
    let c := c.updSv (fun v => { v with
      lastRows := BitVec.ofNat 32 (samples * 65536 + rows)
      lastUs := BitVec.ofNat 32 ((c.clk.dev - t.opened) / 1000)
      steps := sat64 (v.steps + 1) })
    let c := c.deviceSignal 5 h.stepObj
    match c.svRefused e h.logits (samples * h.vocab * 4) false with
    | some b => if samples = 0 then t.segs.foldl (fun c g => c.retireSeg t.no g []) c else c.svFault t.ctx t.no b
    | none =>
      let base := c
      t.segs.foldl (fun c g =>
        let rank := ((t.segs.takeWhile (fun x => decide (x.r0 < g.r0))).filter (·.sample)).length
        c.retireSeg t.no g (if g.sample then f32s (base.opRead e h.logits (rank * h.vocab * 4) (h.vocab * 4)) else [])) c

/-- A vision step retires (R272, R279). -/
def Chip.visionRetired (q : Word) (c : Chip) : Chip :=
  match c.sv.seqs.find? (fun s => s.q.id == q) with
  | none => c
  | some s =>
    if s.cancel then c.endSeq s 4 0 none
    else c.updSeq s.entry (fun s => { s with
      vdone := s.vdone + 1
      st := if s.vdone + 1 = s.frames.length then .prefill else .vision })

end Sys2Proof.Machine
end

