-- ==== Sys2Proof/Machine/Image.lean ====
section
/-! DEFINITION. Structure images: the container (R23 to R30, R40, R551), single-field clamping (R46), the declarations' formats (R31 to
R40, R291, R389, R392), and the stored image (R56). -/

namespace Sys2Proof.Machine

/-! ### Declarations of an image -/

/-- A declaration with the image offset of its first byte; none for one kept from the running structure. -/
structure Ent (α : Type) where
  off : Option Nat
  d : α
  deriving Repr

/-- A removal (R39). -/
structure Removal where
  kind : Nat
  id : Nat
  deriving DecidableEq, Repr

/-- The declarations of an image, or of a structure under validation. -/
structure Draft where
  serial : Nat := 0
  cycle : Nat := 100
  store : Nat := 0
  resOff : Option Nat := none
  parts : List (Ent PartDecl) := []
  berths : List (Ent BerthDecl) := []
  ctxs : List (Ent CtxDecl) := []
  regions : List (Ent RegionDecl) := []
  grants : List (Ent GrantDecl) := []
  streams : List (Ent StreamDecl) := []
  tide : List (Ent TideDecl) := []
  syncs : List (Ent SyncDecl) := []
  routes : List (Ent RouteDecl) := []
  outputs : List (Ent OutputDecl) := []
  windows : List (Ent WindowDecl) := []
  progs : List (Ent ProgramDecl) := []
  weights : List (Ent WeightDecl) := []
  removals : List (Ent Removal) := []

/-! ### The container -/

/-- A section directory entry and its own offset. -/
structure Sec where
  type : Nat
  off : Nat
  count : Nat
  len : Nat
  dir : Nat
  deriving DecidableEq, Repr

/-- Entry size and greatest count of a section type (R30); size 0 for the variable one, none for a reserved type. -/
def secInfo (type : Nat) : Option (Nat × Nat) :=
  match type with
  | 1 => some (32, 1) | 2 => some (16, 8) | 3 => some (16, 16) | 4 => some (16, 256) | 5 => some (16, 4096) | 6 => some (8, 1024)
  | 7 => some (64, 256) | 8 => some (16, 8192) | 9 => some (16, 4096) | 10 => some (4, 1024) | 11 => some (16, 4) | 12 => some (32, 64)
  | 13 => some (0, 1024) | 14 => some (48, 256) | 15 => some (4, 1024) | _ => none

/-- A rejection: code and offset. -/
abbrev Reject := Nat × Nat

/-- The checks of R23 and R25: the kind, or the rejection with whether the kind was found. -/
def headerCheck (img : Bytes) (len : Nat) : Except (Reject × Option Nat) Nat :=
  if 8 * 2 ^ 20 < len || len % 16 ≠ 0 then .error ((1, 8), none)
  else if fieldAt img 0 4 ≠ 0x49535844 then .error ((1, 0), none)
  else if fieldAt img 4 2 ≠ 0x0100 then .error ((1, 4), none)
  else
    let k := fieldAt img 6 2
    if 1 < k then .error ((1, 6), none)
    else if fieldAt img 8 4 ≠ len then .error ((1, 8), some k)
    else if fieldAt img 12 2 = 0 || 32 < fieldAt img 12 2 then .error ((1, 12), some k)
    else .ok k

/-- The directory. -/
def directory (img : Bytes) : List Sec :=
  (List.range (fieldAt img 12 2)).map (fun i =>
    let e := slice img (0x40 + 16 * i) 16
    { type := fieldAt e 0 2, off := fieldAt e 4 4, count := fieldAt e 8 4, len := fieldAt e 12 4, dir := 0x40 + 16 * i })

/-- The entries of a Programs section, as many as its count says, each of the length that its own field gives: offset and bytes; none
where they do not fill the section exactly (R27). -/
def programEntries : Nat → Nat → Bytes → Option (List (Nat × Bytes))
  | 0, _, bs => if bs.isEmpty then some [] else none
  | n + 1, off, bs =>
    let len := fieldAt bs 12 4
    if bs.length < 16 || bs.length < len then none
    else (programEntries n (off + len) (bs.drop len)).map (fun r => (off, bs.take len) :: r)

/-- A program entry keeps R40: its length is what its counts give, its descriptor bytes whole descriptors. -/
def programOk (b : Bytes) : Bool :=
  fieldAt b 12 4 == 32 + fieldAt b 4 4 + 4 * (fieldAt b 8 2 + fieldAt b 10 2) && fieldAt b 4 4 % 64 == 0

/-- The length of a section is the one that its entry count and entry size, or its program entries, give (R27). -/
def Sec.lengthOk (img : Bytes) (size : Nat) (s : Sec) : Bool :=
  if size = 0 then (programEntries s.count s.off (slice img s.off s.len)).isSome else s.len == s.count * size

/-- A section keeps R27 and R551 after those before it; stop is where they end, seen their types. DESIGN CHOICE: an entry that breaks
both rules reports R551's code 0x04 (log 101). -/
def sectionCheck (img : Bytes) (kind len stop : Nat) (seen : List Nat) (s : Sec) : Option Reject :=
  match secInfo s.type with
  | none => some (4, s.dir)
  | some (size, maxn) =>
    if (s.type = 1 && kind = 1) || (s.type = 15 && kind = 0) then some (4, s.dir)
    else if fieldAt img (s.dir + 2) 2 ≠ 1 || maxn < s.count || (s.type = 1 && s.count ≠ 1) || s.off % 16 ≠ 0 || s.off < stop ||
        len < s.off + s.len + 384 || !s.lengthOk img size || seen.contains s.type then some (1, s.dir)
    else none

/-- Check the sections in directory order. -/
def sectionsCheck (img : Bytes) (kind len : Nat) : List Sec → Nat → List Nat → Option Reject
  | [], _, _ => none
  | s :: ss, stop, seen =>
    match sectionCheck img kind len stop seen s with
    | some r => some r
    | none => sectionsCheck img kind len ss (s.off + s.len) (seen ++ [s.type])

/-- The entries of a section that keeps R27: offset and bytes. -/
def sectionEntries (img : Bytes) (s : Sec) : List (Nat × Bytes) :=
  match secInfo s.type with
  | some (0, _) => (programEntries s.count s.off (slice img s.off s.len)).getD []
  | some (size, _) =>
    let es := (cut size (slice img s.off s.len)).take s.count
    ((List.range es.length).map (fun i => s.off + i * size)).zip es
  | none => []

/-- The first rejection of the directory, in ascending offset: that of its first entry, then the missing Resources section of a full image
at the same offset 0x40 (R551), then those of the other entries. -/
def directoryCheck (img : Bytes) (kind len : Nat) (secs : List Sec) : Option Reject :=
  match sectionsCheck img kind len secs (0x40 + 16 * secs.length) [] with
  | some r => if r.2 ≠ 0x40 && kind = 0 && !secs.any (fun s => s.type == 1) then some (4, 0x40) else some r
  | none => if kind = 0 && !secs.any (fun s => s.type == 1) then some (4, 0x40) else none

/-- The container stage, in ascending offset (R44): the header, the directory, then the program entries; it gives the kind and the
entries of each section type. -/
def container (img : Bytes) (len : Nat) : Except (Reject × Option Nat) (Nat × List (Nat × List (Nat × Bytes))) :=
  match headerCheck img len with
  | .error e => .error e
  | .ok kind =>
    let secs := directory img
    match directoryCheck img kind len secs with
    | some r => .error (r, some kind)
    | none =>
      let all := secs.map (fun s => (s.type, sectionEntries img s))
      match ((assoc 13 all).getD []).find? (fun e => !programOk e.2) with
      | some e => .error ((1, e.1), some kind)
      | none => .ok (kind, all)

/-! ### Single-field clamping (R46) -/

/-- How a field of an entry is clamped: into a range; to an even value in a range; to 1, 2 or 4; to 8 or 10. -/
inductive FieldClamp where
  | range (off size lo hi : Nat)
  | even (off lo hi : Nat)
  | pow (off : Nat)
  | bpc (off : Nat)
  deriving DecidableEq, Repr

/-- The clamped fields of each section type. The counts of a region declaration and of a sync allocation are not clamped (R47). DESIGN
CHOICE: the budget of a kind-3 tide entry, which R291 has the device ignore, is clamped and counted like any other budget (log 102). -/
def secClamps (type : Nat) : List FieldClamp :=
  match type with
  | 1 => [.range 0 4 100 100000]
  | 3 => [.range 4 4 0 3328, .range 8 2 0 768]
  | 6 => [.range 6 2 1 4096]
  | 7 => [.even 4 16 1280, .even 6 16 720, .range 8 1 5 30, .pow 9, .range 0x0A 1 1 8, .range 0x0B 1 0 50, .range 0x20 1 0 120]
  | 8 => [.range 0x0C 2 1 65535]
  | 11 => [.bpc 3, .pow 4]
  | 12 => [.pow 5]
  | 13 => [.range 3 1 0 8]
  | _ => []

/-- The field's place and size, and the value it is clamped to. -/
def FieldClamp.value (b : Bytes) : FieldClamp → Nat × Nat × Nat
  | .range o n lo hi => (o, n, clampNat lo hi (fieldAt b o n))
  | .even o lo hi => (o, 2, clampNat lo hi (fieldAt b o 2) / 2 * 2)
  | .pow o => (o, 1, match fieldAt b o 1 with | 0 => 1 | 1 => 1 | 2 => 2 | _ => 4)
  | .bpc o => (o, 1, nearestSize [8, 10] (fieldAt b o 1))

/-- Clamp an entry: its bytes, and the offsets of the clamped fields within it. -/
def clampEntry (type : Nat) (b : Bytes) : Bytes × List Nat :=
  (secClamps type).foldl (fun a k =>
    let (o, n, v) := k.value a.1
    if fieldAt a.1 o n = v then a else (setField a.1 o n v, a.2 ++ [o])) (b, [])

/-- Clamp every entry: the entries, the number of clamped fields and the lowest offset of one. -/
def clampAll (secs : List (Nat × List (Nat × Bytes))) : List (Nat × List (Nat × Bytes × Bytes)) × Nat × Nat :=
  let out := secs.map (fun s => (s.1, s.2.map (fun e => let (b, offs) := clampEntry s.1 e.2; (e.1, e.2, b, offs))))
  let hits := out.flatMap (fun s => s.2.flatMap (fun e => e.2.2.2.map (fun o => e.1 + o)))
  (out.map (fun s => (s.1, s.2.map (fun e => (e.1, e.2.1, e.2.2.1)))), hits.length, (leastBy (fun w => w) hits).getD 0)

/-! ### Formats -/

def f (b : Bytes) (o n : Nat) : Nat := fieldAt b o n

def clsOf (v : Nat) : Cls := if v = 0 then .lc else .be

def partOfBytes (b : Bytes) : PartDecl :=
  { id := f b 0 1, cls := clsOf (f b 1 1), arrays := BitVec.ofNat 32 (f b 4 4), chans := BitVec.ofNat 16 (f b 8 2),
    banks := BitVec.ofNat 32 (f b 12 4) }

def berthOfBytes (b : Bytes) : BerthDecl := { id := f b 0 1, part := f b 1 1, arrayShare := f b 4 4, basinShare := f b 8 2 }

def ctxOfBytes (b : Bytes) : CtxDecl := { id := f b 0 2, part := f b 2 1, berth := f b 3 1, prog := f b 4 2 }

def regionOfBytes (b : Bytes) : RegionDecl :=
  let g := f b 0x0B 1
  { first := f b 0 4, count := f b 4 4, id := f b 8 2, owner := f b 0x0A 1, repl := g.testBit 0, rdonly := g.testBit 1,
    zero := g.testBit 2, chans := BitVec.ofNat 16 (f b 0x0C 2), reps := BitVec.ofNat 16 (f b 0x0E 2) }

def grantOfBytes (b : Bytes) : GrantDecl := { id := f b 0 2, region := f b 2 2, grantee := f b 4 2, cap := f b 6 2 }

def streamOfBytes (b : Bytes) : StreamDecl :=
  let g := f b 1 1
  { idx := f b 0 1, active := g.testBit 0, live := g.testBit 1, settled := g.testBit 2, port := f b 2 1, fmt := enc 1 (f b 3 1),
    w := f b 4 2, h := f b 6 2, fps := f b 8 1, sc := f b 9 1, tm := f b 0x0A 1, dlive := f b 0x0B 1, partner := f b 0x0C 1,
    rank := f b 0x0D 1, ctx := f b 0x0E 2, sid := BitVec.ofNat 64 (f b 0x10 8), seed := BitVec.ofNat 64 (f b 0x18 8),
    span := f b 0x20 1, evid := f b 0x24 2, liveRing := f b 0x26 2, setRing := f b 0x28 2, analysis := f b 0x2A 2 }

def tideOfBytes (b : Bytes) : TideDecl :=
  { offset := f b 0 4, kind := min 3 (f b 4 1), part := f b 5 1, target := f b 6 2, list := f b 8 4, budget := f b 0x0C 2,
    cls := clsOf (f b 0x0E 1), snap := (f b 0x0F 1).testBit 0 }

def syncOfBytes (b : Bytes) : SyncDecl :=
  { first := f b 0 4, count := f b 4 4, owner := f b 8 2, signaller := min 7 (f b 0x0A 1), peer := (f b 0x0B 1).testBit 0,
    init := BitVec.ofNat 32 (f b 0x0C 4) }

def routeOfBytes (b : Bytes) : RouteDecl :=
  { source := f b 0 2, target := enc 5 (f b 2 1), prio := f b 3 1 % 16, watch := (f b 3 1).testBit 4 }

/-- A background colour without its reserved bits. -/
def bgOf (v : Nat) : Word := BitVec.ofNat 32 (v % 2 ^ 30)

def outputOfBytes (b : Bytes) : OutputDecl :=
  { output := f b 0 1, enabled := (f b 1 1).testBit 0, mode := enc 7 (f b 2 1), bpc := f b 3 1, lanes := f b 4 1,
    rate := min 3 (f b 5 1), bg := bgOf (f b 8 4) }

def windowOfBytes (b : Bytes) : WindowDecl :=
  { id := f b 0 1, output := f b 1 1, stream := f b 2 1, ring := min 1 (f b 3 1), layer := f b 4 1, d := f b 5 1,
    overlay := enc 2 (f b 6 1), sx := f b 8 2, sy := f b 0x0A 2, w := f b 0x0C 2, h := f b 0x0E 2, dx := f b 0x10 2, dy := f b 0x12 2,
    bg := bgOf (f b 0x14 4) }

/-- A program entry: raw as the image carried it, its fields from the clamped bytes. -/
def progOfBytes (raw b : Bytes) : ProgramDecl :=
  let n := f b 4 4
  let m := (cut 4 (b.drop (32 + n))).map leNat
  { id := f b 0 2, kind := min 3 (f b 2 1), sets := (List.range (f b 3 1)).map (fun i => f b (0x10 + 2 * i) 2), desc := slice b 32 n,
    waits := m.take (f b 8 2), signals := m.drop (f b 8 2), raw := raw }

def weightOfBytes (b : Bytes) : WeightDecl :=
  { id := f b 0 2, region := f b 2 2, length := f b 8 8, hash := BitVec.ofNat 256 (beNat (slice b 0x10 32)) }

def removalOfBytes (b : Bytes) : Removal := { kind := f b 0 1, id := f b 2 2 }

/-- The draft that an image's clamped entries declare. -/
def draftOf (serial : Nat) (secs : List (Nat × List (Nat × Bytes × Bytes))) : Draft :=
  let get := fun (t : Nat) => (assoc t secs).getD []
  let plain := fun {α : Type} (t : Nat) (g : Bytes → α) => (get t).map (fun e => ({ off := some e.1, d := g e.2.2 } : Ent α))
  let res := (get 1).head?
  { serial := serial
    cycle := match res with | some e => f e.2.2 0 4 | none => 100
    store := match res with | some e => f e.2.2 4 2 | none => 0
    resOff := res.map (·.1)
    parts := plain 2 partOfBytes, berths := plain 3 berthOfBytes, ctxs := plain 4 ctxOfBytes, regions := plain 5 regionOfBytes
    grants := plain 6 grantOfBytes, streams := plain 7 streamOfBytes, tide := plain 8 tideOfBytes, syncs := plain 9 syncOfBytes
    routes := plain 10 routeOfBytes, outputs := plain 11 outputOfBytes, windows := plain 12 windowOfBytes
    progs := (get 13).map (fun e => { off := some e.1, d := progOfBytes e.2.1 e.2.2 })
    weights := plain 14 weightOfBytes, removals := plain 15 removalOfBytes }

/-! ### Structures -/

/-- Sorted by a key. -/
def byKey {α : Type} (k : α → Nat) (l : List α) : List α := l.mergeSort (fun a b => decide (k a ≤ k b))

/-- The structure that a draft stands for, each list in the order of R56. -/
def Draft.structure_ (d : Draft) : Structure :=
  { serial := d.serial, cycle := d.cycle, store := d.store
    parts := byKey (·.id) (d.parts.map (·.d)), berths := byKey (·.id) (d.berths.map (·.d)), ctxs := byKey (·.id) (d.ctxs.map (·.d))
    regions := byKey (·.id) (d.regions.map (·.d)), grants := byKey (·.id) (d.grants.map (·.d))
    streams := byKey (·.idx) (d.streams.map (·.d)), tide := d.tide.map (·.d), syncs := byKey (·.first) (d.syncs.map (·.d))
    routes := byKey (·.source) (d.routes.map (·.d)), outputs := byKey (·.output) (d.outputs.map (·.d))
    windows := byKey (·.id) (d.windows.map (·.d)), progs := byKey (·.id) (d.progs.map (·.d)), weights := byKey (·.id) (d.weights.map (·.d)) }

/-- The draft of a running structure: nothing of it lies in the image under validation. -/
def draftOfStructure (s : Structure) : Draft :=
  let kept := fun {α : Type} (l : List α) => l.map (fun x => ({ off := none, d := x } : Ent α))
  { serial := s.serial, cycle := s.cycle, store := s.store, parts := kept s.parts, berths := kept s.berths, ctxs := kept s.ctxs,
    regions := kept s.regions, grants := kept s.grants, streams := kept s.streams, tide := kept s.tide, syncs := kept s.syncs,
    routes := kept s.routes, outputs := kept s.outputs, windows := kept s.windows, progs := kept s.progs, weights := kept s.weights }

/-! ### The stored image (R56) -/

def clsByte (c : Cls) : Nat := match c with | .lc => 0 | .be => 1

def PartDecl.bytes (d : PartDecl) : Bytes :=
  toLe 1 d.id ++ toLe 1 (clsByte d.cls) ++ zeros 2 ++ toLe 4 d.arrays.toNat ++ toLe 2 d.chans.toNat ++ zeros 2 ++ toLe 4 d.banks.toNat

def BerthDecl.bytes (d : BerthDecl) : Bytes := toLe 1 d.id ++ toLe 1 d.part ++ zeros 2 ++ toLe 4 d.arrayShare ++ toLe 2 d.basinShare ++ zeros 6

def CtxDecl.bytes (d : CtxDecl) : Bytes := toLe 2 d.id ++ toLe 1 d.part ++ toLe 1 d.berth ++ toLe 2 d.prog ++ zeros 10

def RegionDecl.bytes (d : RegionDecl) : Bytes :=
  toLe 4 d.first ++ toLe 4 d.count ++ toLe 2 d.id ++ toLe 1 d.owner ++ toLe 1 (b2n d.repl + 2 * b2n d.rdonly + 4 * b2n d.zero) ++
    toLe 2 d.chans.toNat ++ toLe 2 d.reps.toNat

def GrantDecl.bytes (d : GrantDecl) : Bytes := toLe 2 d.id ++ toLe 2 d.region ++ toLe 2 d.grantee ++ toLe 2 d.cap

/-- A stream entry. DESIGN CHOICE: a seed of 0 is stored as 0; R188 replaces it where it is loaded into a generator (log 103). -/
def StreamDecl.bytes (d : StreamDecl) : Bytes :=
  toLe 1 d.idx ++ toLe 1 (b2n d.active + 2 * b2n d.live + 4 * b2n d.settled) ++ toLe 1 d.port ++ toLe 1 d.fmt ++ toLe 2 d.w ++ toLe 2 d.h ++
    toLe 1 d.fps ++ toLe 1 d.sc ++ toLe 1 d.tm ++ toLe 1 d.dlive ++ toLe 1 d.partner ++ toLe 1 d.rank ++ toLe 2 d.ctx ++
    toLe 8 d.sid.toNat ++ toLe 8 d.seed.toNat ++ toLe 1 d.span ++ zeros 3 ++ toLe 2 d.evid ++ toLe 2 d.liveRing ++ toLe 2 d.setRing ++
    toLe 2 d.analysis ++ zeros 20

def TideDecl.bytes (d : TideDecl) : Bytes :=
  toLe 4 d.offset ++ toLe 1 d.kind ++ toLe 1 d.part ++ toLe 2 d.target ++ toLe 4 d.list ++ toLe 2 d.budget ++ toLe 1 (clsByte d.cls) ++
    toLe 1 (b2n d.snap)

def SyncDecl.bytes (d : SyncDecl) : Bytes :=
  toLe 4 d.first ++ toLe 4 d.count ++ toLe 2 d.owner ++ toLe 1 d.signaller ++ toLe 1 (b2n d.peer) ++ toLe 4 d.init.toNat

def RouteDecl.bytes (d : RouteDecl) : Bytes := toLe 2 d.source ++ toLe 1 d.target ++ toLe 1 (d.prio + 16 * b2n d.watch)

def OutputDecl.bytes (d : OutputDecl) : Bytes :=
  toLe 1 d.output ++ toLe 1 (b2n d.enabled) ++ toLe 1 d.mode ++ toLe 1 d.bpc ++ toLe 1 d.lanes ++ toLe 1 d.rate ++ zeros 2 ++
    toLe 4 d.bg.toNat ++ zeros 4

def WindowDecl.bytes (d : WindowDecl) : Bytes :=
  toLe 1 d.id ++ toLe 1 d.output ++ toLe 1 d.stream ++ toLe 1 d.ring ++ toLe 1 d.layer ++ toLe 1 d.d ++ toLe 1 d.overlay ++ zeros 1 ++
    toLe 2 d.sx ++ toLe 2 d.sy ++ toLe 2 d.w ++ toLe 2 d.h ++ toLe 2 d.dx ++ toLe 2 d.dy ++ toLe 4 d.bg.toNat ++ zeros 8

/-- A program's entry with its kind and weight-set count as they are in effect. -/
def ProgramDecl.bytes (d : ProgramDecl) : Bytes := setField (setField d.raw 2 1 d.kind) 3 1 d.sets.length

def WeightDecl.bytes (d : WeightDecl) : Bytes := toLe 2 d.id ++ toLe 2 d.region ++ zeros 4 ++ toLe 8 d.length ++ toBe 32 d.hash.toNat

/-- The sections that hold an entry: type, count, bytes. -/
def Structure.sections (s : Structure) : List (Nat × Nat × Bytes) :=
  let sec := fun {α : Type} (t : Nat) (l : List α) (g : α → Bytes) => (t, l.length, l.flatMap g)
  [(1, 1, toLe 4 s.cycle ++ toLe 2 s.store ++ zeros 26), sec 2 s.parts PartDecl.bytes, sec 3 s.berths BerthDecl.bytes,
    sec 4 s.ctxs CtxDecl.bytes, sec 5 s.regions RegionDecl.bytes, sec 6 s.grants GrantDecl.bytes, sec 7 s.streams StreamDecl.bytes,
    sec 8 s.tide TideDecl.bytes, sec 9 s.syncs SyncDecl.bytes, sec 10 s.routes RouteDecl.bytes, sec 11 s.outputs OutputDecl.bytes,
    sec 12 s.windows WindowDecl.bytes, sec 13 s.progs ProgramDecl.bytes, sec 14 s.weights WeightDecl.bytes].filter (fun x => x.2.1 != 0)

/-- Lay sections out: the directory and the bytes, from an offset. -/
def layoutSections : Nat → List (Nat × Nat × Bytes) → Bytes × Bytes
  | _, [] => ([], [])
  | off, (t, n, b) :: rest =>
    let pad := roundUp b.length 16 - b.length
    let (dir, body) := layoutSections (off + b.length + pad) rest
    (toLe 2 t ++ toLe 2 1 ++ toLe 4 off ++ toLe 4 n ++ toLe 4 b.length ++ dir, b ++ zeros pad ++ body)

/-- The stored image of a structure. -/
def Structure.stored (s : Structure) : Bytes :=
  let secs := s.sections
  let start := 0x40 + 16 * secs.length
  let (dir, body) := layoutSections start secs
  toLe 4 0x49535844 ++ toLe 2 0x0100 ++ toLe 2 0 ++ toLe 4 (start + body.length + 384) ++ toLe 2 secs.length ++ zeros 2 ++
    toLe 8 s.serial ++ zeros 8 ++ zeros 32 ++ dir ++ body ++ zeros 384

/-- Bytes of the stored image. -/
def Structure.storedSize (s : Structure) : Nat :=
  s.sections.foldl (fun a x => a + 16 + roundUp x.2.2.length 16) (0x40 + 384)

/-- Where the slots, the intake and the firmware staging area of the store region begin (R22, R56). -/
def storeIntake : Nat := 16 * 2 ^ 20

/-- Read n bytes from the intake (R22). -/
def Chip.intakeRead (c : Chip) (o n : Nat) : Bytes :=
  match c.cfg.applied with
  | none => c.basin.read (31 * 2 ^ 24 + o) n
  | some s => c.dramRead ((s.regionAt s.store).1 + storeIntake + o) n

end Sys2Proof.Machine
end

