-- ==== Sys2Proof/Machine/Layout.lean ====
section
/-! DEFINITION. Where things lie: frame slots, recurrent-state buffers and berth shares in a partition's banks and array stores (R223, R328,
R329, R331), and region-table entries on DRAM slots (R35, R345). -/

namespace Sys2Proof.Machine

/-! ### Free spans -/

/-- The free spans (first byte, end) between used ones (offset, size) in ascending order, from a position to the end of an area. -/
def freeSpans : Nat → List (Nat × Nat) → Nat → List (Nat × Nat)
  | pos, [], total => if pos < total then [(pos, total)] else []
  | pos, (o, n) :: rest, total =>
    (if pos < o then [(pos, o)] else []) ++ freeSpans (max pos (o + n)) rest total

/-- Where n bytes go: at the first aligned byte of the lowest free span that holds them, or at the end of the highest one. -/
def fit (used : List (Nat × Nat)) (n align total : Nat) (high : Bool) : Option Nat :=
  let spans := freeSpans 0 (byKey (·.1) used) total
  if high then spans.reverse.findSome? (fun s => if s.1 + n ≤ s.2 then some (s.2 - n) else none)
  else spans.findSome? (fun s => if roundUp s.1 align + n ≤ s.2 then some (roundUp s.1 align) else none)

/-! ### The items of a partition -/

/-- Something to place: its kind and id in the layout, its bytes, and the declaration it belongs to (R39's kind 1 berth or 5 stream). -/
structure Item where
  part : Nat
  kind : Nat
  id : Nat
  size : Nat
  align : Nat
  owner : Nat × Nat
  deriving DecidableEq, Repr

/-- Basin berth shares go to the highest free span. -/
def Item.high (i : Item) : Bool := i.kind == 3

/-- The bytes of the area that an item lies in: the partition's banks, or an array store. -/
def Item.total (i : Item) (s : Structure) : Nat :=
  if i.kind = 4 then lineBuf
  else match s.part i.part with | some p => (bitList 32 p.banks.toNat).length * 2 ^ 24 | none => 0

/-- The active streams of a partition, ascending. -/
def Structure.streamsOf (s : Structure) (p : Nat) : List StreamDecl :=
  s.active.filter (fun d => (s.ctx d.ctx).any (fun x => x.part == p))

def slotItems (p : Nat) (d : StreamDecl) : List Item :=
  (List.range 3).map (fun k => { part := p, kind := 0, id := 3 * d.idx + k, size := d.slotBytes, align := 4096, owner := (5, d.idx) })

/-- The recurrent-state pairs of a stream's enabled modes (R223). -/
def Structure.stateItems (s : Structure) (p : Nat) (d : StreamDecl) : List Item :=
  let n := 2 * (s.fgHdr d).state
  let mk := fun (kind : Nat) => ({ part := p, kind := kind, id := d.idx, size := n, align := 64, owner := (5, d.idx) } : Item)
  (if d.live then [mk 1] else []) ++ (if d.settled then [mk 2] else [])

def shareItems (p : Nat) (b : BerthDecl) : List Item :=
  [{ part := p, kind := 3, id := b.id, size := b.basinShare * 65536, align := 1, owner := (1, b.id) },
    { part := p, kind := 4, id := b.id, size := b.arrayShare * 1024, align := 1, owner := (1, b.id) }]

/-- The items of a partition in placement order: a full image by R328, an amendment by R329. Items of no bytes take no place. -/
def Structure.items (s : Structure) (full : Bool) (p : Nat) : List Item :=
  let ds := s.streamsOf p
  let streams := if full then ds.flatMap (slotItems p) ++ ds.flatMap (s.stateItems p)
    else ds.flatMap (fun d => slotItems p d ++ s.stateItems p d)
  (streams ++ (s.berths.filter (fun b => b.part == p)).flatMap (shareItems p)).filter (fun i => i.size != 0)

/-- The place that an item keeps: the running layout has it at its size and its declaration is not replaced (R329). -/
def Item.kept (i : Item) (running : List Placed) (replaced : List (Nat × Nat)) : Option Placed :=
  if replaced.contains i.owner then none
  else running.find? (fun x => x.part == i.part && x.kind == i.kind && x.id == i.id && x.size == i.size)

/-- Place items one at a time; the first for which no room remains ends it. -/
def placeItems (s : Structure) : List Item → List Placed → List Placed × Option Item
  | [], acc => (acc, none)
  | i :: is, acc =>
    let used := (acc.filter (fun x => x.part == i.part && (x.kind == 4) == (i.kind == 4))).map (fun x => (x.off, x.size))
    match fit used i.size i.align (i.total s) i.high with
    | some o => placeItems s is (acc ++ [{ part := i.part, kind := i.kind, id := i.id, off := o, size := i.size }])
    | none => (acc, some i)

/-- The layout of a partition, and the item for which no room remains. -/
def Structure.layoutPart (s : Structure) (full : Bool) (running : List Placed) (replaced : List (Nat × Nat)) (p : Nat) :
    List Placed × Option Item :=
  let items := s.items full p
  let old := if full then [] else running
  let kept := items.filterMap (fun i => i.kept old replaced)
  placeItems s (items.filter (fun i => (i.kept old replaced).isNone)) kept

/-- The layout of every partition. -/
def Structure.layoutAll (s : Structure) (full : Bool) (running : List Placed) (replaced : List (Nat × Nat)) : List Placed :=
  s.parts.flatMap (fun p => (s.layoutPart full running replaced p.id).1)

/-- The items for which no room remains, one for each partition that has one. -/
def Structure.noRoom (s : Structure) (full : Bool) (running : List Placed) (replaced : List (Nat × Nat)) : List Item :=
  s.parts.filterMap (fun p => (s.layoutPart full running replaced p.id).2)

/-! ### Region-table entries (R35, R345) -/

/-- The channel of entry j of a mask (R35). -/
def maskChan (mask : BitVec 16) (j : Nat) : Nat :=
  let cs := bitList 16 mask.toNat
  cs.getD (j % max 1 cs.length) 0

/-- Two declarations agree in all that R345 compares. -/
def RegionDecl.same (a b : RegionDecl) : Bool := { a with zero := false } == { b with zero := false }

/-- The entry of index i of a declaration on given slots, no copy lost. -/
def RegionDecl.entry (d : RegionDecl) (pch pslot rch rslot : Nat) : Entry :=
  { repl := d.repl, rdonly := d.rdonly, device := d.owner == 255, owner := d.owner, plost := false, rlost := false, decl := d.id,
    pch := pch, pslot := pslot, rch := rch, rslot := rslot }

/-- Slots of a channel that the device uses itself (R336 reserve) start here: a region takes slots below it. -/
def regionSlots : Nat := 7680

/-- What is free on each channel: the first slot not yet tried, and the slots that are held or retired. -/
abbrev SlotMap := Vector (Nat × List Nat) 16

/-- The lowest slot from a number up that a list does not hold. -/
def lowestSlot : Nat → Nat → List Nat → Nat
  | 0, n, _ => n
  | k + 1, n, used => if used.contains n then lowestSlot k (n + 1) used else n

/-- Take the lowest free slot of a channel. -/
def SlotMap.take (m : SlotMap) (ch : Nat) : Nat × SlotMap :=
  let (n, used) := vget (0, []) m ch
  let s := lowestSlot (used.length + 1) n used
  (s, vset m ch (s + 1, used))

/-- The indices of a declaration's entries. -/
def RegionDecl.indices (d : RegionDecl) : List (Nat × Nat) := (List.range d.count).map (fun j => (d.first + j, j))

/-- Place the entries of the given (index, offset in its declaration, declaration), ascending, on free slots. -/
def placeEntries : List (Nat × Nat × RegionDecl) → SlotMap → List (Nat × Entry)
  | [], _ => []
  | (i, j, d) :: rest, m =>
    let pch := maskChan d.chans j
    let (ps, m) := m.take pch
    if d.repl then
      let rch := maskChan d.reps j
      let (rs, m) := m.take rch
      (i, d.entry pch ps rch rs) :: placeEntries rest m
    else (i, d.entry pch ps 0 0) :: placeEntries rest m

/-- A copy on a retired slot or a lost channel is lost (R349 to R352). -/
def Chip.copyLost (c : Chip) (ch slot : Nat) : Bool := (c.chan ch).lost || (c.chan ch).bad.contains slot

/-- The region table of a structure: declarations equal to one of the copy keep its slots, the other entries are placed. -/
def Chip.regionTable (c : Chip) (s : Structure) : List (Nat × Entry) :=
  let keeps := fun (d : RegionDecl) => c.mc.copyDecls.any (fun x => x.same d)
  let held := (s.regions.filter keeps).flatMap (fun d =>
    d.indices.filterMap (fun x => (assoc x.1 c.mc.copy).map (fun e => (x.1, d.entry e.pch e.pslot e.rch e.rslot))))
  let slots : SlotMap := Vector.ofFn (fun k =>
    (0, (c.chan k.val).bad ++ (held.filter (fun e => e.2.pch == k.val)).map (·.2.pslot) ++
      (held.filter (fun e => e.2.repl && e.2.rch == k.val)).map (·.2.rslot)))
  let fresh := (s.regions.filter (fun d => !keeps d)).flatMap (fun d => d.indices.map (fun x => (x.1, x.2, d)))
  (byKey (·.1) (held ++ placeEntries (byKey (·.1) fresh) slots)).map (fun x =>
    (x.1, { x.2 with plost := c.copyLost x.2.pch x.2.pslot, rlost := x.2.repl && c.copyLost x.2.rch x.2.rslot }))

/-- A region-table entry as its 64-bit value (R343). -/
def Entry.word (e : Entry) : Nat :=
  2 ^ 63 + b2n e.repl * 2 ^ 62 + b2n e.rdonly * 2 ^ 61 + b2n e.device * 2 ^ 60 + (if e.device then 0 else e.owner) * 2 ^ 57 +
    b2n e.plost * 2 ^ 56 + b2n (e.repl && e.rlost) * 2 ^ 55 + e.decl * 2 ^ 43 + e.pch * 2 ^ 39 + e.pslot * 2 ^ 26 +
    (if e.repl then e.rch * 2 ^ 22 + e.rslot * 2 ^ 9 else 0)

/-- The entries of a table from an index to its end at 131,072, 8 little-endian bytes each, an absent one as zeros (R343). -/
def tableBytes : Nat → List (Nat × Entry) → Bytes
  | n, [] => zeros (8 * (131072 - n))
  | n, x :: xs => zeros (8 * (x.1 - n)) ++ toLe 8 x.2.word ++ tableBytes (x.1 + 1) xs

end Sys2Proof.Machine
end

