-- ==== Sys2Proof/Machine/Consist.lean ====
section
/-! DEFINITION. The consistency stage of validation (R44, R47, R48 and the rules that name it), on the structure as it would stand, and the
offset that it reports (R546, R547). -/

namespace Sys2Proof.Machine

/-! ### Grades and display modes -/

def Grade.arrays (g : Grade) : Nat := match g with | .dx6430 => 32 | .dx3230 => 16
def Grade.channels (g : Grade) : Nat := match g with | .dx6430 => 16 | .dx3230 => 8
def Grade.streams (g : Grade) : Nat := match g with | .dx6430 => 64 | .dx3230 => 32
def Grade.ports (g : Grade) : Nat := match g with | .dx6430 => 8 | .dx3230 => 4
def Grade.outputs (g : Grade) : Nat := match g with | .dx6430 => 4 | .dx3230 => 2

/-- The output pixel rate that the grade sustains at OP0, in pixels per second (R48). -/
def Grade.pixels (g : Grade) : Nat := match g with | .dx6430 => 4200000000 | .dx3230 => 2100000000

/-- A display timing (R388): pixel clock in kHz, active and total size, lines of vertical blanking. -/
structure DispMode where
  khz : Nat
  w : Nat
  h : Nat
  totalW : Nat
  totalH : Nat
  blank : Nat
  deriving DecidableEq, Repr

def dispMode (m : Nat) : DispMode :=
  match m with
  | 1 => ⟨74250, 1920, 1080, 2200, 1125, 45⟩
  | 2 => ⟨148500, 1920, 1080, 2640, 1125, 45⟩
  | 3 => ⟨148500, 1920, 1080, 2200, 1125, 45⟩
  | 4 => ⟨241500, 2560, 1440, 2720, 1481, 41⟩
  | 5 => ⟨297000, 3840, 2160, 4400, 2250, 90⟩
  | 6 => ⟨594000, 3840, 2160, 5280, 2250, 90⟩
  | 7 => ⟨594000, 3840, 2160, 4400, 2250, 90⟩
  | _ => ⟨74250, 1280, 720, 1650, 750, 30⟩

/-- Gbit/s times 100 of a link rate code (R389). -/
def linkRate (r : Nat) : Nat := match r with | 0 => 162 | 1 => 270 | 2 => 540 | _ => 810

/-- A combination of lanes and rate carries an output's pixels (R390, R393): lanes × rate × 0.8 against pixel clock × 3 × bits. -/
def carries (mode bpc lanes rate : Nat) : Bool := decide ((dispMode mode).khz * 3 * bpc ≤ lanes * linkRate rate * 8000)

/-! ### Failures -/

/-- A failing condition: its code, the offset of the declaration that fails (none when the image does not carry it), the declarations
that the condition concerns by the kinds of R39, and whether a rule names that declaration (log 13). -/
structure Fail where
  code : Nat
  off : Option Nat
  con : List (Nat × Nat)
  named : Bool
  deriving Repr

def fail {α : Type} (code : Nat) (e : Ent α) (con : List (Nat × Nat)) : Fail := ⟨code, e.off, con, false⟩
def failNamed {α : Type} (code : Nat) (e : Ent α) (con : List (Nat × Nat)) : Fail := ⟨code, e.off, con, true⟩

/-- A failure when a condition holds. -/
def when_ (b : Bool) (x : Fail) : List Fail := if b then [x] else []

/-- Every element with the elements before it, the latest first. -/
def withEarlier {α : Type} : List α → List α → List (α × List α)
  | _, [] => []
  | acc, x :: xs => (x, acc) :: withEarlier (x :: acc) xs

/-- Failures of elements that clash with an earlier one. -/
def clashes {α : Type} (l : List (Ent α)) (bad : α → α → Bool) (code : Nat) (key : α → Nat × Nat) : List Fail :=
  (withEarlier [] l).filterMap (fun p =>
    let hit := p.2.filter (fun y => bad y.d p.1.d)
    if hit.isEmpty then none else some (fail code p.1 (key p.1.d :: hit.map (fun y => key y.d))))

/-- The first element whose running sum of a measure passes a limit. -/
def firstOver {α : Type} (limit : Nat) (m : α → Nat) : Nat → List α → Option α
  | _, [] => none
  | acc, x :: xs => if limit < acc + m x then some x else firstOver limit m (acc + m x) xs

/-! ### Duplicates (0x07) -/

def Draft.dups (d : Draft) : List Fail :=
  let same := fun {α : Type} (l : List (Ent α)) (kind : Nat) (k : α → Nat) =>
    clashes l (fun x y => k x == k y) 7 (fun x => (kind, k x))
  same d.parts 0 (·.id) ++ same d.berths 1 (·.id) ++ same d.ctxs 2 (·.id) ++ same d.regions 3 (·.id) ++ same d.grants 4 (·.id) ++
    same d.streams 5 (·.idx) ++ same d.syncs 6 (·.first) ++ same d.progs 7 (·.id) ++ same d.weights 8 (·.id) ++
    same d.windows 9 (·.id) ++ same d.outputs 10 (·.output) ++ same d.routes 12 (·.source) ++
    clashes d.regions (fun x y => overlaps x.first x.count y.first y.count) 7 (fun x => (3, x.id)) ++
    clashes d.syncs (fun x y => overlaps x.first x.count y.first y.count) 7 (fun x => (6, x.first)) ++
    clashes (d.streams.filter (·.d.active)) (fun x y => x.sid == y.sid) 7 (fun x => (5, x.idx))

/-! ### Names (0x05, 0x06; R2, R38, R47) -/

/-- How many ids a kind of object has; kind 14 is a sync object by its number. -/
def idRange (kind : Nat) : Nat :=
  match kind with
  | 0 => 8 | 1 => 16 | 2 => 256 | 3 => 4096 | 4 => 1024 | 5 => 256 | 7 => 1024 | 8 => 256 | 14 => 65536 | _ => 64

def Draft.has (d : Draft) (k : Nat × Nat) : Bool :=
  match k.1 with
  | 0 => d.parts.any (fun e => e.d.id == k.2)
  | 1 => d.berths.any (fun e => e.d.id == k.2)
  | 2 => d.ctxs.any (fun e => e.d.id == k.2)
  | 3 => d.regions.any (fun e => e.d.id == k.2)
  | 4 => d.grants.any (fun e => e.d.id == k.2)
  | 5 => d.streams.any (fun e => e.d.idx == k.2)
  | 6 => d.syncs.any (fun e => e.d.first == k.2)
  | 7 => d.progs.any (fun e => e.d.id == k.2)
  | 8 => d.weights.any (fun e => e.d.id == k.2)
  | 9 => d.windows.any (fun e => e.d.id == k.2)
  | 10 => d.outputs.any (fun e => e.d.output == k.2)
  | 14 => d.syncs.any (fun e => decide (e.d.first ≤ k.2) && decide (k.2 < e.d.first + e.d.count))
  | _ => false

/-- The names of a stream entry that are in use (R38). -/
def StreamDecl.names (s : StreamDecl) : List (Nat × Nat) :=
  if !s.active then [] else
  let region := fun (on : Bool) (r : Nat) => if on && r != 65535 then [((3 : Nat), r)] else []
  [(2, s.ctx)] ++ region true s.analysis ++ region s.live s.liveRing ++ region s.settled s.setRing ++ region (s.span != 0) s.evid ++
    (if s.partner = 255 then [] else [(5, s.partner)])

def TideDecl.names (t : TideDecl) : List (Nat × Nat) :=
  (0, t.part) :: (match t.kind with | 0 => [(5, t.target)] | 1 => [(5, t.target)] | 2 => [(2, t.target)] | _ => [])

/-- What an entry names. A window's output is no such name: R393 rejects it. -/
def BerthDecl.names (b : BerthDecl) : List (Nat × Nat) := [(0, b.part)]
def CtxDecl.names (x : CtxDecl) : List (Nat × Nat) := [(0, x.part), (7, x.prog)] ++ (if x.berth = 255 then [] else [(1, x.berth)])
def RegionDecl.names (r : RegionDecl) : List (Nat × Nat) := if r.owner = 255 then [] else [(0, r.owner)]
def GrantDecl.names (g : GrantDecl) : List (Nat × Nat) := [(3, g.region), (2, g.grantee)]
def SyncDecl.names (a : SyncDecl) : List (Nat × Nat) := [(2, a.owner)]
def WindowDecl.names (w : WindowDecl) : List (Nat × Nat) := [(5, w.stream)]
/-- A program names its weight sets and the objects of its manifest. -/
def ProgramDecl.names (p : ProgramDecl) : List (Nat × Nat) := p.sets.map (fun w => (8, w)) ++ (p.waits ++ p.signals).eraseDups.map (fun o => (14, o))
def WeightDecl.names (w : WeightDecl) : List (Nat × Nat) := [(3, w.region)]

/-- Every declaration of a draft: its offset, its own key, the keys that it names. -/
def Draft.entries (d : Draft) : List (Option Nat × (Nat × Nat) × List (Nat × Nat)) :=
  d.parts.map (fun e => (e.off, (0, e.d.id), [])) ++ d.berths.map (fun e => (e.off, (1, e.d.id), e.d.names)) ++
    d.ctxs.map (fun e => (e.off, (2, e.d.id), e.d.names)) ++ d.regions.map (fun e => (e.off, (3, e.d.id), e.d.names)) ++
    d.grants.map (fun e => (e.off, (4, e.d.id), e.d.names)) ++ d.streams.map (fun e => (e.off, (5, e.d.idx), e.d.names)) ++
    ((List.range d.tide.length).zip d.tide).map (fun e => (e.2.off, (11, e.1), e.2.d.names)) ++
    d.syncs.map (fun e => (e.off, (6, e.d.first), e.d.names)) ++ d.routes.map (fun e => (e.off, (12, e.d.source), [])) ++
    d.outputs.map (fun e => (e.off, (10, e.d.output), [])) ++ d.windows.map (fun e => (e.off, (9, e.d.id), e.d.names)) ++
    d.progs.map (fun e => (e.off, (7, e.d.id), e.d.names)) ++ d.weights.map (fun e => (e.off, (8, e.d.id), e.d.names))

/-- Names beyond a kind's range, or of objects that nothing declares. An object of a manifest that the program waits on and that no
allocation covers has code 0x0E instead (R48). -/
def Draft.badNames (d : Draft) : List Fail :=
  let one := fun (off : Option Nat) (key k : Nat × Nat) =>
    let awaited := k.1 == 14 && d.progs.any (fun e => (7, e.d.id) == key && e.d.waits.contains k.2)
    if idRange k.1 ≤ k.2 then [(⟨5, off, [key], false⟩ : Fail)]
    else when_ (!d.has k && !awaited) ⟨6, off, [key, k], false⟩
  d.entries.flatMap (fun e => e.2.2.flatMap (one e.1 e.2.1)) ++ one d.resOff (13, 0) (3, d.store)

/-- Ids, masks, ports and objects beyond what the device provides. -/
def Draft.beyond (d : Draft) (g : Grade) : List Fail :=
  let beyond := fun (m n : Nat) => decide (2 ^ n ≤ m)
  let ids := d.entries.filterMap (fun e =>
    if e.2.1.1 < 10 && e.2.1.1 != 6 && decide (idRange e.2.1.1 ≤ e.2.1.2) then some (⟨5, e.1, [e.2.1], false⟩ : Fail) else none)
  let active := d.streams.filter (·.d.active)
  ids ++ d.parts.flatMap (fun e => when_ (beyond e.d.arrays.toNat g.arrays || beyond e.d.chans.toNat g.channels) (fail 5 e [(0, e.d.id)])) ++
    d.regions.flatMap (fun e => when_ (131072 < e.d.first + e.d.count || beyond e.d.chans.toNat g.channels ||
      (e.d.repl && beyond e.d.reps.toNat g.channels)) (fail 5 e [(3, e.d.id)])) ++
    d.streams.flatMap (fun e => when_ (g.ports ≤ e.d.port) (fail 5 e [(5, e.d.idx)])) ++
    (active.drop g.streams).map (fun e => fail 5 e (active.map (fun x => (5, x.d.idx)))) ++
    d.syncs.flatMap (fun e => when_ (65536 < e.d.first + e.d.count) (fail 5 e [(6, e.d.first)])) ++
    d.routes.flatMap (fun e => when_ (e.d.source == 799 || 832 ≤ e.d.source) (failNamed 5 e [(12, e.d.source)])) ++
    d.outputs.flatMap (fun e => when_ (g.outputs ≤ e.d.output) (fail 5 e [(10, e.d.output)]))

/-! ### Ownership (0x08) -/

def Draft.ownership (d : Draft) : List Fail :=
  let shares := fun (x y : PartDecl) => x.arrays &&& y.arrays != 0 || x.chans &&& y.chans != 0 || x.banks &&& y.banks != 0
  clashes d.parts shares 8 (fun x => (0, x.id)) ++
    d.regions.flatMap (fun e =>
      let r := e.d
      let all := if r.repl then r.chans ||| r.reps else r.chans
      let foreign := d.parts.any (fun p => p.d.id == r.owner && all &&& ~~~p.d.chans != 0)
      when_ (foreign || (r.count != 0 && r.chans == 0) || (r.repl && (r.reps == 0 || r.reps &&& r.chans != 0)))
        (fail 8 e ((3, r.id) :: r.names)))

/-! ### Room (0x09) -/

/-- Entries of a region declaration on a channel, primary and replica copies together (R35). -/
def RegionDecl.onChan (r : RegionDecl) (ch : Nat) : Nat :=
  let part := fun (mask : BitVec 16) =>
    let cs := bitList 16 mask.toNat
    match cs.findIdx? (fun c => c == ch) with
    | some k => (r.count + cs.length - 1 - k) / cs.length
    | none => 0
  part r.chans + (if r.repl then part r.reps else 0)

/-- Regions beyond a channel's backed slots; a retired slot is missing capacity (R350). -/
def Draft.overChannels (d : Draft) (bad : Nat → Nat) : List Fail :=
  (List.range 16).filterMap (fun ch =>
    (firstOver (regionSlots - bad ch) (fun (e : Ent RegionDecl) => e.d.onChan ch) 0 d.regions).map (fun e =>
      fail 9 e ((d.regions.filter (fun x => x.d.onChan ch != 0)).map (fun x => (3, x.d.id)))))

/-- Bytes of a berth's share (R33). -/
def Structure.shareBytes (s : Structure) (b : BerthDecl) : Nat :=
  let n := match s.part b.part with | some p => (bitList 32 p.arrays.toNat).length | none => 0
  b.arrayShare * 1024 * n + b.basinShare * 65536

/-- Berths and the contexts that name them (R33, R135, R302). -/
def Draft.berthRoom (d : Draft) (s : Structure) : List Fail :=
  d.berths.flatMap (fun e =>
    let b := e.d
    let xs := s.ctxs.filter (fun x => x.berth == b.id)
    let lc := fun (x : CtxDecl) => (s.part x.part).any (fun p => p.cls == .lc)
    when_ (48 * 2 ^ 20 < s.shareBytes b || b.arrayShare < 176) (fail 9 e ((1, b.id) :: b.names)) ++
      when_ ((xs.any lc && decide (1 < xs.length)) || xs.any (fun x => x.part != b.part))
        (failNamed 9 e ((1, b.id) :: xs.map (fun x => (2, x.id)))))

/-- The store region (R31). -/
def Draft.storeRoom (d : Draft) : List Fail :=
  d.regions.flatMap (fun e =>
    when_ (e.d.id == d.store && (e.d.count < 32 || !e.d.repl || e.d.owner != 255)) (fail 9 e [(3, e.d.id)]))

/-- Items for which the banks or array stores have no room (R546). -/
def Draft.layoutRoom (d : Draft) (s : Structure) (full : Bool) (running : List Placed) (replaced : List (Nat × Nat)) : List Fail :=
  (s.noRoom full running replaced).map (fun i =>
    let off := if i.owner.1 = 5 then (d.streams.find? (fun e => e.d.idx == i.owner.2)).bind (·.off)
      else (d.berths.find? (fun e => e.d.id == i.owner.2)).bind (·.off)
    let ctx := if i.owner.1 = 5 then (s.stream i.owner.2).map (·.ctx) else none
    let more := match ctx with | some x => (2, x) :: ((s.ctx x).map (fun c => (7, c.prog))).toList | none => []
    ⟨9, off, i.owner :: (0, i.part) :: more, true⟩)

/-- More than 32 watched routes (R377). -/
def Draft.watched (d : Draft) : List Fail :=
  ((d.routes.filter (·.d.watch)).drop 32).map (fun e => failNamed 9 e [(12, e.d.source)])

/-! ### Rates (0x0A, 0x0B) -/

/-- Output pixels per second of a stream. -/
def StreamDecl.pixelRate (s : StreamDecl) : Nat := s.w * s.sc * (s.h * s.sc) * s.fps * s.tm * (b2n s.live + b2n s.settled)

/-- Motion-engine cycles per second (R123). -/
def StreamDecl.motionLoad (s : StreamDecl) : Nat := (2048 + 96 * (s.motionDims.1 * s.motionDims.2)) * s.fps

/-- Disparity-engine cycles per second of a left view (R111). -/
def StreamDecl.dispLoad (s : StreamDecl) : Nat :=
  if s.partner ≠ 255 && s.idx < s.partner then (4096 + 4 * (s.w * s.h)) * s.fps else 0

/-- Payload bits per second (R48). -/
def StreamDecl.payload (s : StreamDecl) : Nat := s.frameBytes * 8 * s.fps

def Draft.rates (d : Draft) (g : Grade) : List Fail :=
  let active := d.streams.filter (·.d.active)
  let all := active.map (fun e => (5, e.d.idx))
  let beyond := fun (l : List (Ent StreamDecl)) (limit : Nat) (m : StreamDecl → Nat) (x : Ent StreamDecl → Fail) =>
    ((firstOver limit (fun (e : Ent StreamDecl) => m e.d) 0 l).map x).toList
  beyond active g.pixels (·.pixelRate) (fun e => fail 10 e all) ++
    beyond active 1140000000 (·.motionLoad) (fun e => failNamed 10 e all) ++
    beyond active 1140000000 (·.dispLoad) (fun e => failNamed 10 e all) ++
    (List.range 8).flatMap (fun p =>
      let l := active.filter (fun e => e.d.port == p)
      beyond l 940000000 (·.payload) (fun e => fail 11 e (l.map (fun x => (5, x.d.idx)))))

/-! ### The tide table (0x0C; R293) -/

/-- A list offset leads to a STEP_END within a descriptor area. -/
def leadsToEnd (desc : Bytes) (off : Nat) : Bool :=
  off % 64 == 0 && (progDescs desc off).any (fun x => dStepEnd x.2)

/-- A tide entry breaks a rule by itself. -/
def Structure.tideBad (s : Structure) (t : TideDecl) : Bool :=
  let part := s.part t.part
  s.cycle ≤ t.offset || part.any (fun p => p.cls == .be && t.cls == .lc) ||
    (match t.kind with
      | 2 => (s.ctx t.target).any (fun x => x.part != t.part ||
          (s.prog x.prog).any (fun p => (p.kind != 1 && p.kind != 3) || !leadsToEnd p.desc t.list))
      | 3 => false
      | k => (s.stream t.target).any (fun d => !d.active || !(if k = 0 then d.live else d.settled) ||
          (s.ctx d.ctx).any (fun x => x.part != t.part)))

/-- What a tide entry's rule concerns. -/
def Structure.tideKeys (s : Structure) (k : Nat) (t : TideDecl) : List (Nat × Nat) :=
  let x := if t.kind = 2 then some t.target else (s.stream t.target).map (·.ctx)
  (11, k) :: t.names ++ (match x with | some x => (2, x) :: ((s.ctx x).map (fun c => (7, c.prog))).toList | none => [])

/-- The class-0 entries of a partition whose windows cover the start of an entry, modulo the cycle; kind 3 has no budget. -/
def Structure.covering (s : Structure) (t : TideDecl) : Nat :=
  (s.tide.filter (fun w => w.part == t.part && w.cls == .lc && w.kind != 3 &&
    decide ((t.offset + s.cycle * (w.offset / s.cycle + 1) - w.offset) % s.cycle < max 1 w.budget))).length

/-- An enabled mode of a stream has too few entries, or its context has none. -/
def Structure.tideShort (s : Structure) (d : StreamDecl) : Bool :=
  let count := fun (kind : Nat) => (s.tide.filter (fun t => t.kind == kind && t.target == d.idx)).length
  (d.live && decide (count 0 < ceilDiv (d.fps * d.tm * s.cycle) 100000)) ||
    (d.settled && decide (count 1 < ceilDiv (d.fps * s.cycle) 100000)) ||
    !s.tide.any (fun t => match t.kind with
      | 2 => t.target == d.ctx
      | 3 => false
      | _ => (s.stream t.target).any (fun x => x.ctx == d.ctx))

def Draft.tideFails (d : Draft) (s : Structure) : List Fail :=
  let es := (List.range d.tide.length).zip d.tide
  let order := (es.zip (es.drop 1)).filterMap (fun p =>
    if p.2.2.d.offset < p.1.2.d.offset then some (failNamed 12 p.2.2 [(11, p.1.1), (11, p.2.1)]) else none)
  let each := es.flatMap (fun e => when_ (s.tideBad e.2.d) (failNamed 12 e.2 (s.tideKeys e.1 e.2.d)))
  let windows := es.flatMap (fun e =>
    let t := e.2.d
    let n := match s.part t.part with | some p => (bitList 32 p.arrays.toNat).length | none => 32
    when_ (t.cls == .lc && t.kind != 3 && decide (n < s.covering t)) (failNamed 12 e.2 [(11, e.1), (0, t.part)]))
  let short := d.streams.flatMap (fun e => when_ (e.d.active && s.tideShort e.d) (failNamed 12 e [(5, e.d.idx), (2, e.d.ctx)]))
  order ++ each ++ windows ++ short

/-! ### Waits (0x0D, 0x0E; R48, R367, R508) -/

/-- The allocation that covers an object. -/
def Structure.alloc (s : Structure) (o : Nat) : Option SyncDecl :=
  s.syncs.find? (fun a => decide (a.first ≤ o) && decide (o < a.first + a.count))

/-- Descriptors of a frame-generation header, which belong to no list (R222). -/
def ProgramDecl.headDescs (p : ProgramDecl) : Nat := if p.kind = 0 then 1 else 0

/-- A run of descriptors cut after each STEP_END. -/
def cutAtEnds : List Bytes → List (List Bytes)
  | [] => []
  | d :: ds =>
    if dStepEnd d then [d] :: cutAtEnds ds
    else match cutAtEnds ds with
      | [] => [[d]]
      | k :: ks => (d :: k) :: ks

/-- The step lists of a program: the two that a serving header names, else every run of descriptors up to a STEP_END. -/
def ProgramDecl.lists (p : ProgramDecl) : List (List Bytes) :=
  if p.kind = 2 then [servingList p.desc (svHdrOf p.desc).batch, servingList p.desc (svHdrOf p.desc).vlist].map (fun l => l.map (·.2))
  else cutAtEnds ((cut 64 p.desc).drop p.headDescs)

/-- The sum of the values that one list awaits on an object. -/
def awaitedIn (o : Nat) (l : List Bytes) : Nat :=
  ((l.filter (fun d => dOpcode d == 11)).map clampDesc).foldl (fun a d => if fieldAt d 0x20 4 = o then a + fieldAt d 0x24 4 else a) 0

/-- The value that a program awaits on an object: the largest sum over its lists. -/
def ProgramDecl.awaited (p : ProgramDecl) (o : Nat) : Nat := p.lists.foldl (fun a l => max a (awaitedIn o l)) 0

/-- The contexts that a context waits for: the owners that signal an object of its manifest whose initial value falls short. -/
def Structure.waitsFor (s : Structure) (x : CtxDecl) : List (Nat × Nat × Nat) :=
  match s.prog x.prog with
  | none => []
  | some p => p.waits.filterMap (fun o =>
    match s.alloc o with
    | some a =>
      let v := p.awaited o
      if a.signaller = 0 && v != 0 && !reached a.init (BitVec.ofNat 32 v) then some (a.owner, a.first, p.id) else none
    | none => none)

/-- Contexts reached from some contexts over the wait-for edges, in at most n rounds. -/
def reachOver (edges : List (Nat × List Nat)) : Nat → List Nat → List Nat
  | 0, seen => seen
  | n + 1, seen =>
    let more := (seen.flatMap (fun x => (assoc x edges).getD [])).eraseDups.filter (fun y => !seen.contains y)
    if more.isEmpty then seen else reachOver edges n (seen ++ more)

def Draft.cycles (d : Draft) (s : Structure) : List Fail :=
  let full := s.ctxs.map (fun x => (x.id, s.waitsFor x))
  let edges := full.map (fun e => (e.1, e.2.map (·.1)))
  let onCycle := (edges.filter (fun e => (reachOver edges 256 e.2).contains e.1)).map (·.1)
  let keys := full.flatMap (fun e => if onCycle.contains e.1 then (2, e.1) :: e.2.flatMap (fun w => [(6, w.2.1), (7, w.2.2)]) else [])
  (d.ctxs.filter (fun e => onCycle.contains e.d.id)).map (fun e => fail 13 e keys)

/-- The objects that a signaller code adds to (R361, R367). -/
def signallerCovers (code o : Nat) : Bool :=
  match code with
  | 1 => decide (o < 256)
  | 2 => decide (256 ≤ o) && decide (o < 512)
  | 3 => decide (512 ≤ o) && decide (o < 768)
  | 4 => decide (768 ≤ o) && decide (o < 1280)
  | _ => true

/-- A wait on an object that nothing covers or nothing signals: the declarations it concerns. -/
def Structure.badWait (s : Structure) (o : Nat) : Option (List (Nat × Nat)) :=
  match s.alloc o with
  | none => some [(6, o)]
  | some a =>
    if a.signaller = 0 then
      let p := s.ctxProg a.owner
      if p.any (fun p => p.signals.contains o) then none else some ((6, a.first) :: (2, a.owner) :: (p.map (fun p => (7, p.id))).toList)
    else if signallerCovers a.signaller o then none else some [(6, a.first)]

/-- The objects that a tide entry waits on: those of the list it names. -/
def Structure.tideWaits (s : Structure) (t : TideDecl) : List Nat :=
  if t.kind = 2 then
    match s.ctxProg t.target with
    | some p => waitObjects ((stepList p.desc t.list).map (·.2))
    | none => []
  else []

def Draft.waitFails (d : Draft) (s : Structure) : List Fail :=
  d.progs.flatMap (fun e => e.d.waits.filterMap (fun o => (s.badWait o).map (fun k => failNamed 14 e ((7, e.d.id) :: k)))) ++
    ((List.range d.tide.length).zip d.tide).flatMap (fun e =>
      (s.tideWaits e.2.d).filterMap (fun o => (s.badWait o).map (fun k => failNamed 14 e.2 ((11, e.1) :: k)))) ++
    d.progs.flatMap (fun e => when_ (e.d.lists.any (fun l => decide (64 < (waitObjects l).length) ||
      decide (2048 < (l.filter (fun x => dOpcode x == 12)).length))) (failNamed 15 e [(7, e.d.id)]))

/-! ### What the uses need (0x0F) -/

/-- Bytes of a region declaration, 0 when it is not declared. -/
def Structure.regionBytes (s : Structure) (id : Nat) : Nat := (s.regionAt id).2

/-- A stereo partner that does not match (R110). -/
def Structure.badPair (s : Structure) (d : StreamDecl) : Bool :=
  d.partner != 255 && (s.stream d.partner).any (fun p =>
    !p.active || p.partner != d.idx || p.idx == d.idx || p.w != d.w || p.h != d.h || p.fps != d.fps || p.fmt != d.fmt || p.port != d.port)

/-- The rings that a stream's uses need (R48, R120). -/
def Structure.badRings (s : Structure) (d : StreamDecl) : List (Nat × Nat) :=
  let small := fun (on : Bool) (r n : Nat) => if on && (r == 65535 || ((s.region r).isSome && decide (s.regionBytes r < n))) then [((3 : Nat), r)] else []
  let disp := if d.partner ≠ 255 && d.idx < d.partner then 4 * d.dispBytes else 0
  small d.live d.liveRing (2 * d.slotGeo.size) ++ small d.settled d.setRing (2 * d.slotGeo.size) ++
    small (d.span != 0) d.evid (d.span * d.fps * d.slotBytes) ++ small true d.analysis (4 * d.motionBytes + disp)

/-- Two of a list of spans share a byte, or one leaves an area. -/
def badSpans (total : Nat) (l : List (Nat × Nat)) : Bool :=
  l.any (fun x => decide (total < x.1 + x.2)) || (withEarlier [] l).any (fun p => p.2.any (fun y => overlaps y.1 y.2 p.1.1 p.1.2))

/-- The Basin share that a context can count on: that of its berth, or the least it may come to occupy (R302). -/
def Structure.leastShare (s : Structure) (x : CtxDecl) : Option Nat :=
  let sizes := fun (bs : List BerthDecl) => bs.map (fun b => b.basinShare * 65536)
  if x.berth ≠ 255 then (s.berth x.berth).map (fun b => b.basinShare * 65536)
  else (sizes (s.berths.filter (fun b => b.part == x.part &&
    !s.ctxs.any (fun y => y.berth == b.id && (s.part y.part).any (fun p => p.cls == .lc))))).foldl
      (fun a n => some (match a with | some m => min m n | none => n)) none

/-- A stream's frame-generation program breaks R222 or R223. -/
def Structure.badFg (s : Structure) (d : StreamDecl) : Bool :=
  match s.ctx d.ctx with
  | none => false
  | some x =>
    match s.prog x.prog with
    | none => false
    | some p =>
      let h := fgHdrOf p.desc
      let list := fun (on : Bool) (o : Nat) => on && (o == 0 || !leadsToEnd p.desc o)
      let inNeed := 2 * d.frameBytes
      p.kind != 0 || list (d.live || d.settled) h.obs || list d.live h.ext || list d.settled h.intp ||
        decide (h.inBytes < inNeed) || decide (h.outBytes < d.outNeed) ||
        (s.leastShare x).any (fun n => badSpans n [(h.inA, h.inBytes), (h.inB, h.inBytes), (h.out0, h.outBytes), (h.out1, h.outBytes), (h.param, 64)])

/-- A serving program's regions or embedding set are too small, whether or not a context runs it (R254). -/
def Structure.badServing (s : Structure) (p : ProgramDecl) : Bool :=
  let h := svHdrOf p.desc
  let emb := match (p.sets[h.emb]?).bind s.weight with | some w => w.length | none => 0
  s.poolBlocks h == 0 || decide (s.regionBytes h.table < h.slots * h.layers * h.hkv * 2048) ||
    decide (s.regionBytes h.vision < h.slots * h.vmax * h.dm * 2) || decide (emb < h.vocab * h.dm * 2)

/-- A region that a serving header names is not declared for the partition of a context that runs the program (R254). -/
def Structure.foreignServing (s : Structure) (x : CtxDecl) (p : ProgramDecl) : Bool :=
  let h := svHdrOf p.desc
  [h.kv, h.table, h.vision].any (fun r => !(s.region r).any (fun d => d.owner == x.part))

/-- A best-effort context that can leave its berth has no swap area of the size (R303): it names no berth, or another context names its
berth or may occupy it (R302). -/
def Structure.badSwap (s : Structure) (x : CtxDecl) : Bool :=
  (s.part x.part).any (fun p => p.cls == .be) &&
    (x.berth == 255 || s.ctxs.any (fun y => y.id != x.id && (y.berth == x.berth || (y.berth == 255 && y.part == x.part)))) &&
    (let bs := if x.berth = 255 then s.berths.filter (fun b => b.part == x.part &&
        !s.ctxs.any (fun y => y.berth == b.id && (s.part y.part).any (fun p => p.cls == .lc)))
      else s.berths.filter (fun b => b.id == x.berth)
     let need := bs.foldl (fun a b => max a (s.shareBytes b)) 0
     !(s.region (3840 + x.id)).any (fun r => r.owner == x.part && decide (need ≤ r.count * 2 ^ 20)))

/-- A structure has an active stream and no ledger region, or one that breaks a condition: its owner is a partition (R454). -/
def Structure.badLedger (s : Structure) : Bool :=
  match s.region 3839 with
  | none => !s.active.isEmpty
  | some r => decide (7 < r.owner) || !r.repl || !r.rdonly || decide (r.count < 2)

def Draft.needs (d : Draft) (s : Structure) : List Fail :=
  let lcNoBerth := d.ctxs.flatMap (fun e =>
    when_ (e.d.berth == 255 && (s.part e.d.part).any (fun p => p.cls == .lc)) (fail 15 e [(2, e.d.id), (0, e.d.part)]))
  let swaps := d.ctxs.flatMap (fun e => when_ (s.badSwap e.d) (failNamed 15 e ([(2, e.d.id), (3, 3840 + e.d.id)] ++ e.d.names)))
  let streams := (d.streams.filter (·.d.active)).flatMap (fun e =>
    let rings := s.badRings e.d
    let prog := (s.ctx e.d.ctx).map (fun x => [(7, x.prog), (1, x.berth)])
    let pairOff := match d.streams.find? (fun x => x.d.idx == e.d.partner) with
      | some x => (match e.off, x.off with | some a, some b => some (min a b) | some a, none => some a | none, b => b)
      | none => e.off
    when_ (!rings.isEmpty) (fail 15 e ((5, e.d.idx) :: rings)) ++
      when_ (s.badPair e.d) ⟨15, pairOff, [(5, e.d.idx), (5, e.d.partner)], true⟩ ++
      when_ (s.badFg e.d) (failNamed 15 e ([(5, e.d.idx), (2, e.d.ctx)] ++ prog.getD [])))
  let progs := d.progs.flatMap (fun e =>
    let p := e.d
    let h := svHdrOf p.desc
    let xs := s.ctxs.filter (fun x => x.prog == p.id)
    when_ ((p.kind == 0 || p.kind == 2) && fieldAt p.desc 0 2 != 1) (failNamed 15 e [(7, p.id)]) ++
      when_ (p.kind == 2 && h.h % h.hkv != 0) (failNamed 15 e [(7, p.id)]) ++
      when_ (p.kind == 2 && s.badServing p) (failNamed 15 e ([(7, p.id), (3, h.kv), (3, h.table), (3, h.vision)] ++ p.names)) ++
      (if p.kind = 2 then xs.flatMap (fun x => when_ (s.foreignServing x p)
        (failNamed 15 e ([(7, p.id), (2, x.id), (3, h.kv), (3, h.table), (3, h.vision)] ++ p.names))) else []))
  let ledger := when_ s.badLedger ⟨15, d.resOff, (13, 0) :: (3, 3839) :: s.active.map (fun x => (5, x.idx)), true⟩
  lcNoBerth ++ swaps ++ streams ++ progs ++ ledger

/-! ### Display (0x14; R393) -/

/-- Output pixels that a window covers after clipping (R392). -/
def WindowDecl.area (w : WindowDecl) (o : OutputDecl) : Nat :=
  let m := dispMode o.mode
  min (w.w / w.d) (m.w - w.dx) * min (w.h / w.d) (m.h - w.dy)

def Draft.display (d : Draft) (s : Structure) : List Fail :=
  let badWin := fun (w : WindowDecl) =>
    !(s.output w.output).any (·.enabled) || (s.stream w.stream).any (fun t =>
      !t.active || !(if w.ring = 0 then t.live else t.settled) || decide (t.slotGeo.wo < w.sx + w.w) || decide (t.slotGeo.ho < w.sy + w.h))
  d.windows.flatMap (fun e => when_ (badWin e.d) (failNamed 20 e ([(9, e.d.id), (10, e.d.output)] ++ e.d.names))) ++
    d.outputs.flatMap (fun e =>
      let o := e.d
      let m := dispMode o.mode
      let ws := s.windows.filter (fun w => w.output == o.output)
      when_ (decide (16 < ws.length) || decide (2 * (m.w * m.h) < ws.foldl (fun a w => a + w.area o) 0) ||
          (o.enabled && !carries o.mode o.bpc o.lanes o.rate)) (failNamed 20 e ((10, o.output) :: ws.map (fun w => (9, w.id)))))

/-! ### The stage -/

/-- What the stage needs besides the structure: the grade, retired slots of each channel, the running layout, the declarations an amendment
replaces. -/
structure CheckEnv where
  grade : Grade
  bad : Nat → Nat
  full : Bool
  running : List Placed
  replaced : List (Nat × Nat)

/-- Every failing condition. -/
def Draft.fails (d : Draft) (v : CheckEnv) : List Fail :=
  let s := d.structure_
  d.dups ++ d.badNames ++ d.beyond v.grade ++ d.ownership ++ d.overChannels v.bad ++ d.berthRoom s ++ d.storeRoom ++
    d.layoutRoom s v.full v.running v.replaced ++ d.watched ++ d.rates v.grade ++ d.tideFails s ++ d.cycles s ++ d.waitFails s ++
    d.needs s ++ d.display s

/-- Each entry of an amendment with the declarations it is, names or removes; removals with an output's windows. -/
abbrev Parts := List (Nat × List (Nat × Nat))

def Draft.parts_ (d : Draft) (removed : List (Nat × (Nat × Nat))) : Parts :=
  d.entries.filterMap (fun e => e.1.map (fun o => (o, e.2.1 :: e.2.2))) ++ removed.map (fun r => (r.1, [r.2]))

/-- The offset reported for a failure of an amendment (R547). -/
def Fail.amendOff (f : Fail) (parts : Parts) : Nat :=
  match f.named, f.off with
  | true, some o => o
  | _, _ => (leastBy (fun w => w) (f.off.toList ++ (parts.filter (fun p => p.2.any f.con.contains)).map (·.1))).getD 0

/-- The first failure: least offset, ties to the lower code (log 13). -/
def firstReject (l : List Reject) : Option Reject := leastBy (fun r => r.2 * 256 + r.1) l

/-- The consistency stage: the rejection, if any. parts is empty for a full image. -/
def Draft.consistent (d : Draft) (v : CheckEnv) (parts : Parts) : Option Reject :=
  let fs := (d.fails v).map (fun f => (f.code, if v.full then f.off.getD 0 else f.amendOff parts))
  firstReject (fs ++ (if 8 * 2 ^ 20 < d.structure_.storedSize then [(0x13, 0)] else []))

end Sys2Proof.Machine
end

