-- ==== Sys2Proof/Machine/ScanOut.lean ====
section
/-! DEFINITION. Display scan-out: slot choice, pixels, the line buffer and latency tolerance, link training (13_scan_out.md). -/

namespace Sys2Proof.Machine

/-! ### Timing (R388) -/

/-- n lines of a mode, in nanoseconds. -/
def DispMode.linesNs (m : DispMode) (n : Nat) : Nat := n * m.totalW * 1000000 / m.khz

/-- The vertical blanking of a mode in nanoseconds. -/
def DispMode.blankNs (m : DispMode) : Nat := m.linesNs m.blank

/-! ### Windows and slots (R394, R395) -/

/-- The windows of an output, lowest layer first, ties to the lower id (R394). -/
def Structure.windowsOf (s : Structure) (n : Nat) : List WindowDecl :=
  (s.windows.filter (fun w => w.output == n)).mergeSort (fun a b => decide (a.layer * 64 + a.id ≤ b.layer * 64 + b.id))

/-- The output columns that a window shows: those in the active area (R392). -/
def WindowDecl.cols (w : WindowDecl) (m : DispMode) : Nat := min (w.w / w.d) (m.w - w.dx)

/-- The window shows pixels on output line y. -/
def WindowDecl.covers (w : WindowDecl) (m : DispMode) (y : Nat) : Bool :=
  w.cols m != 0 && decide (y < m.h) && decide (w.dy ≤ y) && decide (y < w.dy + w.h / w.d)

/-- The window shows pixels (R392). -/
def WindowDecl.shows (w : WindowDecl) (m : DispMode) : Bool := w.covers m w.dy

/-- The source columns behind the shown ones. -/
def WindowDecl.lastCol (w : WindowDecl) (m : DispMode) : Nat := w.sx + w.d * (w.cols m - 1)

/-- The bytes of a packed row that hold the shown source columns: the first and their count (R239). -/
def WindowDecl.span (w : WindowDecl) (m : DispMode) : Nat × Nat := (w.sx / 4 * 5, (w.lastCol m / 4 + 1 - w.sx / 4) * 5)

/-- The bytes of a provenance row behind the shown columns; none without overlay (R397). -/
def WindowDecl.provSpan (w : WindowDecl) (m : DispMode) : Nat × Nat :=
  (w.sx / 16, if w.overlay = 0 then 0 else w.lastCol m / 16 + 1 - w.sx / 16)

/-- Device addresses of the slots of a ring. -/
def Chip.slotAddrs (c : Chip) (d : StreamDecl) (settled : Bool) : List Nat :=
  let (a, n) := c.ring d settled
  (List.range n).map (fun i => a + i * d.slotGeo.size)

/-- The instant and presentation time of a complete slot; none for one that is being written or was never written (R244). -/
def Chip.slotHead (c : Chip) (d : StreamDecl) (settled : Bool) (a : Nat) : Option (Nat × Nat) :=
  let h := c.dramRead a 0x40
  if fieldAt h 0 8 = ones64 || fieldAt h 0x2C 2 ≠ d.slotGeo.wo || fieldAt h 0x28 1 ≠ d.idx || fieldAt h 0x29 1 ≠ b2n settled then none
  else some (fieldAt h 0 8, fieldAt h 0x18 8)

/-- Of some slots, the one with the greatest presentation time at or before t_a: its instant and address. -/
def Chip.chooseSlot (c : Chip) (d : StreamDecl) (settled : Bool) (addrs : List Nat) (ta : Nat) : Option (Nat × Nat) :=
  let held := addrs.filterMap (fun a =>
    (c.slotHead d settled a).bind (fun h => if h.2 ≤ ta then some (h.2, h.1, a) else none))
  (held.foldl (fun (b : Option (Nat × Nat × Nat)) x => match b with
    | none => some x
    | some y => if y.1 < x.1 then some x else some y) none).map (fun x => (x.2.1, x.2.2))

/-- The engine reads DRAM, which R347 does not refuse it (R402): the bytes, or none where a sector of them fails. -/
def Chip.scanRead (a n : Nat) (c : Chip) : Chip × Option Bytes :=
  if n = 0 then (c, some []) else
  match c.readSectors .scanout 0xFF noStep a n with
  | (c, some _) => (c, none)
  | (c, none) => (c, some (c.dramRead a n))

/-! ### Pixels (R397, R398) -/

/-- Three components. -/
abbrev Rgb := Nat × Nat × Nat

/-- A component at the output's depth: 10 bits, or 8 by rounding. -/
def compOut (bpc v : Nat) : Nat := if bpc = 8 then min 255 (rnaDiv v 4).toNat else v

def rgbOut (bpc : Nat) (p : Rgb) : Rgb := (compOut bpc p.1, compOut bpc p.2.1, compOut bpc p.2.2)

/-- A background colour (R389). -/
def bgRgb (bpc : Nat) (w : Word) : Rgb := rgbOut bpc (bitsOf w.toNat 29 20, bitsOf w.toNat 19 10, bitsOf w.toNat 9 0)

/-- The conversion of one pixel's codes. -/
def yuvRgb (y cb cr : Int) : Rgb :=
  let f := fun (v : Int) => (clampInt 0 1023 (rnaDiv v 4096)).toNat
  (f (4783 * (y - 64) + 7365 * (cr - 512)), f (4783 * (y - 64) - 876 * (cb - 512) - 2189 * (cr - 512)),
    f (4783 * (y - 64) + 8678 * (cb - 512)))

/-- The overlay tint of a provenance byte, if any. -/
def tint (overlay prov : Nat) : Option Rgb :=
  if overlay = 0 then none
  else if overlay = 2 && prov.testBit 5 then some (1023, 0, 1023)
  else match prov / 64 % 4 with
    | 1 => some (0, 0, 1023)
    | 2 => some (1023, 767, 0)
    | 3 => some (1023, 0, 0)
    | _ => none

/-- A pixel under its tint. -/
def tinted (t : Option Rgb) (p : Rgb) : Rgb :=
  match t with
  | none => p
  | some k =>
    let f := fun (a b : Nat) => (rnaDiv ((3 * a + b : Nat) : Int) 4).toNat
    (f p.1 k.1, f p.2.1 k.2.1, f p.2.2 k.2.2)

/-- The pixels of a window's line from its source row (R397, R398). -/
def WindowDecl.pixels (w : WindowDecl) (m : DispMode) (bpc : Nat) (src : Bytes × Bytes × Bytes) : List Rgb :=
  let x0 := w.sx / 4 * 4
  let codes := fun (b : Bytes) => (unpackPlane (b.length / 5 * 4) 1 b).toArray
  let luma := codes src.1
  let chroma := codes src.2.1
  let prov := (src.2.2.map (·.toNat)).toArray
  (List.range (w.cols m)).map (fun x =>
    let sx := w.sx + w.d * x
    let k := sx / 2 * 2 - x0
    rgbOut bpc (tinted (tint w.overlay (prov.getD (sx / 16 - w.sx / 16) 0))
      (yuvRgb (luma.getD (sx - x0) 0) (chroma.getD k 0) (chroma.getD (k + 1) 0))))

/-- Lay a run over a line from a column. -/
def paint {α : Type} (line : List α) (x : Nat) (run : List α) : List α := line.take x ++ run ++ line.drop (x + run.length)

/-- A pixel of a line, and whether it was sent without its source bytes (R403). -/
abbrev SentPixel := Rgb × Bool

/-- Line y of an output frame from its source rows: the output's background, then every window that covers the line, lowest layer first
(R394). A window without a slot shows its background (R395), and so does one whose source bytes the line lacks (R403). -/
def ScanFrame.compose (f : ScanFrame) (rows : List SrcRow) (y : Nat) : List SentPixel :=
  let m := dispMode f.decl.mode
  let bpc := f.decl.bpc
  f.wins.foldl (fun line v =>
    if v.decl.covers m y then
      let back := fun (late : Bool) => List.replicate (v.decl.cols m) (bgRgb bpc v.decl.bg, late)
      paint line v.decl.dx (match v.src, (rows.find? (fun r => r.win == v.decl.id)).bind (·.data) with
        | some _, some b => (v.decl.pixels m bpc b).map (fun p => (p, false))
        | some _, none => back true
        | none, _ => back false)
    else line) (List.replicate m.w (bgRgb bpc f.decl.bg, false))

/-- The pixels of line y that source bytes give, each with the background that stands in for it (R403). -/
def ScanFrame.sourced (f : ScanFrame) (y : Nat) : List (Option Rgb) :=
  let m := dispMode f.decl.mode
  f.wins.foldl (fun line v =>
    if v.decl.covers m y then
      paint line v.decl.dx (List.replicate (v.decl.cols m) (v.src.map (fun _ => bgRgb f.decl.bpc v.decl.bg)))
    else line) (List.replicate m.w none)

/-- A line as it was sent, some of whose pixels were due before their source bytes: each of those shows its window's background (R403). -/
def ScanFrame.underrun (f : ScanFrame) (late : List (Nat × Nat × Nat)) (y : Nat) (line : List SentPixel) : List SentPixel :=
  let runs := late.filter (fun r => r.1 == y)
  if runs.isEmpty then line else
  (line.zip (f.sourced y)).zipIdx.map (fun p =>
    match p.1.2 with
    | some b => if runs.any (fun r => decide (r.2.1 ≤ p.2) && decide (p.2 < r.2.1 + r.2.2)) then (b, true) else p.1.1
    | none => p.1.1)

/-! ### The line buffer (R400, R401) -/

/-- Source bytes of an output line over the windows that cover it: luma and chroma rows, and the provenance row with the overlay. -/
def ScanFrame.lineBytes (f : ScanFrame) (y : Nat) : Nat :=
  let m := dispMode f.decl.mode
  f.wins.foldl (fun a v => if v.src.isSome && v.decl.covers m y then a + 2 * (v.decl.span m).2 + (v.decl.provSpan m).2 else a) 0

/-- Lines from line y on that a budget of bytes holds, at most k. -/
def ScanFrame.fitLines (f : ScanFrame) : Nat → Nat → Nat → Nat
  | 0, _, _ => 0
  | k + 1, y, room => if f.lineBytes y ≤ room then 1 + f.fitLines k (y + 1) (room - f.lineBytes y) else 0

/-- Output lines that the buffer holds from line y on: as many as fit, at most as many as prefill fetches, none beyond the frame
(R400). -/
def ScanFrame.ahead (f : ScanFrame) (y : Nat) : Nat :=
  f.fitLines (min (f.fitLines 8 0 (256 * 1024)) ((dispMode f.decl.mode).h - y)) y (256 * 1024)

/-- Fetch the source row of a window for output line y. -/
def Chip.fetchRow (m : DispMode) (y : Nat) (v : ScanWin) (c : Chip) : Chip × List SrcRow :=
  match v.src with
  | none => (c, [])
  | some (d, a) =>
    let w := v.decl
    if !w.covers m y then (c, []) else
    let g := d.slotGeo
    let row := ceilDiv g.wo 4 * 5
    let sy := w.sy + w.d * (y - w.dy)
    let (c, luma) := c.scanRead (a + 4096 + sy * row + (w.span m).1) (w.span m).2
    let (c, chroma) := c.scanRead (a + g.chromaAt + sy / 2 * row + (w.span m).1) (w.span m).2
    let (c, prov) := c.scanRead (a + g.provAt + sy / 16 * ceilDiv g.wo 16 + (w.provSpan m).1) (w.provSpan m).2
    (c, [{ win := w.id, data := luma.bind (fun l => chroma.bind (fun k => prov.map (fun p => (l, k, p)))) }])

/-- Fetch the source rows of output line y. -/
def Chip.fetchLine (f : ScanFrame) (y : Nat) (c : Chip) : Chip × List SrcRow :=
  f.wins.foldl (fun (x : Chip × List SrcRow) v =>
    let (c, r) := x.1.fetchRow (dispMode f.decl.mode) y v
    (c, x.2 ++ r)) (c, [])

/-- Fetch lines until the buffer of an output is as full as R400 keeps it. -/
def Chip.fillBuffer (n : Nat) (c : Chip) : Chip :=
  match (c.out n).frame with
  | none => c
  | some f =>
    let y := (c.out n).lines.length
    let k := (c.out n).buf.length
    ((List.range (f.ahead y - k)).foldl (fun (c : Chip) i =>
      let (c, rows) := c.fetchLine f (y + k + i)
      c.updOut n (fun x => { x with buf := x.buf ++ [rows] })) c)

/-- The runs of pixels of a line that were sent without their source bytes. -/
def lateRuns (y : Nat) (line : List SentPixel) : List (Nat × Nat × Nat) :=
  (line.zipIdx.filter (fun p => p.1.2)).foldl (fun (acc : List (Nat × Nat × Nat)) p => match acc with
    | (_, x, k) :: rest => if x + k = p.2 then (y, x, k + 1) :: rest else (y, p.2, 1) :: acc
    | [] => [(y, p.2, 1)]) []

/-- The next line of an output begins: it is composed from the head of the buffer, and the buffer is refilled. -/
def Chip.beginLine (n : Nat) (c : Chip) : Chip :=
  match (c.out n).frame with
  | none => c
  | some f =>
    let x := c.out n
    let y := x.lines.length
    let line := f.compose (x.buf.head?.getD []) y
    (c.updOut n (fun x => { x with lines := x.lines ++ [line.map (·.1)], late := x.late ++ lateRuns y line, buf := x.buf.tail })).fillBuffer n

/-- Where an output is: lines since its vertical blanking began, none while it has not begun one. -/
def Chip.lineNow (c : Chip) (n : Nat) : Option Nat :=
  match (c.out n).vbAt, c.str.output n with
  | some t, some o => let m := dispMode o.mode; some ((c.clk.ref - t) * m.khz / (m.totalW * 1000000))
  | _, _ => none

/-- SO_LINE: active lines count from 0; a line of blanking reads as the active height plus its number (log 50). -/
def Chip.soLine (c : Chip) (n : Nat) : Word :=
  match c.lineNow n, c.str.output n with
  | some k, some o =>
    let m := dispMode o.mode
    if k < m.blank then BitVec.ofNat 32 (2 ^ 16 + (m.h + k) % 4096) else BitVec.ofNat 32 ((k - m.blank) % 4096)
  | _, _ => 0

/-- The active lines of an output frame that have begun by now. -/
def Chip.begun (c : Chip) (n : Nat) : Nat :=
  match c.lineNow n, c.str.output n with
  | some k, some o =>
    let m := dispMode o.mode
    if k < m.blank then 0 else min m.h (k - m.blank + 1)
  | _, _ => 0

/-- Scan-out up to now: every active line that has begun since is sent, in order (R394, R400). -/
def Chip.scan (c : Chip) : Chip :=
  (List.range 4).foldl (fun (c : Chip) n =>
    if (c.out n).st == .active && (c.out n).vbAt.isSome then
      (List.range (c.begun n - (c.out n).lines.length)).foldl (fun (c : Chip) _ => c.beginLine n) c
    else c) c

/-- A command comes: time passes, and the outputs send their lines; reads now meet the errors that it names. In power-on reset nothing
runs. -/
def Chip.arrive (dt : Sys2Proof.When) (c : Chip) : Chip := if c.por then c else { c.elapse dt.ns with met := dt.errs }.scan

/-- Output lines after the one being sent whose source bytes are all in the buffer (R401). -/
def Output.filled (x : Output) : Nat := (x.buf.takeWhile (fun rows => rows.all (fun r => r.data.isSome))).length

/-- SO_LAT_TOL (R401): with the prefill complete, F lines and what remains of the blanking; before that, what remains of the blanking less
50 µs; all ones while not ACTIVE; 0 before the first vertical blanking (log 50). -/
def Chip.latTol (c : Chip) (n : Nat) : Word :=
  if (c.out n).st != .active then 0xFFFFFFFF else
  match (c.out n).vbAt, c.str.output n with
  | some t, some o =>
    let m := dispMode o.mode
    let left := m.blankNs - (c.clk.ref - t)
    BitVec.ofNat 32 (min 0xFFFFFFFE (if c.clk.ref < (c.out n).filledAt then left - 50000
      else m.linesNs (c.out n).filled + left - 1000))
  | _, _ => 0

/-! ### Vertical blanking (R395, R396, R400, R403) -/

/-- The slot heads of a ring are read; the slots whose head was read without a failing sector. -/
def Chip.readHeads (addrs : List Nat) (c : Chip) : Chip × List Nat :=
  addrs.foldl (fun (x : Chip × List Nat) a =>
    match x.1.scanRead a 0x40 with
    | (c, some _) => (c, x.2 ++ [a])
    | (c, none) => (c, x.2)) (c, [])

/-- A window chooses its slot for the frame to come (R395). A window that shows no pixel reads nothing (R392; log 133). TORN stays as the
frame just sent left it (R405). -/
def Chip.chooseWindow (m : DispMode) (ta : Nat) (w : WindowDecl) (c : Chip) : Chip × ScanWin :=
  let (c, pick) : Chip × Option (StreamDecl × Nat × Nat) := match c.str.stream w.stream with
    | none => (c, none)
    | some d =>
      let settled := w.ring != 0
      let addrs := c.slotAddrs d settled
      let (c, addrs) := if w.shows m then c.readHeads addrs else (c, addrs)
      (c, (c.chooseSlot d settled addrs ta).map (fun p => (d, p)))
  (c.updWin w.id (fun x => { x with
      valid := true
      nosrc := pick.isNone
      torn := x.torn && x.inst.isSome
      output := w.output
      inst := pick.map (·.2.1)
      addr := match pick with | some p => p.2.2 | none => 0 }),
    { decl := w, src := pick.map (fun p => (p.1, p.2.2)) })

/-- Windows that an output no longer shows. -/
def Chip.dropWindows (n : Nat) (keep : Nat → Bool) (c : Chip) : Chip :=
  c.updSo (fun o => { o with win := Vector.ofFn (fun (i : Fin 64) =>
    let w := vget {} o.win i.val
    if w.valid && w.output == n && !keep i.val then {} else w) })

/-- The frame that has just been sent is counted (R403): the pixels that were due before their source bytes, those that the link reports
and those whose bytes could not be read, show their windows' backgrounds. -/
def Chip.frameSent (n : Nat) (late : List (Nat × Nat × Nat)) (c : Chip) : Chip :=
  match (c.out n).frame with
  | none => c
  | some f =>
    let x := c.out n
    let sent := x.lines.zipIdx.map (fun l => f.underrun (late ++ x.late) l.2 (l.1.map (fun p => (p, false))))
    let under := (sent.map (fun l => l.countP (·.2))).sum
    let c := c.updOut n (fun o => { o with frames := satInc o.frames, shown := sent.map (fun l => l.map (·.1)) })
    if under = 0 then c
    else (c.updOut n (fun o => { o with underFrames := satInc o.underFrames, underPx := satAdd o.underPx under })).soEvt n 0

/-- VBLANK_START on an ACTIVE output: the frame sent is counted, the windows choose their slots, and prefill begins; how long it takes is a
free value (R395, R400, R401; log 133). -/
def Chip.vblank (n : Nat) (late : List (Nat × Nat × Nat)) (c : Chip) : Chip :=
  match c.str.output n with
  | none => c
  | some o =>
    let m := dispMode o.mode
    let c := c.frameSent n late
    let ws := c.str.windowsOf n
    let c := c.dropWindows n (fun i => ws.any (fun w => w.id == i))
    let (c, wins) := ws.foldl (fun (x : Chip × List ScanWin) w =>
      let (c, v) := x.1.chooseWindow m (c.clk.dev + m.blankNs) w
      (c, x.2 ++ [v])) (c, [])
    let (took, c) := c.open_
    (c.updOut n (fun x => { x with
      vbAt := some c.clk.ref
      filledAt := c.clk.ref + took.toNat
      frame := some { decl := o, wins := wins }
      buf := []
      lines := []
      late := [] })).fillBuffer n

/-- TORN_CHECK of a window that shows a slot: its j has changed since the choice or has not. A head that cannot be read says nothing. -/
def Chip.tornCheck (w : Nat) (c : Chip) : Chip :=
  let x := c.win w
  match x.inst with
  | none => c
  | some j =>
    match c.scanRead x.addr 8 with
    | (c, none) => c
    | (c, some h) =>
      if leNat h = j then c.updWin w (fun x => { x with torn := false })
      else ((c.updWin w (fun x => { x with torn := true })).updOut x.output (fun o => { o with torn := satInc o.torn })).soEvt x.output 2

/-! ### Links (R390, R391, R404) -/

/-- The combinations that training tries in order: each rate from the declared one down, then half the lanes; only those that carry the
mode. -/
def OutputDecl.combos (o : OutputDecl) : List (Nat × Nat) :=
  let lanes := match o.lanes with | 4 => [4, 2, 1] | 2 => [2, 1] | _ => [1]
  (lanes.flatMap (fun l => (List.range (o.rate + 1)).reverse.map (fun r => (l, r)))).filter (fun p => carries o.mode o.bpc p.1 p.2)

/-- An output that is not ACTIVE shows nothing and fetches nothing. -/
def Chip.outIdle (n : Nat) (st : OutState) (c : Chip) : Chip :=
  (c.updOut n (fun o => { o with
    st := st
    lanes := 0
    rate := 0
    vbAt := none
    frame := none
    buf := []
    lines := []
    late := [] })).dropWindows n (fun _ => false)

/-- Training starts at the first combination. -/
def Chip.startTraining (n : Nat) (c : Chip) : Chip :=
  match (c.str.output n).bind (fun o => o.combos.head?) with
  | some (l, r) => (c.outIdle n .training).updOut n (fun o => { o with tryLanes := l, tryRate := r })
  | none => (c.outIdle n .failed).soEvt n 3

/-- An output may drive a link: it is enabled and not held off. -/
def Chip.outWanted (c : Chip) (n : Nat) : Bool := (c.str.output n).any (·.enabled) && !(c.out n).ctl.toNat.testBit 8

/-- An output is switched off; its PHY, off with it (R479), no longer sees the hot-plug level. -/
def Chip.outOff (n : Nat) (c : Chip) : Chip := (c.outIdle n .off).updOut n (fun o => { o with hpd := false })

/-- Sleep switches every output off (R404). -/
def Chip.outputsOff (c : Chip) : Chip := (List.range 4).foldl (fun c n => c.outOff n) c

/-- An output starts afresh: off, waiting for HPD, or training. -/
def Chip.restartOut (n : Nat) (c : Chip) : Chip :=
  if !c.outWanted n then c.outOff n
  else if (c.out n).hpd then c.startTraining n
  else c.outIdle n .waitHpd

/-- HPD_ASSERTED. -/
def Chip.hpdUp (n : Nat) (c : Chip) : Chip :=
  let c := (c.updOut n (fun o => { o with hpd := true })).soEvt n 1
  if (c.out n).st == .waitHpd || (c.out n).st == .failed then c.startTraining n else c

/-- HPD_UNPLUG. -/
def Chip.hpdDown (n : Nat) (c : Chip) : Chip :=
  let c := (c.updOut n (fun o => { o with hpd := false })).soEvt n 1
  if (c.out n).st == .off then c else c.outIdle n .waitHpd

/-- IRQ_HPD on an ACTIVE output. -/
def Chip.irqHpd (n : Nat) (lost : Bool) (c : Chip) : Chip := if lost then (c.startTraining n).soEvt n 4 else c

/-- LINK_TRAINING_DONE. -/
def Chip.trained (n : Nat) (ok : Bool) (c : Chip) : Chip :=
  let o := c.out n
  if ok then c.updOut n (fun x => { x with st := .active, lanes := o.tryLanes, rate := o.tryRate })
  else
    let rest := match c.str.output n with
      | some d => (d.combos.dropWhile (fun p => p != (o.tryLanes, o.tryRate))).drop 1
      | none => []
    match rest with
    | (l, r) :: _ => c.updOut n (fun x => { x with tryLanes := l, tryRate := r })
    | [] => (c.outIdle n .failed).soEvt n 3

/-- An application reaches an output: it is retrained when its link changes, and keeps it otherwise (R404). -/
def Chip.applyOutput (old : Structure) (n : Nat) (c : Chip) : Chip :=
  match old.output n, c.str.output n with
  | some a, some b =>
    if a.enabled && b.enabled && a.mode == b.mode && a.bpc == b.bpc && a.lanes == b.lanes && a.rate == b.rate then c
    else c.restartOut n
  | none, none => c
  | _, _ => c.restartOut n

end Sys2Proof.Machine
end

