-- ==== Sys2Proof/Machine/Apply.lean ====
section
/-! DEFINITION. Validation (R44 to R50), amendments (R59), the application of an image (R51 to R63) and what brings contexts, berths and
streams into service (R87, R247, R304, R305). -/

namespace Sys2Proof.Machine

/-! ### Amendments (R59) -/

/-- Remove an object from a draft; an output takes its windows with it. -/
def Draft.remove (k : Nat × Nat) (d : Draft) : Draft :=
  match k.1 with
  | 0 => { d with parts := d.parts.filter (fun e => e.d.id != k.2) }
  | 1 => { d with berths := d.berths.filter (fun e => e.d.id != k.2) }
  | 2 => { d with ctxs := d.ctxs.filter (fun e => e.d.id != k.2) }
  | 3 => { d with regions := d.regions.filter (fun e => e.d.id != k.2) }
  | 4 => { d with grants := d.grants.filter (fun e => e.d.id != k.2) }
  | 5 => { d with streams := d.streams.filter (fun e => e.d.idx != k.2) }
  | 6 => { d with syncs := d.syncs.filter (fun e => e.d.first != k.2) }
  | 7 => { d with progs := d.progs.filter (fun e => e.d.id != k.2) }
  | 8 => { d with weights := d.weights.filter (fun e => e.d.id != k.2) }
  | 9 => { d with windows := d.windows.filter (fun e => e.d.id != k.2) }
  | 10 => { d with outputs := d.outputs.filter (fun e => e.d.output != k.2), windows := d.windows.filter (fun e => e.d.output != k.2) }
  | 11 => { d with tide := [] }
  | _ => { d with routes := d.routes.filter (fun e => e.d.source != k.2) }

/-- The declarations of a draft after those of another. -/
def Draft.append (a b : Draft) : Draft :=
  { a with
    serial := b.serial
    parts := a.parts ++ b.parts, berths := a.berths ++ b.berths, ctxs := a.ctxs ++ b.ctxs, regions := a.regions ++ b.regions
    grants := a.grants ++ b.grants, streams := a.streams ++ b.streams, tide := a.tide ++ b.tide, syncs := a.syncs ++ b.syncs
    routes := a.routes ++ b.routes, outputs := a.outputs ++ b.outputs, windows := a.windows ++ b.windows, progs := a.progs ++ b.progs
    weights := a.weights ++ b.weights, removals := b.removals }

/-- The windows that an output's removal takes with it. -/
def Draft.withWindows (d : Draft) (k : Nat × Nat) : List (Nat × Nat) :=
  if k.1 = 10 then k :: (d.windows.filter (fun e => e.d.output == k.2)).map (fun e => (9, e.d.id)) else [k]

/-- A merged amendment: the structure as it would stand, what it takes away and brings, the failures of R39 and R59, and the entries that
remove. -/
structure Merged where
  draft : Draft
  delta : Delta
  fails : List Reject
  removed : List (Nat × (Nat × Nat))

/-- An amendment's partition entry changes only the array mask. -/
def sameButArrays (a b : PartDecl) : Bool := { a with arrays := 0 } == { b with arrays := 0 }

/-- Merge an amendment into the running structure. What a remaining declaration names is not removed (R59): a partition or a berth not
even when the amendment declares it again, since what stays keeps its share (R60); anything else may be removed and declared again,
which replaces it (log 105). -/
def mergeAmend (base : Structure) (a : Draft) (sections : List Nat) : Merged :=
  let b := draftOfStructure base
  let own := a.entries.map (fun e => e.2.1)
  let rem := a.removals.map (fun e => (e.off.getD 0, (e.d.kind, e.d.id)))
  let bad := rem.filterMap (fun r =>
    if 11 ≤ r.2.1 then some ((4 : Nat), r.1) else if b.has r.2 then none else some (6, r.1))
  let rem := rem.filter (fun r => r.2.1 < 11 && b.has r.2)
  let tideKey := if sections.contains 8 then [((11 : Nat), (0 : Nat))] else []
  let left := (rem.map (·.2) ++ tideKey).foldl (fun d k => d.remove k) b
  let object := fun (k : Nat × Nat) =>
    if k.1 = 14 then (base.alloc k.2).map (fun x => ((6 : Nat), x.first)) else some k
  let named := (left.entries.flatMap (fun e => e.2.2)).filterMap object ++ [(3, base.store)]
  let blocked := rem.filter (fun r => named.contains r.2 && (r.2.1 < 2 || !own.contains r.2))
  let done := (rem.filter (fun r => !(blocked.map (·.2)).contains r.2)).map (·.2)
  let gone := done.flatMap b.withWindows
  let kept := (done ++ tideKey).foldl (fun d k => d.remove k) b
  let beyond := own.filter (fun k => k.1 != 11 && (kept.has k || (k.1 == 12 && kept.routes.any (fun e => e.d.source == k.2))))
  let illegal := a.entries.filterMap (fun e =>
    let k := e.2.1
    let ok := match k.1 with
      | 0 => base.parts.any (fun p => p.id == k.2 && a.parts.any (fun q => q.off == e.1 && sameButArrays p q.d))
      | 9 => true
      | 10 => true
      | 11 => true
      | 12 => true
      | _ => false
    let store := k.1 == 3 && k.2 == base.store
    if (beyond.contains k && !ok) || store then some ((7 : Nat), e.1.getD 0) else none)
  { draft := (beyond.foldl (fun d k => if k.1 = 10 then { d with outputs := d.outputs.filter (fun e => e.d.output != k.2) } else d.remove k) kept).append a
    delta := { gone := gone ++ beyond, removed := gone, added := own, sections := sections }
    fails := bad ++ blocked.map (fun r => (7, r.1)) ++ illegal
    removed := rem }

/-! ### Validation (R44) -/

/-- The outcome of validation: the kind where it was found, the clamps where stage 4 was reached, the rejection or the structure. -/
structure Verdict where
  kind : Option Nat
  clamps : Nat × Nat
  result : Except Reject (Bool × Structure × Delta)

/-- Retired slots of a channel. -/
def Chip.badSlots (c : Chip) (n : Nat) : Nat := (c.chan n).bad.length

/-- Stage 5 on a clamped image. -/
def Chip.stage5 (c : Chip) (full : Bool) (d : Draft) (sections : List Nat) : Except Reject (Bool × Structure × Delta) :=
  let env := fun (replaced : List (Nat × Nat)) => ({ grade := c.id.grade, bad := c.badSlots, full := full, running := c.tt.layout, replaced := replaced } : CheckEnv)
  if full then
    match d.consistent (env []) [] with
    | some r => .error r
    | none => .ok (true, d.structure_, { gone := [], added := d.entries.map (fun e => e.2.1), sections := sections })
  else
    let m := mergeAmend c.str d sections
    match firstReject (m.fails ++ (m.draft.consistent (env m.delta.gone) (m.draft.parts_ m.removed)).toList) with
    | some r => .error r
    | none => .ok (false, m.draft.structure_, m.delta)

/-- A full image's serial exceeds the effective one while a structure is applied; an amendment's base serial equals it (R45). -/
def Chip.serialOk (c : Chip) (kind serial base : Nat) : Bool :=
  match c.cfg.applied with
  | none => kind = 0
  | some s => s.serial < serial && (kind = 0 || base == s.serial)

/-- The five stages on an image and the length that its ADMIT found. -/
def Chip.validate (c : Chip) (img : Bytes) (len : Nat) : Verdict :=
  match container img len with
  | .error (r, kind) => ⟨kind, (0, 0), .error r⟩
  | .ok (kind, secs) =>
    let sig := rsaOf (img.drop (len - 384))
    let signed := c.hm.owner.any (fun n => rsaVerify n (sha256 (img.take (len - 384))) sig)
    if !signed then ⟨some kind, (0, 0), .error (2, len - 384)⟩
    else
      let serial := fieldAt img 0x10 8
      if !c.serialOk kind serial (fieldAt img 0x18 8) then ⟨some kind, (0, 0), .error (3, 0x10)⟩
      else
        let (clamped, n, first) := clampAll secs
        ⟨some kind, (n, first), c.stage5 (kind = 0) (draftOf serial clamped) (secs.map (·.1))⟩

/-- A write of ADMIT (R24): validation begins, or code 0x10 while one is in progress or an image is pending. DESIGN CHOICE: KIND keeps
what the image before it had until validation ends (log 108). -/
def Chip.takeImage (c : Chip) : Chip :=
  if c.cfg.state == .validating || c.cfg.state == .pending then c.updCfg (fun g => { g with errCode := 0x10, errOff := 0 })
  else c.updCfg (fun g => { g with state := .validating, admitLen := g.imgLen.toNat })

/-- Reject the image under validation or at its application. -/
def Chip.rejectImage (r : Reject) (c : Chip) : Chip :=
  c.updCfg (fun g => { g with state := .rejected, errCode := r.1, errOff := BitVec.ofNat 32 r.2, pend := none })

/-- CFG_IMG_STATUS (R21). -/
def Chip.imgStatus (c : Chip) : Word :=
  let st := match c.cfg.state with
    | .idle => 0 | .validating => 1 | .pending => 2 | .applied => 3 | .rejected => 4 | .discarded => 5
  BitVec.ofNat 32 (b2n c.cfg.applied.isSome * 256 + c.cfg.kind * 16 + st)

/-- Source 788: validation ended or an image was applied (R374). -/
def Chip.imgEvent (c : Chip) : Chip := c.raise 788 (statusDetail c.imgStatus)

/-- An intake word at an image offset fails after its retries: a Basin word while no structure is applied (R332), a sector of the store
region else (R349). -/
def Chip.intakeFails (o : Nat) (c : Chip) : Chip :=
  let (r, c) := c.openRequester
  match c.cfg.applied with
  | none => c.basinFail r 255 noStep (31 * 2 ^ 24 + o)
  | some s => (c.sector r 255 noStep ⟨(s.regionAt s.store).1 + storeIntake + o, 9, true, true⟩).1

/-- Validation ends (R50). bad: the image offset of an intake word that could not be read, which is recorded and rejects with code 0x01
there (R333). -/
def Chip.endValidation (bad : Option Nat) (c : Chip) : Chip :=
  let len := c.cfg.admitLen
  let c := match bad with | some o => c.intakeFails o | none => c
  let v : Verdict := match bad with
    | some o => ⟨none, (0, 0), .error (1, o)⟩
    | none => c.validate (c.intakeRead 0 (min len (8 * 2 ^ 20))) len
  let c := c.updCfg (fun g => { g with kind := v.kind.getD 15, clampCount := BitVec.ofNat 32 v.clamps.1, clampOff := BitVec.ofNat 32 v.clamps.2 })
  (match v.result with
  | .error r => c.rejectImage r
  | .ok (full, s, delta) =>
    c.updCfg (fun g => { g with state := .pending, pend := some { full := full, str := s, delta := delta, endedAt := c.clk.ref } })).imgEvent

/-- Discard a pending image (R55): ABORT, warm reset, sleep entry. -/
def Chip.discardImage (c : Chip) : Chip :=
  if c.cfg.state == .pending then c.updCfg (fun g => { g with state := .discarded, errCode := 0x12, errOff := 0, pend := none }) else c

/-! ### Shares in and out (R305) -/

/-- The pieces of a berth's share in the order of a swap: the array store of each declared array, then the Basin share; array, byte offset in
the swap area, bytes. An array that the partition does not hold now is left out. -/
def Chip.sharePieces (c : Chip) (d : BerthDecl) : List (Option Nat × Nat × Nat × Nat) :=
  let arrays := match c.str.part d.part with | some p => bitList 32 p.arrays.toNat | none => []
  let stores := match c.placed d.part 4 d.id with
    | some p => ((List.range arrays.length).zip arrays).filterMap (fun x =>
        if (vget 0 c.tt.mask d.part).toNat.testBit x.2 then some (some x.2, x.1 * p.size, p.off, p.size) else none)
    | none => []
  let size := match c.placed d.part 4 d.id with | some p => p.size | none => 0
  stores ++ (match c.placed d.part 3 d.id with | some p => [(none, arrays.length * size, p.off, p.size)] | none => [])

/-- The device address and bytes of a context's swap area. -/
def Chip.swapArea (c : Chip) (x : Nat) : Nat := (c.str.regionAt (3840 + x)).1

/-- Write a berth's share to the swap area of a context; a refused transfer faults the context (R548). -/
def Chip.shareOut (b x : Nat) (c : Chip) : Chip :=
  match c.str.berth b with
  | none => c
  | some d =>
    let ps := c.sharePieces d
    match ps.findSome? (fun p => c.refusal .device true (c.swapArea x + p.2.1) p.2.2.2) with
    | some v => (c.recordViol .swapper x v.1 v.2 noStep).ctxFault x 3
    | none => ps.foldl (fun c p =>
        let bs := match p.1 with
          | some a => c.sram.read (c.sramAt a p.2.2.1) p.2.2.2
          | none => c.basinRead (c.banks d.part) p.2.2.1 p.2.2.2
        c.dramWrite (c.swapArea x + p.2.1) bs) c

/-- Read a context's swap area into a berth's share, the pieces in order; one that is refused or fails faults the context (R548, R349). -/
def Chip.shareIn (b x : Nat) (c : Chip) : Chip :=
  match c.str.berth b with
  | none => c
  | some d =>
    let (c, ok) := (c.sharePieces d).foldl (fun (r : Chip × Bool) p =>
      if !r.2 then r else
      match r.1.readOwn .swapper x (c.swapArea x + p.2.1) p.2.2.2 with
      | (c, none) => (c, false)
      | (c, some bs) => (match p.1 with
        | some a => c.updSram (fun m => m.write (c.sramAt a p.2.2.1) bs)
        | none => c.basinWrite (c.banks d.part) p.2.2.1 bs, true)) (c, true)
    if ok then c else c.ctxFault x 3

/-- Basin words of a berth's share that a swap-out read met (R332, R333): the swapper has no retry of its own, so one that failed after the
second read faults the context that owns the share. -/
def Chip.shareFails (b x : Nat) : List Sys2Proof.JobErr → Chip → Chip
  | [], c => c
  | .word a recovered :: es, c =>
    if c.areaOf a != (2, b) then c.shareFails b x es
    else if recovered then (c.bsCorrected a).shareFails b x es
    else ((c.basinFail .swapper x noStep a).basinOutcome a).shareFails b x es
  | .check :: es, c => c.shareFails b x es

/-! ### Contexts and berths in service (R304, R310) -/

/-- A context takes a berth outside a swap: resident with its share zero-filled. -/
def Chip.giveBerth (b x : Nat) (c : Chip) : Chip :=
  ((c.zeroShare b).updBerth b (fun r => { r with occ := some x, xfer := 0, incoming := none })).updCtx x (fun k =>
    { k with st := .idle, berth := some b, fresh := false, progressed := true, quantum := false, residentAt := c.clk.ref, blockedAt := c.clk.ref,
             runnableAt := none })

/-- Each empty berth, ascending, goes to the lowest-numbered of some contexts that may occupy it and holds none (R304). -/
def Chip.fillBerths (xs : List Nat) (c : Chip) : Chip :=
  (c.str.berths.map (·.id)).foldl (fun c b =>
    if (c.berth b).occ.isSome || (c.berth b).xfer != 0 then c else
    match xs.find? (fun x => (c.ctx x).berth.isNone && (c.mayOccupy x).contains b) with
    | some x => c.giveBerth b x
    | none => c) c

/-- Contexts come into service: SWAPPED, then given the berths of R304. -/
def Chip.serveCtxs (xs : List Nat) (c : Chip) : Chip :=
  let c := xs.foldl (fun c x => c.updCtx x (fun k => { k with
    st := .swapped
    berth := none
    fresh := true
    left := none
    quantum := false
    yields := false
    runnableAt := none })) c
  c.fillBerths xs

/-- The next context that waits for the bytes of a removed berth takes them (R61; log 106): its share is zero there, since its swap area
may have gone with the amendment. -/
def Chip.passBytes (l : Leaving) (c : Chip) : Chip :=
  if !l.unberthed then c else
  match (c.tt.steps.map (·.ctx)).find? (fun y => (c.ctx y).left.any (fun k => !k.unberthed && k.store.isSome && k.basin == l.basin && k.store == l.store)) with
  | none => c
  | some y =>
    let c := match l.store with
      | some p => (c.shareArrays (c.partOf y)).foldl (fun (c : Chip) a => c.clearStore a p.off p.size) c
      | none => c
    let c := match l.basin with | some p => c.basinClear (c.banks (c.partOf y)) p.off p.size | none => c
    (c.updCtx y (fun k => { k with st := .idle, berth := some k.lastBerth, fresh := false, left := k.left.map (fun k => { k with unberthed := true }) })).takeAll

/-- A context that leaves (R61) has completed its last step: it is torn down, and comes back at the next boundary when the structure declares
it. -/
def Chip.finishLeaving (x : Nat) (c : Chip) : Chip :=
  match (c.ctx x).left.filter (fun _ => (c.stepsOf x).isEmpty) with
  | none => c
  | some l =>
    let c := c.teardown x none none
    (c.updCtx x (fun k => if (c.str.ctx x).isSome then { k with st := .restarting } else { k with st := .absent, left := none })).passBytes l

/-! ### Streams (R87, R102, R236, R247) -/

/-- The work for a stream stops: its frame being assembled (log 118), its steps and packs, its jobs that have not started; a running job completes
but counts no more. At a cold start evidence copies run on, and frames that they, a running job or a job of the partner still reads stay in
their slots (R101; log 118). -/
def Chip.stopStream (s : Nat) (cold : Bool) (c : Chip) : Chip :=
  let mine := c.tt.steps.filter (fun t => match t.subj with | .frame i _ _ => i == s | _ => false)
  let c := mine.foldl (fun c t => c.abandonStep t.no) c
  let c := c.updFg (fun g => { g with packs := g.packs.filter (fun p => p.stream != s) })
  let halt := fun (e : Engine) => { e.drop (fun i => i == s) false with
    run := e.run.map (fun j => if j.stream = s then { j with stale := true } else j) }
  let c := c.updMe (fun m => { m with eng := halt m.eng, written := m.written.filter (fun w => w.stream != s) })
  let c := c.updSd (fun m => { m with
    eng := halt m.eng
    maps := m.maps.filter (fun x => x.left != s)
    await := m.await.filter (fun x => x.1 != s) })
  let c := if cold then c else c.updQy (fun q => { q with copies := q.copies.filter (fun x => x.stream != s) })
  let kept := ((c.stream s).left ++ (c.stream s).frames).filter (c.jobReads s)
  c.updStream s (fun q => { q with opened := none, cur := none, busy := none, frames := [], left := kept, hist := [], nclosed := 0 })

/-- A Quay cold start (R87): the frame counter starts at 0, nothing of the stream is held. Both modes start cold with it. -/
def Chip.coldStream (d : StreamDecl) (c : Chip) : Chip :=
  ((c.stopStream d.idx true).updStream d.idx (fun q => { q with cold := true })).coldStart d false

/-- Streams of some contexts, in the applied structure. -/
def Chip.streamsFor (c : Chip) (xs : List Nat) : List StreamDecl := c.str.active.filter (fun d => xs.contains d.ctx)

/-! ### Application (R51 to R63) -/

/-- The structure still fits the arrays, channels and slots that remain (R54). -/
def Chip.stillFits (c : Chip) (s : Structure) : Bool :=
  let chanOk := fun (m : BitVec 16) => (bitList 16 m.toNat).all (fun n => !(c.chan n).lost)
  s.parts.all (fun p => (bitList 32 p.arrays.toNat).all (fun a => (vget {} c.oc.map a).valid) && chanOk p.chans) &&
    s.regions.all (fun r => r.count == 0 || (chanOk r.chans && (!r.repl || chanOk r.reps))) &&
    (List.range 16).all (fun ch => decide (s.regions.foldl (fun a r => a + r.onChan ch) 0 ≤ regionSlots - c.badSlots ch))

/-- The sync objects after an application (R362). -/
def applySyncs (old new : Structure) (fresh : SyncDecl → Bool) (y : SyncCtl) : SyncCtl :=
  let covered := fun (s : Structure) (o : Nat) => (s.alloc o).isSome
  let objs := y.objs.filter (fun x => covered new x.1)
  let added := new.syncs.filter fresh
  let touched := fun (o : Nat) => added.any (fun a => decide (a.first ≤ o) && decide (o < a.first + a.count)) || (covered old o && !covered new o)
  let put := fun (l : List (Nat × SyncObj)) (a : SyncDecl) =>
    byKey (·.1) (l.filter (fun x => !(decide (a.first ≤ x.1) && decide (x.1 < a.first + a.count))) ++
      (List.range a.count).map (fun i => (a.first + i, { value := a.init, peer := a.peer, signaller := a.signaller, owner := a.owner })))
  { y with objs := added.foldl put objs, marks := y.marks.filter (fun m => !touched (m.1 % 65536)) }

/-- Judge every object that watches name and every waiter afresh after an application. -/
def Chip.judgeAll (c : Chip) : Chip :=
  let objs := (c.sy.watch.toList.map (fun (w : Watch) => w.obj.toNat % 65536) ++ c.sy.waiters.map (fun (w : Waiter) => w.obj)).eraseDups
  objs.foldl (fun c o => c.judge o) c

/-- The routes of a structure over the reset routes (R376). -/
def routesOf (s : Structure) : Vector Route 1024 :=
  s.routes.foldl (fun v r => vset v r.source { target := r.target, prio := r.prio, watch := r.watch }) resetRoutes

/-- Weight sets that stay sealed (R43, R53): an amendment keeps those it does not replace; a full image those that are declared alike in a
region that keeps its slots. -/
def keepsSeal (full : Bool) (old new : Structure) (gone : List (Nat × Nat)) (w : Nat) : Bool :=
  match old.weight w, new.weight w with
  | some a, some b =>
    if full then a == b && (match old.region a.region, new.region b.region with | some x, some y => x.same y | _, _ => false)
    else !gone.contains (8, w)
  | _, _ => false

/-- A zero-fill of an entry: one that is refused leaves it unfilled and is recorded (R346, R548). -/
def Chip.fillEntry (i : Nat) (c : Chip) : Chip :=
  match c.refuses .device true i with
  | some cause => c.recordViol .zerofill 255 cause (i * 2 ^ 20) noStep
  | none => c.dramClear (i * 2 ^ 20) (2 ^ 20)

/-- Write the effective structure to the slot of the store region whose turn it is, and record its hash (R56); a refused write stores
nothing and is recorded (R548; log 109). -/
def Chip.storeStructure (c : Chip) : Chip :=
  let img := c.str.stored
  let slot := 1 - c.cfg.storeSlot
  let a := (c.str.regionAt c.str.store).1 + slot * 8 * 2 ^ 20
  let c := match c.refusal .device true a img.length with
    | some v => let (r, c) := c.openRequester; c.recordViol r 255 v.1 v.2 noStep
    | none => c.dramWrite a img
  c.updCfg (fun g => { g with storeSlot := slot, storeHash := sha256 img, kept := some c.str })

/-- The region table of the applied structure, its copy with the SHA-256 of all its entries (R343; log 107), and the fill of fresh entries
that ask for it (R345, R346). -/
def Chip.applyRegions (c : Chip) : Chip :=
  let s := c.str
  let kept := c.mc.copyDecls
  let table := c.regionTable s
  let c := c.updMc (fun m => { m with table := table, copy := table, copyDecls := s.regions, tableHash := sha256 (tableBytes 0 table) })
  (s.regions.filter (fun d => d.zero && !kept.any (fun x => x.same d))).foldl (fun c d =>
    d.indices.foldl (fun c i => c.fillEntry i.1) c) c

/-- The arrays that an amendment moves out of partitions' masks, with where they go (R63); those of a removed partition leave its ghost. -/
def movedArrays (old new : Structure) (gone : Nat → Bool) (ghosts : List PartDecl) : List Drain :=
  old.parts.flatMap (fun p =>
    let now := match (new.part p.id).filter (fun _ => !gone p.id) with | some q => q.arrays | none => 0
    let from_ := fun (a : Nat) => if gone p.id then ((ghosts.reverse.find? (fun g => g.arrays.toNat.testBit a)).map (·.id)).getD p.id else p.id
    (bitList 32 (p.arrays &&& ~~~now).toNat).map (fun a =>
      { array := a, donor := from_ a, donee := (new.parts.find? (fun q => q.arrays.toNat.testBit a)).map (·.id), move := true }))

/-- A removed or replaced context runs on to complete its steps in flight (R61). -/
def Chip.runsOn (c : Chip) (x : Nat) : Bool :=
  !(c.stepsOf x).isEmpty && (c.ctx x).st != .faulted && (c.ctx x).st != .restarting

/-- A context that leaves has its share where a removed berth's lay, or waits for those bytes. -/
def Chip.takeBytes (b x : Nat) (there : Bool) (c : Chip) : Chip :=
  c.updCtx x (fun k => { k with left := k.left.map (fun l => { l with
    unberthed := there
    basin := c.placed (c.partOf x) 3 b
    store := c.placed (c.partOf x) 4 b }) })

/-- An occupied berth goes at an amendment: a resident context that leaves keeps using the bytes of its share, which are free now; any other
is swapped out, its waits with it (R370). A transfer in progress is over with it. -/
def Chip.berthGoes (b x : Nat) (c : Chip) : Chip :=
  let k := c.ctx x
  let keeps := k.leaving && (k.st == .idle || k.st == .running || k.st == .blocked)
  let c := if keeps || (c.berth b).xfer == 2 then c else c.setAside x
  let c := if keeps || (c.berth b).xfer == 2 then c else c.shareOut b x
  let c := c.updBerth b (fun _ => {})
  if keeps then c.takeBytes b x true
  else (c.updCtx x (fun k => if k.st == .faulted then { k with berth := none } else
    { k with st := .swapped, berth := none, lastBerth := b, runnableAt := none })).takeAll

/-- A context that leaves enters the bytes of a removed berth: its share is read back, or zero where it has never been resident. -/
def Chip.enterBytes (b x : Nat) (c : Chip) : Chip :=
  let c := if (c.ctx x).fresh then c.zeroShare b else c.shareIn b x
  if (c.ctx x).st != .swapped then c else
  ((c.updCtx x (fun k => { k with st := .idle, berth := some b, fresh := false })).takeBytes b x true).takeAll

/-- A swapped-out context that leaves when every berth it may occupy goes (R61; log 106): it enters the bytes of the lowest of them, or
waits for them while another context that leaves is still there. -/
def Chip.leaveSwapped (delta : Delta) (x : Nat) (c : Chip) : Chip :=
  let bs := c.mayOccupy x
  if !(c.ctx x).leaving || (c.ctx x).st != .swapped || bs.any (fun b => !delta.gone.contains (1, b)) then c else
  match bs.head? with
  | none => c
  | some b =>
    let held := c.placed (c.partOf x) 3 b
    let taken := (c.tt.steps.map (·.ctx)).any (fun y => (c.ctx y).left.any (fun l => l.unberthed && l.basin == held && l.store == c.placed (c.partOf x) 4 b))
    if taken then c.takeBytes b x false else c.enterBytes b x

/-- A partition that an amendment removes lives on for the steps of its contexts in flight, under a number from 8 up (R61; log 106); its
array mask is the effective one. Arrays that were donated to it drain back to their donors. -/
def Chip.raiseGhost (p : PartDecl) (c : Chip) : Chip :=
  let xs := (c.tt.steps.filter (fun s => s.part == p.id)).map (·.ctx)
  if xs.isEmpty then c else
  let g := p.id + 8 + 8 * (lowestFree 256 (c.tt.ghosts.map (fun q => q.id / 8 - 1))).getD 0
  let mask := vget 0 c.tt.mask p.id
  let back := (c.tt.donated.filter (fun x => x.2.2 == p.id && mask.toNat.testBit x.1)).map (fun x =>
    ({ array := x.1, donor := g, donee := some x.2.1, move := true } : Drain))
  let c := c.updTt (fun t => { t with
    ghosts := t.ghosts ++ [{ p with id := g, arrays := mask }]
    steps := t.steps.map (fun s => if s.part = p.id then { s with part := g, later := s.later.map (fun k => { k with part := g }) } else s)
    waiting := t.waiting.map (fun k => if k.part = p.id then { k with part := g } else k)
    drains := t.drains.filter (fun d => !back.any (fun b => b.array == d.array)) ++ back })
  xs.foldl (fun c x => c.updCtx x (fun k => { k with left := k.left.map (fun l => { l with decl := { l.decl with part := g } }) })) c

/-- What an amendment's boundary does to contexts before the new structure stands: those that leave with a step in flight run on, the others
are torn down; a resident context whose berth goes is swapped out. -/
def Chip.amendLeave (delta : Delta) (c : Chip) : Chip :=
  let go := c.str.ctxs.filter (fun d => delta.gone.contains (2, d.id))
  let c := go.foldl (fun (c : Chip) d =>
    if c.runsOn d.id then
      let old := c.ctxProg d.id
      c.updCtx d.id (fun k => { k with left := k.left.or (some { decl := d, prog := old }) })
    else c.teardown d.id none none) c
  let c := (c.str.berths.filter (fun b => delta.gone.contains (1, b.id))).foldl (fun c b =>
    match (c.berth b.id).occ with
    | some x => c.berthGoes b.id x
    | none => c.updBerth b.id (fun _ => {})) c
  let c := go.foldl (fun (c : Chip) d => c.leaveSwapped delta d.id) c
  (c.str.parts.filter (fun p => delta.removed.contains (0, p.id))).foldl (fun c p => c.raiseGhost p) c

/-- The marker of an application, after the genesis where the chain has not begun (R459, R461; log 41). -/
def Chip.applyMarker (full : Bool) (c : Chip) : Chip :=
  let c := c.genesis
  match c.cfg.next with
    | .powerOn => c.marker 1
    | .warm => c.marker 2
    | .wake => c.marker 3
    | .running => c.marker (if full then 4 else 7)

/-- Apply an image that fits. -/
def Chip.applyImage (p : PendingImg) (c : Chip) : Chip :=
  let old := c.str
  let new := p.str
  let gone := fun (k : Nat × Nat) => p.delta.gone.contains k
  let removed := fun (q : Nat) => p.delta.removed.contains (0, q)
  let fresh := fun (k : Nat × Nat) => p.full || p.delta.added.contains k
  let c := if p.full then
      let c := (List.range 256).foldl (fun (c : Chip) x => c.teardown x none none) c
      c.updTt (fun t => { t with berth := Vector.replicate 16 {}, drains := [], donated := [], ghosts := [],
                                 ctx := t.ctx.map (fun k => { k with berth := none, left := none }) })
    else c.amendLeave p.delta
  let c := (old.streams.filter (fun d => p.full || gone (5, d.idx))).foldl (fun (c : Chip) d => c.stopStream d.idx false) c
  let first := !c.cfg.everApplied
  let c := c.updTt (fun t => if first then { t with cycles := 0 } else t)
  let c := c.updCfg (fun g => { g with
    applied := some new
    pend := none
    state := .applied
    everApplied := true
    applyCycle := BitVec.ofNat 32 c.tt.cycles
    sealedSets := if g.next == .wake then g.sealedSets else g.sealedSets.filter (keepsSeal p.full old new p.delta.gone) })
  let c := c.applyRegions
  let layout := new.layoutAll p.full c.tt.layout p.delta.gone
  let drains := if p.full then [] else c.tt.drains ++ movedArrays old new removed c.tt.ghosts
  let c := c.updTt (fun t => { t with
    layout := layout
    drains := drains
    steps := if p.delta.sections.contains 8 then t.steps.map (fun s => { s with oldTable := true }) else t.steps
    pst := Vector.ofFn (fun i => if (new.part i.val).isNone then .absent else
      if p.full || (old.part i.val).isNone || removed i.val then .run else vget .absent t.pst i.val) })
  let freshSync := fun (a : SyncDecl) => fresh (6, a.first)
  let c := (c.updSy (applySyncs old new freshSync)).updIc (fun ic => { ic with route := routesOf new })
  let xs := (new.ctxs.filter (fun d => fresh (2, d.id))).map (·.id)
  let c := c.updSy (fun y => { y with marks := y.marks.filter (fun m => !xs.contains (m.1 / 65536)) })
  let c := (List.range 256).foldl (fun (c : Chip) x =>
    if (c.ctx x).st != .absent && (new.ctx x).isNone && !(c.ctx x).leaving then c.updCtx x (fun k => { incarnation := k.incarnation }) else c) c
  let c := c.updTt (fun t => { t with mask := Vector.ofFn (fun i =>
    match new.part i.val with
    | none => 0
    | some d => if p.full || (old.part i.val).isNone || removed i.val then d.arrays else vget 0 t.mask i.val) })
  let c := c.serveCtxs (xs.filter (fun x => !(c.ctx x).leaving))
  let c := (List.range 4).foldl (fun (c : Chip) n => c.applyOutput old n) c
  let c := c.storeStructure
  let cold := new.active.filter (fun d => fresh (5, d.idx) || (xs.contains d.ctx && !(c.ctx d.ctx).leaving))
  let c := cold.foldl (fun (c : Chip) d => c.coldStream d) c
  let c := (cold.filter (fun d => old.stream d.idx != some d)).foldl (fun (c : Chip) d =>
    (c.updStream d.idx (fun q => { q with evNext := 0, evidHead := 0xFFFFFFFF, evGone := none })).updMode d.idx true (fun m => { m with gone := none })) c
  let unsealed := new.active.filter (fun d => (new.ctxProg d.ctx).any (fun g => g.sets.any (fun w => !p.full && gone (8, w) && fresh (8, w))))
  let waits := if p.full then [] else
    (c.cfg.coldAfterSeal.filter (fun s => new.active.any (fun d => d.idx == s)) ++ unsealed.map (·.idx)).eraseDups
  let c := c.updCfg (fun g => { g with coldAfterSeal := waits })
  let c := c.updFg (fun g => { g with packs := g.packs.filter (fun k => !c.cfg.coldAfterSeal.contains k.stream) })
  let c := c.applyMarker p.full
  (c.updCfg (fun g => { g with next := .running })).judgeAll.schedule.imgEvent

/-- An image at its boundary: applied when it still fits, else rejected with code 0x11 (R54). -/
def Chip.applyOrReject (p : PendingImg) (c : Chip) : Chip :=
  if c.stillFits p.str then c.applyImage p else c.rejectImage (0x11, 0)

end Sys2Proof.Machine
end

