-- ==== Sys2Proof/Machine/Execute.lean ====
section
/-! DEFINITION. The execution of descriptors: their operand checks and results (R138, R146), the errors that strike them (R514), the
re-execution of an EXPAND (R205), COPY from a peer window (R429), WAIT and SIGNAL (R149, R365 to R372), completion and step
retirement (R511), pre-emption (R151, R152), replay (R515). -/

namespace Sys2Proof.Machine

/-! ### Errors that strike a descriptor (R514) -/

/-- Meet one thing: counters and logs, and the stop it gives, if it gives one. -/
def Chip.meet (e : Env) (v : Event) (c : Chip) : Chip × Option Stop :=
  match v with
  | .stop s => (c, some s)
  | .hw (.residue _) => (c, some .residue)
  | .hw (.sram _ addr) => (c, some (.sram addr))
  | .hw (.sramCorrected n) => (c.updArr e.array (fun r => { r with sramCorr := satAdd r.sramCorr n }), none)
  | .hw (.basin _ addr recovered) => if recovered then (c.bsCorrected addr, none) else (c, some (.basin addr))
  | .hw (.sector _ s) =>
    let (c, failed) := c.sector .array e.ctx e.step s
    (c, if failed then some (.sector s.addr) else none)

/-- Meet everything up to the first stop. -/
def Chip.meetAll (e : Env) : List (Nat × Event) → Chip → Chip × Option (Nat × Stop)
  | [], c => (c, none)
  | v :: vs, c =>
    match c.meet e v.2 with
    | (c, some s) => (c, some (v.1, s))
    | (c, none) => c.meetAll e vs

/-- The word of array-local SRAM at an operand address: physical array and word. -/
def Chip.sramWord (c : Chip) (e : Env) (addr : Nat) : Nat × Nat :=
  let o := opOff addr
  let at_ := match opSpace addr with
    | 0 => (match e.astore with | some (b, _) => b | none => 0) + o
    | 4 => lineBuf + o
    | _ => expBuf + o
  ((vget {} c.oc.map e.array).phys, at_ / 8)

/-- Record an error that leads to a replay: code 0 with the descriptor's opcode and context; the address stands unless one is given. -/
def Chip.noteErr (a bit : Nat) (k : Cur) (addr : Option Nat) (c : Chip) : Chip :=
  c.arrayErr a bit 0 (dOpcode k.d.bytes) k.d.ctx (addr.getD (c.arr a).errAddr.toNat)

/-- The limit of R186 is reached, or a replay cannot be made (R513, R514): the context faults as R150 records it, or R333 gives the outcome. -/
def Chip.atLimit (t : Step) (r : Replay) (c : Chip) : Chip :=
  if r.basin then c.basinOutcome r.addr else c.fault r.array r.code r.opcode t.ctx r.addr t.no

/-- A residue check failed on a physical array in this run of the step. -/
def Step.noteResidue (phys : Nat) (t : Step) : Step := { t with resid := t.resid ++ [(t.runs, phys)] }

/-- The residue checks of both replays of the step failed on a physical array (R127). -/
def Step.residueTwice (phys : Nat) (t : Step) : Bool := t.resid.contains (2, phys) && t.resid.contains (3, phys)

/-- What follows a stop: the step is replayed while it may be, else its context faults (R185, R186, R514). An array is retired on the
conditions of R127. -/
def Chip.stopped (a : Nat) (k : Cur) (e : Env) (s : Stop) (c : Chip) : Chip :=
  let no := k.d.step
  let op := dOpcode k.d.bytes
  let again := (c.step? no).any Step.mayReplay
  let fault := fun (code addr : Nat) (c : Chip) => c.fault a code op k.d.ctx addr no
  let ask := fun (code addr : Nat) (c : Chip) => c.askReplay no { code := code, array := a, opcode := op, addr := addr }
  match s with
  | .table b =>
    let c := match b.viol with | some v => c.recordViol .array k.d.ctx v.1 v.2 no | none => c
    fault 3 b.addr c
  | .tag addr =>
    if again && (c.step? no).any (fun t => t.mism == 0) then
      ((c.updStep no (fun t => { t with mism := t.mism + 1 })).noteErr a 2 k (some addr)) |> ask 6 addr
    else fault 6 addr c
  | .residue =>
    let phys := (vget {} c.oc.map a).phys
    let c := c.updStep no (Step.noteResidue phys)
    if again then (c.noteErr a 1 k none) |> ask 7 0
    else
      let twice := (c.step? no).any (Step.residueTwice phys)
      fault 7 0 (if twice then c.retire a 7 0 else c)
  | .sram addr =>
    let w := c.sramWord e addr
    let recurs := c.oc.sramBad.contains w
    let c := c.updOc (fun o => { o with sramBad := if recurs then o.sramBad else o.sramBad ++ [w] })
    let c := if again then c.noteErr a 3 k none else c
    let c := if recurs then c.retire a 8 addr else c
    if again then c |> ask 8 addr else fault 8 addr c
  | .basin addr =>
    let c := c.basinFail .array k.d.ctx no addr
    let r : Replay := { code := 0, array := a, opcode := op, addr := addr, basin := true }
    if again then c.askReplay no r else c.basinOutcome addr
  | .sector addr => if again then c |> ask 3 (opAt 3 addr) else fault 3 (opAt 3 addr) c

/-! ### Running a descriptor -/

/-- The descriptor in execution has done its work. -/
def Chip.markDone (a : Nat) (c : Chip) : Chip :=
  c.updArr a (fun r => { r with cur := r.cur.map (fun k => { k with executed := true, pass := descPasses k.d.bytes - 1 }) })

/-- A descriptor of some operation can run: it is in execution, has not run, and its step waits for no replay and it for no peer. -/
def Chip.descReady (c : Chip) (a op : Nat) : Bool :=
  c.awake && (c.arr a).st == .run &&
    (c.arr a).cur.any (fun k => !k.executed && dOpcode k.d.bytes == op && (c.step? k.d.step).all (fun t => t.replay.isNone) &&
      !c.awaitsPeer a k.d.ctx)

/-! ### COPY from a peer window (R136, R153, R429 to R431) -/

/-- The source offset of byte x of destination row i of a COPY. -/
def CopyGeo.srcAt (g : CopyGeo) (i x : Nat) : Nat :=
  let e := x / 2
  match g.tr with
  | 1 =>
    let px := e / g.ch
    (i / g.r) * g.ss + 2 * ((px / g.r) * (g.ch * g.r * g.r) + e % g.ch * g.r * g.r + (i % g.r) * g.r + px % g.r) + x % 2
  | 2 =>
    let k := e % (g.ch * g.r * g.r)
    (i * g.r + k / g.r % g.r) * g.ss + 2 * ((e / (g.ch * g.r * g.r) * g.r + k % g.r) * g.ch + k / (g.r * g.r)) + x % 2
  | _ => i * g.ss + x

/-- The reads that a COPY asks for: the source's runs of consecutive bytes cut into chunks of 32 KiB, as offset and bytes. -/
def CopyGeo.chunks (g : CopyGeo) : List (Nat × Nat) :=
  let (b, n) := g.src
  let runs := if b = g.ss then [(0, n * b)] else (List.range n).map (fun i => (i * g.ss, b))
  runs.flatMap (fun r => (List.range (ceilDiv r.2 32768)).map (fun i => (r.1 + 32768 * i, min 32768 (r.2 - 32768 * i))))

/-- The peer is present and its entry enabled (R429). -/
def Chip.peerUp (c : Chip) (p : Nat) : Bool := decide (p < 255) && (c.peer p).present && (c.peer p).ctl.toNat.testBit 31

/-- Make a request: it is sent, or waits until there is room (R431). -/
def Chip.request (r : PeerReq) (c : Chip) : Chip :=
  let r := { r with id := c.pl.made }
  let c := c.updPl (fun p => { p with made := p.made + 1 })
  if c.pl.waitReqs.isEmpty && c.pl.room r.peer then c.askFor r
  else (c.updPl (fun p => { p with waitReqs := p.waitReqs ++ [r] })).promote

/-- A request completed with an error (PL_REQ_FAILS, PL_ERR_STATUS[3]). -/
def Chip.reqFailed (c : Chip) : Chip := (c.updPl (fun p => { p with reqFails := satInc p.reqFails })).plErr 3

/-- Ask a peer for the source of a COPY. -/
def Chip.askPeer (a : Nat) (k : Cur) (c : Chip) : Chip :=
  let d := k.d.bytes
  let p := opOff (dA d) / 2 ^ 32
  let g := copyGeo d
  if !c.peerUp p then c.reqFailed.fault a 9 10 k.d.ctx (dA d) k.d.step
  else
    g.chunks.foldl (fun c x => c.request
      { id := 0, tag := 0, peer := p, ctx := k.d.ctx, step := k.d.step, isSignal := false, target := BitVec.ofNat 32 (Config.peerWindow p),
        value := BitVec.ofNat 32 (opOff (dA d) % 2 ^ 32 + x.1), length := x.2, dest := x.1, array := a, sentAt := 0, resent := false,
        pieces := [] }) c

/-- The swap-area offset of a byte of space 0 or 1 of a context that is not resident: the layout of the share it left (R305). -/
def Chip.swapOff (c : Chip) (x array space o : Nat) : Option Nat :=
  (c.ctxDecl x).bind (fun d => (c.str.part d.part).bind (fun p =>
    let arrays := bitList 32 p.arrays.toNat
    let size := match c.placed d.part 4 (c.ctx x).lastBerth with | some q => q.size | none => 0
    if space = 0 then (arrays.findIdx? (fun b => b == array)).map (fun i => i * size + o)
    else some (arrays.length * size + o)))

/-- Write a byte of a late response where the context's share lies (R309): on chip, or in its swap area. -/
def Chip.writeLate (k : Cur) (a out o : Nat) (b : Byte) (c : Chip) : Chip :=
  let x := k.d.ctx
  let away := (c.ctx x).berth.isNone || (c.ctx x).st == .swapIn
  if away && opSpace out < 2 then
    match c.swapOff x a (opSpace out) (opOff out + o) with
    | some s => c.dramWrite (c.swapArea x + s) [b]
    | none => c
  else c.opWrite (c.env a k.d) out o [b]

/-- The COPY that a read request works for, in execution or set aside. -/
def Chip.copyOf (c : Chip) (r : PeerReq) : Option Cur :=
  let t := c.arr r.array
  (t.cur.toList ++ t.saved).find? (fun k => k.d.ctx == r.ctx && k.d.step == r.step && dOpcode k.d.bytes == 10)

/-- Write the bytes of a completed read request to the COPY's destination. -/
def Chip.landChunk (r : PeerReq) (data : Bytes) (c : Chip) : Chip :=
  match c.copyOf r with
  | none => c
  | some k =>
    let g := copyGeo k.d.bytes
    let (b, n) := g.dst
    (List.range n).foldl (fun (c : Chip) i => (List.range b).foldl (fun (c : Chip) x =>
      let s := g.srcAt i x
      if r.dest ≤ s ∧ s < r.dest + r.length then
        c.writeLate k r.array (dOut k.d.bytes) (i * g.ds + x) (data.getD (s - r.dest) 0)
      else c) c) c

/-- The last read of a COPY has completed: the COPY has done its work. -/
def Chip.copyDone (r : PeerReq) (c : Chip) : Chip :=
  if c.awaitsPeer r.array r.ctx then c else
  let done := fun (k : Cur) => if k.d.ctx = r.ctx ∧ k.d.step = r.step ∧ dOpcode k.d.bytes = 10 then { k with executed := true } else k
  c.updArr r.array (fun t => { t with cur := t.cur.map done, saved := t.saved.map done })

/-- A descriptor's operands in DRAM reach their channels (R354). -/
def Chip.touchOperands (d : Bytes) (bd : List (Option (Nat × Option Nat))) (c : Chip) : Chip :=
  (operands d bd).foldl (fun c x => if opSpace x.1.op == 3 then c.touch x.1.write (opOff x.1.op) x.1.len else c) c

/-- Run the descriptor in execution: a context mismatch faults it, a no-op does nothing, an operand that R138 refuses faults it; else
its writes land up to the pass that an error stops. -/
def Chip.execute (a : Nat) (errs : List HwErr) (c : Chip) : Chip :=
  match (c.arr a).cur with
  | none => c
  | some k =>
    let d := k.d.bytes
    if k.misplaced then c.fault a 3 (dOpcode d) k.d.ctx 0 k.d.step
    else if descNop d then c.markDone a
    else
      let e := c.env a k.d
      match c.badOperand e d with
      | some b =>
        let c := match b.viol with | some v => c.recordViol .array k.d.ctx v.1 v.2 k.d.step | none => c
        let c := if b.bind && (c.step? k.d.step).any (fun t => t.subj.isFrame) then c.fgErr 4 else c
        c.fault a b.code (dOpcode d) k.d.ctx b.addr k.d.step
      | none =>
        if fromPeer d then (c.askPeer a k).schedule
        else
          let c := (c.refreshExp a k).touchOperands d k.d.bound
          let ps := k.rest.getD (c.opPieces e d)
          let (c', stop) := c.meetAll e (c.events e d errs)
          let c' := c'.accumulate e d (match stop with | none => descPasses d | some (n, _) => n)
          let c' := c'.writePieces e (dOut d) (match stop with | none => ps | some (n, _) => ps.filter (fun p => decide (p.pass < n)))
          let c' := c'.leaveExp a k stop.isNone
          let c' := { c' with draws := c'.draws + 1 }
          match stop with
          | some (_, s) => c'.stopped a k e s
          | none => c'.markDone a

/-! ### Completion (R299, R511) -/

/-- A step retires: its journal entry closes, then the sequencer or the serving step unit does its part. -/
def Chip.retireStep (no : Word) (c : Chip) : Chip :=
  match c.step? no with
  | none => c
  | some t =>
    let c := c.closeStep no 2
    match t.subj with
    | .frame s settled j => c.frameRetired t s settled j
    | .batch _ => c.batchRetired t
    | .vision q _ => c.visionRetired q
    | .context _ _ => c

/-- The kernel of a descriptor is at its end on the array: nothing of it follows in the queue. -/
def Chip.kernelEnds (c : Chip) (a : Nat) (be : Bool) (d : QDesc) : Bool :=
  let q := if be then (c.arr a).beq ++ (c.arr a).beTail else (c.arr a).lcq ++ (c.arr a).lcTail
  match q.find? (fun x => x.step == d.step) with
  | some x => x.head
  | none => true

/-- A descriptor completes: it is counted, its step retires with STEP_END, its context has progressed when its kernel ends (R308). -/
def Chip.descDone (a : Nat) (be : Bool) (d : QDesc) (c : Chip) : Chip :=
  let ends := c.kernelEnds a be d
  let c := c.updArr a (fun r => { r with descDone := satInc r.descDone })
  let c := if ends then c.updCtx d.ctx (fun k => { k with progressed := true }) else c
  let c := if dStepEnd d.bytes then c.retireStep d.step else c
  ((c.takeNext a).finishLeaving d.ctx).schedule

/-- DESCRIPTOR_COMPLETE may come: the work is done, and a remote SIGNAL's request has been sent. -/
def Chip.completeOk (c : Chip) (a : Nat) : Bool :=
  c.awake && (c.arr a).st == .run &&
    (c.arr a).cur.any (fun k => k.executed && (c.step? k.d.step).all (fun t => t.replay.isNone) &&
      !c.pl.waitReqs.any (fun r => r.isSignal && r.array == a && r.ctx == k.d.ctx && r.step == k.d.step))

/-- The descriptor in execution completes. -/
def Chip.complete (a : Nat) (c : Chip) : Chip :=
  match (c.arr a).cur with
  | none => c
  | some k => (c.updArr a (fun r => { r with cur := none, st := .idle })).descDone a k.be k.d

/-! ### WAIT and SIGNAL -/

/-- The manifest of a context's program: the objects it may wait on and signal (R40, R149). -/
def Chip.manifest (c : Chip) (x : Nat) : List Nat × List Nat :=
  match c.ctxProg x with | some g => (g.waits, g.signals) | none => ([], [])

/-- A WAIT is taken (R149, R368 to R370). -/
def Chip.takeWait (a : Nat) (c : Chip) : Chip :=
  match (c.arr a).cur with
  | none => c
  | some k =>
    let d := k.d.bytes
    let x := k.d.ctx
    let o := fieldAt d 0x20 4
    let v := BitVec.ofNat 32 (fieldAt d 0x24 4)
    let limit := fieldAt d 0x28 4
    let target := c.mark x o + v
    if k.misplaced then c.fault a 3 11 x 0 k.d.step
    else if !(c.manifest x).1.contains o then c.fault a 4 11 x o k.d.step
    else if v = 0 then c.markDone a
    else if (c.obj o).any (fun s => reached s.value target) then (c.updSy (SyncCtl.setMark x o target)).markDone a
    else if limit = 0 then (c.syErr 2).fault a 5 11 x o k.d.step
    else
      let w : Waiter := { array := a, be := k.be, ctx := x, step := k.d.step, obj := o, value := v,
                          left := if limit = 0xFFFFFFFF then none else some (limit * 1000), since := c.clk.ref }
      let c := c.updArr a (fun r =>
        let r := { r with cur := none, st := .idle }
        if k.be then { r with beq := k.d :: r.beq } else { r with lcq := k.d :: r.lcq })
      ((c.enterWaiter w).takeNext a).schedule

/-- A registered or retrying WAIT. -/
def Chip.waiter (c : Chip) (a x o : Nat) : Option Waiter :=
  (c.sy.waiters ++ c.sy.retry).find? (fun w => w.array == a && w.ctx == x && w.obj == o)

/-- The blocked WAIT descriptor of a waiter. -/
def Chip.waitDesc (c : Chip) (w : Waiter) : Option QDesc :=
  (if w.be then (c.arr w.array).beq else (c.arr w.array).lcq).find? (fun d => d.ctx == w.ctx && d.step == w.step)

/-- The WAIT's context runs on the chip. -/
def Chip.waitRuns (c : Chip) (w : Waiter) : Bool :=
  c.awake && c.resident w.ctx && (c.step? w.step).all (fun t => t.replay.isNone)

/-- A waiter is satisfied and its context can go on. -/
def Chip.satOk (c : Chip) (a x o : Nat) : Bool := (c.waiter a x o).any (fun w => w.sat && c.waitRuns w)

/-- A satisfied WAIT completes; its mark advanced when it was satisfied (R368). -/
def Chip.waitDone (a x o : Nat) (c : Chip) : Chip :=
  match c.waiter a x o with
  | none => c
  | some w =>
    match c.waitDesc w with
    | none => c.dropWaiters (fun y => y == w)
    | some d =>
      let c := c.dropWaiters (fun y => y == w)
      let c := c.updArr a (fun r =>
        if w.be then { r with beq := dropFirst (fun y => y == d) r.beq } else { r with lcq := dropFirst (fun y => y == d) r.lcq })
      c.descDone a w.be { d with bytes := clampDesc d.bytes }

/-- A WAIT's time has run out (R370). -/
def Chip.timeoutOk (c : Chip) (a x o : Nat) : Bool :=
  (c.waiter a x o).any (fun w => !w.sat && !w.paused && c.waitRuns w && w.rest c.clk.ref == some 0)

/-- The context faults with code 0x05. -/
def Chip.waitTimeout (a x o : Nat) (c : Chip) : Chip :=
  match c.waiter a x o with
  | none => c
  | some w => (c.syErr 2).fault a 5 11 x o w.step

/-- A SIGNAL is taken (R365, R371, R372). A SIGNAL that its step's journal records already is not performed again. -/
def Chip.takeSignal (a : Nat) (c : Chip) : Chip :=
  match (c.arr a).cur with
  | none => c
  | some k =>
    let d := k.d.bytes
    let x := k.d.ctx
    let o := fieldAt d 0x20 4
    let n := BitVec.ofNat 32 (fieldAt d 0x24 4)
    let peer := fieldAt d 0x28 1
    let done := (c.step? k.d.step).any (fun t => t.sigs.contains k.d.sig)
    let note := fun (c : Chip) => (c.updStep k.d.step (fun t => { t with sigs := t.sigs ++ [k.d.sig] })).rejournal k.d.step
    if k.misplaced then c.fault a 3 12 x 0 k.d.step
    else if !(c.manifest x).2.contains o then c.fault a 4 12 x o k.d.step
    else if peer = 255 then
      if !(c.obj o).any (fun s => s.signaller == 0 && s.owner == x) then c.fault a 4 12 x o k.d.step
      else if done then c.markDone a
      else ((if n = 0 then c else c.addObj o n) |> note).markDone a
    else if done then c.markDone a
    else if n = 0 then (note c).markDone a
    else if !c.peerUp peer then c.reqFailed.fault a 9 12 x (o + peer * 65536) k.d.step
    else
      (note (c.request { id := 0, tag := 0, peer := peer, ctx := x, step := k.d.step, isSignal := true, target := BitVec.ofNat 32 o, value := n,
                         length := 0, dest := 0, array := a, sentAt := 0, resent := false, pieces := [] })).markDone a

/-- A reserved opcode faults its context (R145). The spec orders its check and that of the header's context nowhere: a descriptor that fails both
is recorded with code 0x01 (log 115). -/
def Chip.invalid (a : Nat) (c : Chip) : Chip :=
  match (c.arr a).cur with
  | none => c
  | some k => c.fault a 1 (dOpcode k.d.bytes) k.d.ctx 0 k.d.step

/-- The opcode is reserved. -/
def reservedOp (op : Nat) : Bool := op == 0 || decide (12 < op)

/-- INVALID_DESCRIPTOR may come: the descriptor in execution has a reserved opcode. -/
def Chip.invalidOk (c : Chip) (a : Nat) : Bool :=
  (c.arr a).cur.any (fun k => reservedOp (dOpcode k.d.bytes) && c.descReady a (dOpcode k.d.bytes))

/-! ### Replay (R513, R515) -/

/-- The kernels of a serving or context step, from its first. -/
def Chip.stepKernels (c : Chip) (t : Step) : List (List QDesc) :=
  match t.subj with
  | .batch _ => match c.svHdr t.ctx with | some h => c.batchKernels t.ctx t.no (c.svEnv h t.segs) | none => []
  | .vision q i =>
    match c.svHdr t.ctx, c.sv.seqs.find? (fun s => s.q.id == q) with
    | some h, some s =>
      let out := opAt 3 ((c.str.regionAt h.vision).1 + (s.slot * h.vmax + i * h.nvt) * h.dm * 2)
      let desc := match c.ctxProg t.ctx with | some g => g.desc | none => []
      numberKernels 0 (splitKernels ((servingList desc h.vlist).map (fun x => svPlain t.ctx t.no x.1 (some out) x.2)))
    | _, _ => []
  | .context _ _ => c.listKernels t.ctx t.no t.list []
  | .frame _ _ _ => []

/-- A replay is due. -/
def Chip.replayOk (c : Chip) (no : Word) : Bool := c.awake && (c.step? no).any (fun t => t.replay.isSome)

/-- A step is replayed from its journal entry; where the entry cannot be read, or the step may not run again, the limit of R186 holds (R513,
R515). -/
def Chip.replayStep (no : Word) (c : Chip) : Chip :=
  match c.step? no with
  | none => c
  | some t =>
    if (c.journals t.part).isEmpty || !t.mayReplay then c.atLimit t (t.replay.getD { code := 0 })
    else
      let c := c.unqueue no
      let c := c.updStep no (fun t => { t with runs := t.runs + 1, replay := none, phase := .waiting, later := [] })
      let c := t.marks.foldl (fun (c : Chip) m => c.updSy (SyncCtl.setMark t.ctx m.1 m.2)) c
      let c := c.rejournal no
      let c := match t.subj with
        | .frame _ _ _ => c
        | .context _ _ => c.enqueue no (c.stepKernels t)
        | _ => (c.enqueue no (c.stepKernels t)).updStep no (fun t => { t with phase := .waiting })
      c.takeAll.schedule

end Sys2Proof.Machine
end

