-- ==== Sys2Proof/Machine/Respond.lean ====
section
/-! DEFINITION. QCP responses (R407, R408, R414 to R418): opcodes, error payloads, the response cache, deferred commands. -/

namespace Sys2Proof.Machine

/-- The opcode of a command (R418). -/
def Op.code : Op → BitVec 16
  | .hello => 0x0001 | .opn => 0x0002 | .close => 0x0003 | .nop => 0x0004
  | .regRead => 0x0010 | .regWrite => 0x0011 | .bulkRead => 0x0020 | .bulkWrite => 0x0021
  | .imageLoad => 0x0030 | .admitImg => 0x0031 | .abortImg => 0x0032 | .weightLoad => 0x0033 | .sealSet => 0x0034
  | .query => 0x0040 | .cancel => 0x0041 | .resend => 0x0042 | .queryTokens => 0x0043
  | .snapshot => 0x0050 | .warmReset => 0x0051 | .sleep => 0x0052
  | .attest => 0x0060 | .fwLoad => 0x0061 | .fwUpdate => 0x0062 | .ownerKey => 0x0063
  | .unknown c => c

/-- The commands that R418 lists. -/
def listedOps : List Op :=
  [.hello, .opn, .close, .nop, .regRead, .regWrite, .bulkRead, .bulkWrite, .imageLoad, .admitImg, .abortImg, .weightLoad, .sealSet, .query,
    .cancel, .resend, .queryTokens, .snapshot, .warmReset, .sleep, .attest, .fwLoad, .fwUpdate, .ownerKey]

/-- The command of an opcode: that of its row of R418, or a reserved one. -/
def Op.ofCode (code : BitVec 16) : Op := (listedOps.find? (fun o => o.code == code)).getD (.unknown code)

/-- The payload of an error response (R416). -/
def errPayload (addr count : Nat) : Bytes := toLe 8 addr ++ toLe 4 count

/-- The frame's tag (R407). -/
def rxTag (r : RxInfo) : Option (BitVec 16) := r.tags.head?

/-- Send a response under the EtherType that stood when the command was received (R409). -/
def Chip.sendResp (etype : Word) (f : QcpFrame) (r : Resp) (flags : Nat) (c : Chip) : Chip :=
  c.sendQcp etype f.rx.port f.rx.src (rxTag f.rx) (qcpFrame 1 r.op.toNat r.seq r.session r.status flags r.payload)

/-- The session field of a response outside the window: 0 in HELLO and OPEN (R408). -/
def Op.session (op : Op) (f : QcpFrame) : Word := if op == .hello || op == .opn then 0 else f.session

/-- Respond outside the window: HELLO, OPEN and commands refused with code 0x32 (log 12). -/
def Chip.reply (etype : Word) (op : Op) (f : QcpFrame) (status : Nat) (payload : Bytes) (c : Chip) : Chip :=
  c.sendResp etype f { seq := f.seq, op := op.code, session := op.session f, status := status, payload := payload } 0

/-- Keep a response: the cache holds those of the last 64 accepted commands (R414). -/
def Proto.cacheResp (r : Resp) (p : Proto) : Proto :=
  { p with cache := (p.cache ++ [r]).filter (fun x => decide ((p.next - x.seq).toNat ≤ 64)) }

/-- Respond to an accepted command: the response is kept and sent. -/
def Chip.respond (etype : Word) (op : Op) (f : QcpFrame) (status : Nat) (payload : Bytes) (c : Chip) : Chip :=
  let r : Resp := { seq := f.seq, op := op.code, session := f.session, status := status, payload := payload }
  (c.updPl (Proto.cacheResp r)).sendResp etype f r 0

/-- Respond with an error (R416). -/
def Chip.respondErr (etype : Word) (op : Op) (f : QcpFrame) (status addr count : Nat) (c : Chip) : Chip :=
  c.respond etype op f status (errPayload addr count)

/-- Complete the first deferred command that a test names: it responds while its session is open, and its response is discarded otherwise
(R412, R415). -/
def Chip.finishDeferred (p : Deferred → Bool) (status : Nat) (payload : Bytes) (c : Chip) : Chip :=
  match c.pl.deferred.find? p with
  | none => c
  | some d =>
    let c := c.updPl (fun x => { x with deferred := dropFirst p x.deferred })
    if c.pl.session.any (fun s => s.id == d.r.f.session) then c.respond c.pl.qcpEtype d.r.op d.r.f status payload else c

/-- The deferred command is of an operation. -/
def Deferred.is (op : Op) (d : Deferred) : Bool := d.r.op == op

/-- What an ADMIT answers when validation ends: the status and clamps, or the rejection (R418). -/
def Chip.answerAdmit (c : Chip) : Chip :=
  if c.cfg.state == .pending then
    c.finishDeferred (Deferred.is .admitImg) 0 (toLe 4 c.imgStatus.toNat ++ toLe 4 c.cfg.clampCount.toNat ++ toLe 4 c.cfg.clampOff.toNat)
  else c.finishDeferred (Deferred.is .admitImg) c.cfg.errCode (errPayload c.cfg.errOff.toNat 0)

/-- The session closes (R412): its held commands, its responses and its staged queries go (R259); commands already started run on. -/
def Chip.closeSession (c : Chip) : Chip :=
  (c.updPl (fun p => { p with session := none, held := [], cache := [] })).updSv (fun v => { v with staged := [] })

end Sys2Proof.Machine
end

