-- ==== Sys2Proof/Machine/Boundary.lean ====
section
/-! DEFINITION. Major-cycle boundaries and tide entries (R287 to R297), swaps and residency (R305 to R308), donation and
degradation (R317, R318), the return of contexts and partitions to service (R312, R314), the firmware switch (R448). -/

namespace Sys2Proof.Machine

/-! ### Effective array masks (R63, R287, R317) -/

/-- The arrays that a partition declares, as a list. -/
def PartDecl.arrayList (p : PartDecl) : List Nat := bitList 32 p.arrays.toNat

/-- A logical array exists and is not lost. -/
def Chip.arrayValid (c : Chip) (a : Nat) : Bool := (vget {} c.oc.map a).valid

/-- Nothing is queued or in execution on an array. -/
def Chip.arrayIdle (c : Chip) (a : Nat) : Bool :=
  let r := c.arr a
  r.queued.isEmpty && r.cur.isNone && r.saved.isEmpty && (r.st == .idle || r.st == .wait)

/-- The effective array mask of a partition. -/
def Chip.effMask (c : Chip) (p : PartDecl) : BitVec 32 :=
  let holds := fun (a : Nat) =>
    c.arrayValid a &&
      ((p.arrays.toNat.testBit a && !c.tt.donated.any (fun x => x.1 == a && x.2.1 == p.id) &&
          !c.tt.drains.any (fun d => d.array == a && d.move && d.donee == some p.id)) ||
        c.tt.donated.any (fun x => x.1 == a && x.2.2 == p.id))
  BitVec.ofNat 32 (((List.range 32).filter holds).foldl (fun m a => m + 2 ^ a) 0)

/-- Fix every partition's effective mask. -/
def Chip.fixMasks (c : Chip) : Chip :=
  c.str.parts.foldl (fun c p => c.updTt (fun t => { t with mask := vset t.mask p.id (c.effMask p) })) c

/-- Drains and donations whose array is lost or whose partitions no longer declare them go; a moved array that was donated drains from
the partition that holds it. A drain stays though its donor is removed: kernels of the donor may still run on the array (R63). Removed
partitions without a step in flight are forgotten. -/
def Chip.pruneDrains (c : Chip) : Chip :=
  let declares := fun (p a : Nat) => (c.str.part p).any (fun d => d.arrays.toNat.testBit a)
  let known := fun (p : Nat) => (c.str.part p).isSome
  c.updTt (fun t =>
    let holder := fun (d : Drain) => match t.donated.find? (fun x => x.1 == d.array && x.2.1 == d.donor) with
      | some x => if d.move then { d with donor := x.2.2 } else d
      | none => d
    { t with
      drains := (t.drains.map holder).filter (fun d => c.arrayValid d.array && (d.move || known d.donor) && d.donee.all known)
      ghosts := t.ghosts.filter (fun g => t.steps.any (fun s => s.part == g.id))
      donated := t.donated.filter (fun x => c.arrayValid x.1 && declares x.2.1 x.1 && known x.2.2) })

/-- The BE partition that donates next, with its array: the most arrays in its effective mask, ties to the lower id; its
highest-numbered array that does not drain already (R317). -/
def Chip.nextDonor (c : Chip) : Option (Nat × Nat) :=
  let free := fun (p : PartDecl) => (bitList 32 (c.effMask p).toNat).filter (fun a =>
    !c.tt.drains.any (fun d => d.array == a) && !c.tt.donated.any (fun x => x.1 == a))
  let cands := c.str.parts.filter (fun p => p.cls == .be && !(free p).isEmpty)
  (leastBy (fun (p : PartDecl) => (32 - (bitList 32 (c.effMask p).toNat).length) * 8 + p.id) cands).bind (fun p =>
    (free p).getLast?.map (fun a => (p.id, a)))

/-- Donate n arrays to an LC partition, as far as BE partitions have them. -/
def Chip.donate (p : Nat) : Nat → Chip → Chip
  | 0, c => c
  | n + 1, c =>
    match c.nextDonor with
    | some (q, a) => (c.updTt (fun t => { t with drains := t.drains ++ [{ array := a, donor := q, donee := some p, move := false }] })).donate p n
    | none => c

/-- Give n donated arrays of an LC partition back: drains in progress end first, then held arrays drain back, the highest first. -/
def Chip.giveBack (p : Nat) : Nat → Chip → Chip
  | 0, c => c
  | n + 1, c =>
    let toward := c.tt.drains.filter (fun d => d.donee == some p && !d.move)
    let held := c.tt.donated.filter (fun x => x.2.2 == p && !c.tt.drains.any (fun d => d.array == x.1))
    match toward.getLast?, leastBy (fun (x : Nat × Nat × Nat) => 32 - x.1) held with
    | some d, _ => (c.updTt (fun t => { t with drains := t.drains.filter (fun x => x.array != d.array) })).giveBack p n
    | none, some x =>
      (c.updTt (fun t => { t with drains := t.drains ++ [{ array := x.1, donor := p, donee := some x.2.1, move := true }] })).giveBack p n
    | none, none => c

/-- Donations follow the losses of LC partitions in ascending id. -/
def Chip.settleDonations (c : Chip) : Chip :=
  (c.str.parts.filter (fun p => p.cls == .lc)).foldl (fun c p =>
    let lost := (p.arrayList.filter (fun a => !c.arrayValid a)).length
    let have_ := (c.tt.donated.filter (fun x => x.2.2 == p.id && !c.tt.drains.any (fun d => d.array == x.1))).length +
      (c.tt.drains.filter (fun d => d.donee == some p.id && !d.move)).length
    if have_ < lost then c.donate p.id (lost - have_) else c.giveBack p.id (have_ - lost)) c

/-- The degradation set (R318). -/
def Chip.degradeSet (c : Chip) : List Nat :=
  (c.str.parts.filter (fun p => p.cls == .lc)).flatMap (fun p =>
    let total := p.arrayList.length
    let short := total - (bitList 32 (vget 0 c.tt.mask p.id).toNat).length
    let mine := (c.streamsOf p.id).mergeSort (fun x y => decide (x.rank * 256 + x.idx ≤ y.rank * 256 + y.idx))
    (mine.take (ceilDiv (mine.length * short) (max 1 total))).map (·.idx))

/-! ### The boundary's actions in the order of R290 -/

/-- Action 1: spares take over retired arrays; an array without one is lost. -/
def Chip.substitute (c : Chip) : Chip :=
  (List.range 32).foldl (fun (c : Chip) a =>
    let m := vget {} c.oc.map a
    if !m.valid || !c.oc.failed.toNat.testBit m.phys then c
    else if m.pending then
      ((c.updMap a (fun m => { m with pending := false, phys := m.nextPhys, nextPhys := 0 })).updOc (fun o =>
        { o with substCount := satInc o.substCount })).ocErr 6 a
    else c.updMap a (fun m => { m with valid := false })) c

/-- Action 2: drained arrays that are idle transfer, those of a donation that begins at this boundary among them (R317); those of a removed partition once its steps in flight have completed (R61). -/
def Chip.transferDrained (c : Chip) : Chip :=
  c.tt.drains.foldl (fun (c : Chip) d =>
    if !c.arrayIdle d.array || (decide (8 ≤ d.donor) && c.tt.steps.any (fun s => s.part == d.donor)) then c else
    c.updTt (fun t => { t with
      drains := t.drains.filter (fun x => x != d)
      donated := if d.move then t.donated.filter (fun x => x.1 != d.array)
        else match d.donee with
          | some q => t.donated ++ [(d.array, d.donor, q)]
          | none => t.donated })) c

/-- A pending image is due: its validation ended at least 1 ms before (R51). -/
def Chip.imageDue (c : Chip) : Option PendingImg :=
  c.cfg.pend.filter (fun p => decide (p.endedAt + 1000000 ≤ c.clk.ref))

/-- Action 4: masks, donations and degradation. -/
def Chip.fixCycle (c : Chip) : Chip :=
  let c := c.pruneDrains.settleDonations.fixMasks
  let now := c.degradeSet
  let changed := now.any (fun s => !c.tt.degraded.contains s) || c.tt.degraded.any (fun s => !now.contains s)
  let c := c.updTt (fun t => { t with degraded := now })
  if changed then c.ttErr 5 else c

/-- The consumption marks of a context that returns: the objects' values at a restart, 0 for a replaced context (R368). -/
def Chip.returnMarks (x : Nat) (c : Chip) : Chip :=
  let replaced := (c.ctx x).leaving
  let waits := match c.ctxProg x with | some g => g.waits | none => []
  let c := c.updSy (fun y => { y with marks := y.marks.filter (fun m => m.1 / 65536 != x) })
  if replaced then c else
  waits.foldl (fun (c : Chip) o => match c.obj o with
    | some v => c.updSy (SyncCtl.setMark x o v.value)
    | none => c) c

/-- A restarted or replaced context returns to service: an LC context in its berth, a BE context swapped out (R310, R312). -/
def Chip.returnCtx (d : CtxDecl) (c : Chip) : Chip :=
  if (c.ctx d.id).st != .restarting then c else
  let c := c.updCtx d.id (fun k => { k with
    st := .swapped
    berth := none
    fresh := true
    left := none
    quantum := false
    yields := false
    runnableAt := none })
  if d.berth < 255 && !c.partBe d.part then c.giveBerth d.berth d.id else c

/-- Action 5: restarted contexts and reset partitions return, and streams whose weight sets have been sealed start cold (R43). -/
def Chip.returnAll (c : Chip) : Chip :=
  let back := c.str.ctxs.filter (fun d => (c.ctx d.id).st == .restarting)
  let parts := (c.str.parts.filter (fun p => vget .absent c.tt.pst p.id == .reset)).map (·.id)
  let inReset := (c.str.ctxs.filter (fun d => parts.contains d.part)).map (·.id)
  let c := back.foldl (fun c d => c.returnMarks d.id) c
  let c := c.updTt (fun t => { t with pst := t.pst.map (fun s => if s == .reset then .run else s) })
  let c := c.serveCtxs inReset
  let c := back.foldl (fun c d => c.returnCtx d) c
  let c := (c.streamsFor (inReset ++ back.map (·.id))).foldl (fun (c : Chip) d => c.coldStream d) c
  let sealed := c.str.active.filter (fun d => c.cfg.coldAfterSeal.contains d.idx && c.ctxSealed d.ctx)
  let c := c.updCfg (fun g => { g with coldAfterSeal := g.coldAfterSeal.filter (fun s => !sealed.any (fun d => d.idx == s)) })
  sealed.foldl (fun (c : Chip) d => c.coldStart d false) c

/-- The firmware switch (R448). applied: an image was applied at this boundary; ready: all five cores report ready. -/
def Chip.switchFw (applied ready : Bool) (c : Chip) : Chip :=
  match c.hm.upd with
  | .copied => if applied then c else c.updHm (fun h => { h with upd := .switching, switchAt := c.tt.cycles })
  | .switching =>
    if ready then
      let c := c.updHm (fun h => { h with upd := .rewriting, updFailed := false, fwVersion := h.updVersion, fwHash := h.updHash })
      (c.marker 6).finishDeferred (Deferred.is .fwUpdate) 0 (toLe 4 c.hm.fwVersion.toNat)
    else
      ((c.updHm (fun h => { h with upd := .idle, updFailed := true })).hmErr 1).finishDeferred (Deferred.is .fwUpdate) 0x3B (errPayload 0 0)
  | _ => c

/-! ### Tide entries (R291 to R296) -/

/-- A context step comes due: skipped while the entry's previous step is incomplete (R294), else issued when its context runs. -/
def Chip.tideStep (k : Nat) (t : TideDecl) (be : Bool) (fin : Option Nat) (c : Chip) : Chip :=
  let same := c.tt.steps.any (fun s => !s.oldTable && (match s.subj with | .context e _ => e == k | _ => false))
  if same then (c.updTt (fun t => { t with skipped := satInc t.skipped })).ttErr 1
  else if !c.ctxRunnable t.target then c
  else
    let desc := match c.ctxProg t.target with | some g => g.desc | none => []
    let (w0, c) := c.open_
    let (w1, c) := c.open_
    let s := { blankStep t.target (c.partOf t.target) be (.context k c.tt.cycles) with gen := w1 ++ w0, list := t.list, budgetEnd := fin }
    let no := c.tt.stepNo
    let c := c.issue s (waitObjects ((stepList desc t.list).map (·.2)))
    c.enqueue no (c.listKernels t.target no t.list [])

/-- Steps that an entry opens in its partition's journal; none may be missing when it is issued (R509). -/
def Chip.entryRoom (c : Chip) (t : TideDecl) : Bool :=
  let need := match t.kind, c.str.stream t.target with
    | 0, some _ => 1
    | 1, some d => c.periodSteps d
    | 2, _ => 1
    | _, _ => 0
  decide (need ≤ c.openSlots t.part)

/-- Issue tide entry k, due at a device time. -/
def Chip.tideIssue (k : Nat) (t : TideDecl) (due : Nat) (c : Chip) : Chip :=
  let c := c.updTt (fun x => { x with next := k + 1 })
  let c := if t.snap then c.updSn (fun s => { s with ask := s.ask ++ [(3, k)] }) else c
  let (be, fin) := c.entryClass t due
  match t.kind with
  | 0 => match c.str.stream t.target with | some d => c.tideLive d due be fin | none => c
  | 1 => match c.str.stream t.target with | some d => c.tideSettled d be fin | none => c
  | 2 => c.tideStep k t be fin
  | _ => c

/-- Action 6: the entries with offset 0, in table order, while the journal has room. -/
def Chip.issueZero (start : Nat) : Nat → List TideDecl → Chip → Chip
  | _, [], c => c
  | k, t :: ts, c => if t.offset = 0 && c.entryRoom t then (c.tideIssue k t start).issueZero start (k + 1) ts else c

/-- The entry that comes due: the next of the cycle, at or after its due time. -/
def Chip.entryDue (c : Chip) (kind k : Nat) : Option TideDecl :=
  (c.str.tide[k]?).filter (fun t =>
    c.awake && c.tt.inCycle && k == c.tt.next && min t.kind 3 == kind && decide (c.tt.start + t.offset * 10000 ≤ c.clk.dev) && c.entryRoom t)

/-- The precondition of a tide command: the entry is due, or it is met with an uncorrectable error (R297). -/
def Chip.tideOk (kind k : Nat) (bad : Bool) (c : Chip) : Bool :=
  if bad then c.awake && (c.str.tide[k]?).any (fun t => min t.kind 3 == kind) else (c.entryDue kind k).isSome

/-- A tide command: the entry is issued; an uncorrectable error resets its partition instead, and the table is loaded again. -/
def Chip.tideRun (k : Nat) (bad : Bool) (c : Chip) : Chip :=
  match c.str.tide[k]? with
  | none => c
  | some t => if bad then (c.partReset t.part).ttErr 6 else (c.tideIssue k t (c.tt.start + t.offset * 10000)).schedule

/-! ### The boundary -/

/-- The major cycle in nanoseconds: the applied structure's, or that of the image waiting for the first application. -/
def Chip.cycleNs (c : Chip) : Nat :=
  match c.cfg.applied, c.cfg.pend with
  | some s, _ => s.cycle * 10000
  | none, some p => p.str.cycle * 10000
  | none, none => 0

/-- A boundary falls now (R288): device time is a multiple of the major cycle, and this boundary has not been taken. -/
def Chip.boundaryDue (c : Chip) : Bool :=
  c.awake && c.cycleNs != 0 && c.clk.dev % c.cycleNs == 0 && !(c.tt.inCycle && c.tt.start == c.clk.dev) &&
    (c.cfg.applied.isSome || c.imageDue.isSome)

/-- What a major-cycle boundary does (R290). -/
def Chip.boundary (ready : Bool) (c : Chip) : Chip :=
  let c := c.updTt (fun t => if c.cfg.everApplied then { t with cycles := t.cycles + 1 } else t)
  let c := c.remapRows.substitute.pruneDrains.settleDonations.transferDrained
  let due := c.imageDue
  let c := match due with | some p => c.applyOrReject p | none => c
  let applied := due.isSome && c.cfg.state == .applied
  if c.cfg.applied.isNone then c else
  let c := (c.fixCycle.switchFw applied ready).returnAll
  let c := (List.range 256).foldl (fun (c : Chip) x => c.finishLeaving x) c
  let start := c.clk.dev
  let c := c.updTt (fun t => { t with start := start, inCycle := true, next := 0 })
  (c.issueZero start 0 c.str.tide).takeAll.schedule

/-- Device time is stepped (R75, R289): the cycle ends, and every stream's modes start cold (R247). -/
def Chip.realign (c : Chip) : Chip :=
  let c := (c.updTt (fun t => { t with inCycle := false, realigns := satInc t.realigns })).ttErr 2
  let c := c.str.active.foldl (fun (c : Chip) d => c.coldStart d false) c
  let c := c.updLg (fun l => { l with flags := if l.flags.testBit 3 then l.flags else l.flags + 8 })
  c.marker 5

/-! ### Overruns, kernels, swaps and residency -/

/-- A class-0 step has run out of budget (R295). -/
def Chip.overrunDue (c : Chip) (no : Word) : Bool :=
  c.awake && (c.step? no).any (fun s => s.budgetEnd.any (fun e => decide (e ≤ c.clk.dev)))

/-- The overrun is counted once. -/
def Chip.overrun (no : Word) (c : Chip) : Chip :=
  ((c.updStep no (fun s => { s with budgetEnd := none })).updTt (fun t => { t with overruns := satInc t.overruns })).ttErr 0

/-- Place the next kernel of a partition (R299, R300); a serving step's inputs are written before its first. -/
def Chip.placeNext (p : Nat) (c : Chip) : Chip :=
  match c.nextPlacement p with
  | none => c
  | some (k, a) =>
    let c := c.stage k.step
    (if c.tt.waiting.any (fun x => x.step == k.step) then c.place k a else c).schedule

/-- The occupant of a berth whose transfer in a direction ends as it began, none when it was torn down meanwhile. -/
def Chip.transferee (c : Chip) (b : Nat) (st : CtxState) : Option Nat :=
  (c.berth b).occ.filter (fun x => (c.ctx x).st == st && (c.ctx x).berth == some b)

/-- A berth whose occupant was torn down during a transfer is free once the transfer ends (R310); its share is zero-filled. -/
def Chip.freeBerth (b : Nat) (c : Chip) : Chip :=
  let c := match (c.berth b).occ with
    | some x => c.updCtx x (fun k => if k.berth = some b then { k with berth := none } else k)
    | none => c
  (c.zeroShare b).updBerth b (fun r => { r with occ := none, xfer := 0 })

/-- The context that a swap-out made way for enters, if it still can. -/
def Chip.admitIncoming (b : Nat) (c : Chip) : Chip :=
  match (c.berth b).incoming with
  | some y => if (c.ctx y).st == .swapped then c.enterBerth b y else c.updBerth b (fun r => { r with incoming := none })
  | none => c

/-- The last chunk of a swap-out is written (R305, R310): the share lies in the swap area of the context, whether or not it faulted
meanwhile. -/
def Chip.swapOutDone (b : Nat) (fails : List Sys2Proof.JobErr) (c : Chip) : Chip :=
  let c := match (c.berth b).occ with | some x => (c.shareFails b x fails).shareOut b x | none => c
  let c := match c.transferee b .swapOut with
    | none => c.freeBerth b
    | some x =>
      ((c.updBerth b (fun r => { r with xfer := 0, occ := none })).updCtx x (fun k =>
        { k with st := .swapped, berth := none, lastBerth := b, runnableAt := none }))
  (c.admitIncoming b).schedule

/-- The last chunk of a swap-in is read: the context is resident (R304, R305, R308, R310). -/
def Chip.swapInDone (b : Nat) (c : Chip) : Chip :=
  let c := match (c.berth b).occ with
    | some x => if (c.ctx x).fresh then c.zeroShare b else c.shareIn b x
    | none => c
  match c.transferee b .swapIn with
  | none => (c.freeBerth b).schedule
  | some x =>
    let c := c.updBerth b (fun r => { r with xfer := 0 })
    let busy := !(c.stepsOf x).isEmpty
    let c := (c.updCtx x (fun k => { k with
      st := if busy then .running else .idle
      residentAt := c.clk.ref
      blockedAt := c.clk.ref
      progressed := false
      quantum := false
      yields := false
      fresh := false })).updTt (fun t => { t with swaps := satInc t.swaps })
    c.takeAll.schedule

/-- A context occupies a berth outside a transfer. -/
def Chip.settled (c : Chip) (x : Nat) : Bool :=
  let k := c.ctx x
  k.berth.isSome && (k.st == .idle || k.st == .running || k.st == .blocked)

/-- A resident BE context has outstayed the quantum while a runnable context of its partition waits for a berth (R308). -/
def Chip.quantumDue (c : Chip) (x : Nat) : Bool :=
  let p := c.partOf x
  c.awake && c.partBe p && c.settled x && !(c.ctx x).quantum &&
    decide ((c.ctx x).residentAt + c.tt.quantum.toNat * 1000000 < c.clk.ref) &&
    c.str.ctxs.any (fun d => d.part == p && (c.ctx d.id).st == .swapped && (c.ctx d.id).runnableAt.isSome)

/-- 1 ms has passed since a context was swapped in (R308). -/
def Chip.holdDue (c : Chip) (x : Nat) : Bool :=
  c.awake && c.settled x && !(c.ctx x).progressed && decide ((c.ctx x).residentAt + 1000000 ≤ c.clk.ref)

end Sys2Proof.Machine
end

