-- ==== Sys2Proof/Machine/Engines.lean ====
section
/-! DEFINITION. The motion engine and the disparity engine (04_motion_and_disparity.md): their sums, the entries they write, their
queues, the pairing of views, jobs ended after a third failure (R99 to R125, R517). -/

namespace Sys2Proof.Machine

/-! ### Luma planes (R105) -/

/-- A luma plane of a frame. -/
structure Plane where
  w : Nat
  h : Nat
  px : Array Nat

/-- Sample (x, y), the coordinates clamped to the frame. -/
def Plane.pix (p : Plane) (x y : Int) : Int :=
  let cx := (clampInt 0 ((p.w : Int) - 1) x).toNat
  let cy := (clampInt 0 ((p.h : Int) - 1) y).toNat
  ((p.px.getD (cy * p.w + cx) 0 : Nat) : Int)

/-- The luma plane of a closed frame, from its Basin slot. -/
def Chip.luma (c : Chip) (d : StreamDecl) (f : ClosedFrame) : Plane :=
  { w := d.w, h := d.h,
    px := ((c.basinRead (c.streamBanks d) (c.frameSlot d f.slot + 4096) (d.w * d.h)).map (·.toNat)).toArray }

/-- A luma line lies in a line unit that a frame's loss map marks (R84). -/
def StreamDecl.lineLost (d : StreamDecl) (loss : Bytes) (y : Nat) : Bool :=
  let k := if d.fmt = 1 then y else y / 2
  (loss.getD (k / 8) 0).toNat.testBit (k % 8)

/-- A line of a plane after the clamping of pix. -/
def StreamDecl.line (d : StreamDecl) (y : Int) : Nat := (clampInt 0 ((d.h : Int) - 1) y).toNat

/-! ### Motion (R104 to R109) -/

/-- A vector in quarter pels. -/
abbrev Vec := Int × Int

/-- sample(f, X, Y) of R105: bilinear at a quarter-pel position, an exact half rounding up. -/
def Plane.sample (p : Plane) (x y : Int) : Int :=
  let xi := x / 4
  let yi := y / 4
  let fx := x % 4
  let fy := y % 4
  ((4 - fx) * (4 - fy) * p.pix xi yi + fx * (4 - fy) * p.pix (xi + 1) yi + (4 - fx) * fy * p.pix xi (yi + 1) +
    fx * fy * p.pix (xi + 1) (yi + 1) + 8) / 16

/-- The positions of a block's 64 samples. -/
def blockAt (bx by_ : Nat) : List (Int × Int) :=
  (List.range 64).map (fun i => (((bx * 8 + i % 8 : Nat) : Int), ((by_ * 8 + i / 8 : Nat) : Int)))

/-- sad(bx, by, v) of R105. -/
def sad (cur ref : Plane) (bx by_ : Nat) (v : Vec) : Nat :=
  (blockAt bx by_).foldl (fun s q => s + (cur.pix q.1 q.2 - ref.sample (4 * q.1 + v.1) (4 * q.2 + v.2)).natAbs) 0

/-- cost(bx, by, v, p4) of R105. -/
def cost (cur ref : Plane) (bx by_ : Nat) (p4 v : Vec) : Nat :=
  sad cur ref bx by_ v + (v.1 - p4.1).natAbs + (v.2 - p4.2).natAbs

/-- The median of three. -/
def median3 (a b c : Int) : Int := max (min a b) (min (max a b) c)

/-- Quarter pels to whole pels, ties away from zero (R106). -/
def rnaQuarter (q : Int) : Int := if 0 ≤ q then (q + 2) / 4 else -((-q + 2) / 4)

/-- The predictor of a block in whole pels, from the vectors of the same block in the reference frame's field, of the block to the left
and of the block above (R106). -/
def predictor (t l a : Vec) : Vec :=
  (clampInt (-64) 64 (rnaQuarter (median3 t.1 l.1 a.1)), clampInt (-32) 32 (rnaQuarter (median3 t.2 l.2 a.2)))

/-- A candidate replaces the best so far only at a strictly lower cost (R107). -/
def better (f : Vec → Nat) (best : Vec × Nat) (v : Vec) : Vec × Nat :=
  let k := f v
  if k < best.2 then (v, k) else best

/-- The integer candidates around a predictor in the order of R107. -/
def searchAround (p : Vec) : List Vec :=
  (List.range 33).flatMap (fun (dy : Nat) => (List.range 49).map (fun (dx : Nat) => (4 * (p.1 + (dx : Int) - 24), 4 * (p.2 + (dy : Int) - 16))))

/-- The eight neighbours of a centre at a step, in order. -/
def around (step : Int) (ctr : Vec) : List Vec :=
  [(-1, -1), (0, -1), (1, -1), (-1, 0), (1, 0), (-1, 1), (0, 1), (1, 1)].map
    (fun n : Int × Int => (ctr.1 + n.1 * step, ctr.2 + n.2 * step))

/-- The vector that a block takes (R107). -/
def searchBlock (cur ref : Plane) (bx by_ : Nat) (p : Vec) : Vec :=
  let f := cost cur ref bx by_ (4 * p.1, 4 * p.2)
  let b := (searchAround p).foldl (better f) ((0, 0), f (0, 0))
  let b := (around 2 b.1).foldl (better f) b
  ((around 1 b.1).foldl (better f) b).1

/-- A block's LOSS bit (R108): a luma line of the block in the current frame, or a reference line with non-zero weight, was filled. -/
def blockLoss (d : StreamDecl) (lossCur lossRef : Bytes) (noref : Bool) (by_ : Nat) (v : Vec) : Bool :=
  (List.range 8).any (fun j =>
    let y : Int := ((by_ * 8 + j : Nat) : Int)
    let q := 4 * y + v.2
    d.lineLost lossCur (d.line y) ||
      (!noref && (d.lineLost lossRef (d.line (q / 4)) || (q % 4 != 0 && d.lineLost lossRef (d.line (q / 4 + 1))))))

/-- A block record (R108). -/
def blockRecord (loss : Bool) (mad : Nat) (v : Vec) : Nat := b2n loss * 2 ^ 31 + mad * 2 ^ 23 + unsigned 11 v.2 * 2 ^ 12 + unsigned 12 v.1

/-- The vector of a block record. -/
def recordVec (w : Nat) : Vec := (signed 12 w, signed 11 (w / 2 ^ 12))

/-- What a motion job reads: the two planes and loss maps, and the reference frame's field where it was written completely. -/
structure MotionIn where
  cur : Plane
  ref : Plane
  lossCur : Bytes
  lossRef : Bytes
  noref : Bool
  field : Option (Array Vec)

/-- The vectors of a field in raster order (R106, R107). -/
def MotionIn.vectors (m : MotionIn) (bw bh : Nat) : Array Vec :=
  (List.range (bw * bh)).foldl (fun (f : Array Vec) i =>
    let bx := i % bw
    let by_ := i / bw
    if m.noref then f.push (0, 0) else
    let t := match m.field with | some g => g.getD i (0, 0) | none => (0, 0)
    let l := if bx = 0 then (0, 0) else f.getD (i - 1) (0, 0)
    let a := if by_ = 0 then (0, 0) else f.getD (i - bw) (0, 0)
    f.push (searchBlock m.cur m.ref bx by_ (predictor t l a))) #[]

/-- The block records of a field. -/
def MotionIn.records (m : MotionIn) (d : StreamDecl) : List Nat :=
  let (bw, bh) := d.motionDims
  let vs := m.vectors bw bh
  (List.range (bw * bh)).map (fun i =>
    let v := vs.getD i (0, 0)
    let mad := if m.noref then 0 else min 255 (sad m.cur m.ref (i % bw) (i / bw) v / 64)
    blockRecord (blockLoss d m.lossCur m.lossRef m.noref (i / bw) v) mad v)

/-- A motion-field entry: header and records (R109). -/
def motionEntry (d : StreamDecl) (f : ClosedFrame) (refCtr : Option Nat) (recs : List Nat) : Bytes :=
  let lossy := (recs.filter (fun r => r.testBit 31)).length
  toLe 8 f.counter ++ toLe 8 (refCtr.getD (2 ^ 64 - 1)) ++ toLe 8 f.capture ++ toLe 4 f.closeIdx ++ toLe 1 d.idx ++
    toLe 1 (b2n refCtr.isNone + 2 * b2n (lossy != 0)) ++ toLe 2 d.motionDims.1 ++ toLe 2 d.motionDims.2 ++ zeros 2 ++ toLe 4 lossy ++
    zeros 24 ++ recs.flatMap (toLe 4)

/-- A closed frame still in its Basin slot, by close index. -/
def Chip.heldIdx (c : Chip) (s k : Nat) : Option ClosedFrame := (c.stream s).frames.find? (fun f => f.closeIdx == k)

/-- The vectors in the records of a field. -/
def fieldVectors (d : StreamDecl) (bs : Bytes) : Array Vec :=
  ((List.range (d.motionDims.1 * d.motionDims.2)).map (fun i => recordVec (fieldAt bs (4 * i) 4))).toArray

/-- A job reads the field of its reference frame, where the job of that frame has written it (R106): the vectors, none where there is no such
field; false where the read is refused, which faults the stream's context (R347). -/
def Chip.fieldOf (d : StreamDecl) (f : ClosedFrame) (c : Chip) : Chip × Option (Array Vec) × Bool :=
  let k := f.closeIdx - 1
  if f.closeIdx = 0 || !c.me.written.any (fun w => w.stream == d.idx && w.closeIdx == k) then (c, none, true) else
  match c.readFor .motion d.ctx noStep (c.motionAt d k + 64) (4 * (d.motionDims.1 * d.motionDims.2)) with
  | (c, some bs) => (c, some (fieldVectors d bs), true)
  | (c, none) => (c, none, false)

/-- The entry that a motion job writes (R103 to R109). -/
def Chip.motionOut (c : Chip) (d : StreamDecl) (j : Job) (field : Option (Array Vec)) : Bytes :=
  let f := j.frame
  let m : MotionIn :=
    { cur := c.luma d f
      ref := match j.ref with | some r => c.luma d r | none => ⟨0, 0, #[]⟩
      lossCur := c.lossMap d f
      lossRef := match j.ref with | some r => c.lossMap d r | none => []
      noref := j.ref.isNone
      field := field }
  motionEntry d f (j.ref.map (·.counter)) (m.records d)

/-! ### Disparity (R113 to R119) -/

/-- census(f, x, y): bit n for each of the 48 neighbours in raster order that is less than the centre. -/
def Plane.census (p : Plane) (x y : Nat) : Nat :=
  let m := p.pix x y
  (((List.range 49).filter (fun n => n != 24)).foldl (fun (a : Nat × Nat) n =>
    let v := p.pix ((x : Int) + ((n % 7 : Nat) : Int) - 3) ((y : Int) + ((n / 7 : Nat) : Int) - 3)
    (a.1 + (if v < m then 2 ^ a.2 else 0), a.2 + 1)) (0, 0)).1

/-- The census of every pixel in raster order. -/
def Plane.censuses (p : Plane) : Array Nat :=
  ((List.range (p.w * p.h)).map (fun i => p.census (i % p.w) (i / p.w))).toArray

/-- Bits set in a 48-bit census. -/
def popcount (n : Nat) : Nat := ((List.range 48).filter (fun i => n.testBit i)).length

/-- Two views of w × h pixels as their censuses. -/
structure Views where
  w : Nat
  h : Nat
  ref : Array Nat
  oth : Array Nat
  /-- The search runs toward smaller x (the left view as reference). -/
  left : Bool

/-- agg(ref, oth, sgn, x, y, d) of R113. -/
def Views.agg (v : Views) (x y d : Nat) : Nat :=
  (List.range 25).foldl (fun s n =>
    let u := clampInt 0 ((v.w : Int) - 1) ((x : Int) + ((n % 5 : Nat) : Int) - 2)
    let r := (clampInt 0 ((v.h : Int) - 1) ((y : Int) + ((n / 5 : Nat) : Int) - 2)).toNat
    let o := (clampInt 0 ((v.w : Int) - 1) (if v.left then u - d else u + d)).toNat
    s + popcount (v.ref.getD (r * v.w + u.toNat) 0 ^^^ v.oth.getD (r * v.w + o) 0)) 0

/-- The candidates' aggregated costs at a pixel, from disparity 0 to dmax. -/
def Views.costs (v : Views) (x y dmax : Nat) : Array Nat := ((List.range (dmax + 1)).map (v.agg x y)).toArray

/-- The smallest disparity among equal minima (wta of R113). -/
def winner (a : Array Nat) : Nat :=
  (List.range a.size).foldl (fun best d => if a.getD d 0 < a.getD best 0 then d else best) 0

/-- The sub-pixel offset in sixteenths (R114). -/
def subpel (a : Array Nat) (d1 : Nat) : Int :=
  if 1 ≤ d1 && d1 + 1 < a.size then
    let p : Int := a.getD (d1 - 1) 0
    let m : Int := a.getD d1 0
    let n : Int := a.getD (d1 + 1) 0
    let num := 16 * (p - n)
    let den := 2 * (p - 2 * m + n)
    if 0 < den then
      clampInt (-8) 8 (if 0 ≤ num then (2 * num + den) / (2 * den) else -((-2 * num + den) / (2 * den)))
    else 0
  else 0

/-- conf of R115. -/
def confidence (a : Array Nat) (d1 : Nat) : Nat :=
  let c1 := a.getD d1 0
  let far := ((List.range a.size).filter (fun d => decide (d + 2 ≤ d1) || decide (d1 + 2 ≤ d))).map (fun d => a.getD d 0)
  match far with
  | [] => 0
  | x :: xs => min 15 (16 * (xs.foldl min x - c1) / (c1 + 64))

/-- The disparity and the info byte of a left pixel (R113 to R118), lost when line y of either view was filled. -/
def dispPixel (l r : Views) (x y : Nat) (lost : Bool) : Nat × Nat :=
  let a := l.costs x y (min 127 x)
  let d1 := winner a
  let c1 := a.getD d1 0
  let cmax := (List.range a.size).foldl (fun m d => max m (a.getD d 0)) 0
  let low := decide (cmax - c1 ≤ 25)
  let xr := x - d1
  let dr := winner (r.costs xr y (min 127 (l.w - 1 - xr)))
  let fail := decide (d1 + 1 < dr) || decide (dr + 1 < d1)
  let disp := if fail then 0xFFFF else (max 0 (16 * (d1 : Int) + subpel a d1)).toNat
  let conf := if fail || low then 0 else confidence a d1
  (disp, b2n lost * 64 + b2n fail * 32 + b2n low * 16 + conf)

/-- The pixels of a map. -/
def dispPixels (d : StreamDecl) (pl pr : Plane) (lossL lossR : Bytes) : List (Nat × Nat) :=
  let cl := pl.censuses
  let cr := pr.censuses
  let l : Views := ⟨d.w, d.h, cl, cr, true⟩
  let r : Views := ⟨d.w, d.h, cr, cl, false⟩
  (List.range (d.w * d.h)).map (fun i =>
    dispPixel l r (i % d.w) (i / d.w) (d.lineLost lossL (i / d.w) || d.lineLost lossR (i / d.w)))

/-- A disparity entry: header, disparity plane, info plane (R119); the bytes between the planes are written as 0 (log 119). -/
def dispEntry (d : StreamDecl) (f : ClosedFrame) (rightCtr : Option Nat) (px : List (Nat × Nat)) : Bytes :=
  let count := fun (p : Nat × Nat → Bool) => (px.filter p).length
  let head := toLe 8 f.counter ++ toLe 8 (rightCtr.getD (2 ^ 64 - 1)) ++ toLe 8 f.capture ++ toLe 4 f.closeIdx ++ toLe 1 d.idx ++
    toLe 1 (b2n rightCtr.isNone + 2 * b2n (px.any (fun p => p.2.testBit 6))) ++ toLe 2 d.w ++ toLe 2 d.h ++ zeros 2 ++
    toLe 4 (count (fun p => p.1 == 0xFFFF)) ++ toLe 4 (count (fun p => p.2.testBit 4))
  let plane := px.flatMap (fun p => toLe 2 p.1)
  head ++ zeros (4096 - head.length) ++ plane ++ zeros (d.infoAt - 4096 - plane.length) ++ px.map (fun p => BitVec.ofNat 8 p.2)

/-- The entry that a disparity job writes: paired with a right frame, or unpaired (R112). -/
def Chip.dispOut (c : Chip) (d : StreamDecl) (f : ClosedFrame) (right : Option (StreamDecl × ClosedFrame)) : Bytes :=
  match right with
  | none => dispEntry d f none (List.replicate (d.w * d.h) (0xFFFF, 0))
  | some (e, g) => dispEntry d f (some g.counter) (dispPixels d (c.luma d f) (c.luma e g) (c.lossMap d f) (c.lossMap e g))

/-! ### Queues (R99, R100, R112) -/

/-- The next job of a queue: ascending close time, ties to the lower stream. -/
def nextJob (q : List Job) : Option Job :=
  q.foldl (fun best j => match best with
    | none => some j
    | some b => if j.order < b.order || (j.order == b.order && j.stream < b.stream) then some j else some b) none

/-- Take a job out of a queue. -/
def Engine.take (j : Job) (e : Engine) : Engine := { e with q := e.q.erase j, run := some j, fails := 0 }

/-- The job of a frame that closed: its reference is the frame that closed before it (R99, R103). -/
def Chip.motionJob (c : Chip) (s : Nat) (f : ClosedFrame) : Job :=
  { stream := s, frame := f, order := f.close, ref := if f.closeIdx = 0 then none else c.heldIdx s (f.closeIdx - 1) }

/-- Enqueue the motion job of a frame that closed (R99). -/
def Chip.motionEnqueue (s : Nat) (f : ClosedFrame) (c : Chip) : Chip :=
  c.updMe (fun m => { m with eng := { m.eng with q := m.eng.q ++ [c.motionJob s f] } })

/-- Enqueue a disparity job of a left frame, paired with a frame of the right view's stream or unpaired. -/
def Chip.dispEnqueue (left : Nat) (f : ClosedFrame) (right : Option (Nat × ClosedFrame)) (c : Chip) : Chip :=
  let j : Job := { stream := left, frame := f, order := (right.map (fun g => max f.close g.2.close)).getD f.close, right := right }
  c.updSd (fun m => { m with
    eng := { m.eng with q := m.eng.q ++ [j] }
    await := m.await.filter (fun a => a != (left, f.closeIdx)) })

/-- The capture times lie within a quarter of an input period (R112). -/
def StreamDecl.paired (d : StreamDecl) (a b : Nat) : Bool := decide (4 * d.fps * (if a ≤ b then b - a else a - b) ≤ 1000000000)

/-- A right frame is later than a left frame's window. -/
def StreamDecl.pastWindow (d : StreamDecl) (left right : Nat) : Bool := decide (left < right) && !d.paired left right

/-- Judge a left frame that waits for its right view: paired, unpaired, or still waiting (R112). -/
def Chip.judgePair (l r : StreamDecl) (k : Nat) (c : Chip) : Chip :=
  match c.heldIdx l.idx k with
  | none => c.updSd (fun m => { m with await := m.await.filter (fun a => a != (l.idx, k)) })
  | some f =>
    match (c.stream r.idx).frames.find? (fun g => l.paired f.capture g.capture) with
    | some g => c.dispEnqueue l.idx f (some (r.idx, g))
    | none => if (c.stream r.idx).hist.any (fun g => l.pastWindow f.capture g.capture) then c.dispEnqueue l.idx f none else c

/-- A frame of a stream of a pair closed: a left frame starts waiting, and every waiting left frame of the pair is judged. -/
def Chip.pairClose (d : StreamDecl) (f : ClosedFrame) (c : Chip) : Chip :=
  match c.leftView d with
  | none => c
  | some l =>
    match c.str.stream l.partner with
    | none => c
    | some r =>
      let c := if l.idx = d.idx then c.updSd (fun m => { m with await := m.await ++ [(d.idx, f.closeIdx)] }) else c
      (c.sd.await.filter (fun a => a.1 == l.idx)).foldl (fun (c : Chip) a => c.judgePair l r a.2) c

/-- DISPARITY_PAIR_TIMEOUT: the earliest waiting left frame of a stream whose capture time plus two input periods has come. -/
def Chip.pairLate (c : Chip) (s : Nat) : Option (StreamDecl × ClosedFrame) :=
  match c.str.stream s with
  | none => none
  | some d => (c.sd.await.filter (fun a => a.1 == s)).findSome? (fun a =>
      match c.heldIdx s a.2 with
      | some f => if 2 * 1000000000 + f.capture * d.fps ≤ c.clk.dev * d.fps then some (d, f) else none
      | none => none)

/-- The effect of DISPARITY_PAIR_TIMEOUT. -/
def Chip.pairTimeout (s : Nat) (c : Chip) : Chip :=
  match c.pairLate s with
  | some (_, f) => c.dispEnqueue s f none
  | none => c

/-! ### Jobs (R100, R121, R125, R517) -/

/-- Reads and checks that failed, up to a third that the retries do not absorb (R125, R333): the failing one, with its Basin address. -/
def Chip.attempts (r : Requester) (ctx : Nat) : Nat → List Sys2Proof.JobErr → Chip → Chip × Option (Option Nat)
  | _, [], c => (c, none)
  | n, .word a true :: es, c => attempts r ctx n es (c.bsCorrected a)
  | n, .word a false :: es, c =>
    let c := c.basinFail r ctx noStep a
    if n = 2 then (c, some (some a)) else attempts r ctx (n + 1) es c
  | n, .check :: es, c => if n = 2 then (c, some none) else attempts r ctx (n + 1) es c

/-- What follows an abandoned job: the stream's context faults as a timeout would (R517), and a failed Basin word has the outcome of
R333. src is the engine's interrupt source; the place of ABANDONED in its status word is open (log 20). -/
def Chip.abandon (src ctx : Nat) (addr : Option Nat) (c : Chip) : Chip :=
  let (w, c) := c.open_
  let c := (c.raise src (statusDetail w)).ctxFault ctx 0x105
  match addr with | some a => c.basinOutcome a | none => c

/-- The motion engine can take a job. -/
def Chip.motionReady (c : Chip) : Bool := c.awake && c.me.eng.run.isNone && (nextJob c.me.eng.q).isSome

/-- The motion engine stops without an entry. -/
def Chip.motionStop (c : Chip) : Chip := c.updMe (fun m => { m with eng := { m.eng with run := none } })

/-- MOTION_JOB_START. -/
def Chip.motionStart (fails : List Sys2Proof.JobErr) (c : Chip) : Chip :=
  match nextJob c.me.eng.q with
  | none => c
  | some j =>
    let c := c.updMe (fun m => { m with eng := m.eng.take j })
    match c.str.stream j.stream with
    | none => c.motionStop
    | some d =>
      match Chip.attempts .motion d.ctx 0 fails c with
      | (c, some a) => (c.updMe (fun m => { m with eng := { m.eng with run := none, fails := 3, abandoned := true } })).abandon 769 d.ctx a
      | (c, none) =>
        match c.fieldOf d j.frame with
        | (c, _, false) => c.motionStop
        | (c, field, true) =>
          let out := c.motionOut d j field
          c.updMe (fun m => { m with eng := { m.eng with out := out, at_ := c.motionAt d j.frame.closeIdx } })

/-- Write an engine's entry; a job whose stream has gone writes as the device, others act for their stream's context (R102, R347). -/
def Chip.engineWrite (r : Requester) (ctx : Option Nat) (a : Nat) (bs : Bytes) (c : Chip) : Chip × Bool :=
  match c.refusal (match ctx with | some x => .ctx x | none => .device) true a bs.length with
  | some (cause, at_) =>
    let c := c.recordViol r (ctx.getD 255) cause at_ noStep
    (match ctx with | some x => c.ctxFault x 3 | none => c, false)
  | none => (c.dramWrite a bs, true)

/-- MOTION_JOB_DONE. -/
def Chip.motionDone (c : Chip) : Chip :=
  match c.me.eng.run with
  | none => c
  | some j =>
    let e := c.me.eng
    let c := c.updMe (fun m => { m with eng := { m.eng with run := none, out := [] } })
    let ctx := if j.stale then none else (c.str.stream j.stream).map (·.ctx)
    let (c, ok) := c.engineWrite .motion ctx e.at_ e.out
    if !ok then c else
    let c := if j.stale then c else c.updMe (fun m => { m with
      written := m.written.filter (fun w => w.stream != j.stream || decide (j.frame.closeIdx < w.closeIdx + 4)) ++
        [({ stream := j.stream, closeIdx := j.frame.closeIdx, at_ := c.clk.dev } : FieldRec)] })
    c.deviceSignal 2 (256 + j.stream)

/-- The disparity engine can take a job. -/
def Chip.dispReady (c : Chip) : Bool := c.awake && c.sd.eng.run.isNone && (nextJob c.sd.eng.q).isSome

/-- The declaration and the frame of the right view that a job was paired with; none where the pair is no longer declared. -/
def Chip.pairOf (c : Chip) (d : StreamDecl) (j : Job) : Option (StreamDecl × ClosedFrame) :=
  j.right.bind (fun g => ((c.str.stream g.1).filter (fun r => r.idx == d.partner)).map (fun r => (r, g.2)))

/-- DISPARITY_JOB_START. The job reads the right frame that it was paired with when it was enqueued (R112). -/
def Chip.dispStart (fails : List Sys2Proof.JobErr) (c : Chip) : Chip :=
  match nextJob c.sd.eng.q with
  | none => c
  | some j =>
    let c := c.updSd (fun m => { m with eng := m.eng.take j })
    match c.str.stream j.stream with
    | none => c.updSd (fun m => { m with eng := { m.eng with run := none } })
    | some d =>
      match Chip.attempts .disparity d.ctx 0 fails c with
      | (c, some a) => (c.updSd (fun m => { m with eng := { m.eng with run := none, fails := 3, abandoned := true } })).abandon 770 d.ctx a
      | (c, none) =>
        let f := j.frame
        let right := c.pairOf d j
        let out := c.dispOut d f right
        let map : MapRec := { left := d.idx, closeIdx := f.closeIdx, leftCtr := f.counter, rightCtr := right.map (·.2.counter) }
        c.updSd (fun m => { m with eng := { m.eng with out := out, at_ := c.dispAt d f.closeIdx }, next := some map })

/-- DISPARITY_JOB_DONE. -/
def Chip.dispDone (c : Chip) : Chip :=
  match c.sd.eng.run with
  | none => c
  | some j =>
    let e := c.sd.eng
    let map := c.sd.next
    let c := c.updSd (fun m => { m with eng := { m.eng with run := none, out := [] }, next := none })
    let ctx := if j.stale then none else (c.str.stream j.stream).map (·.ctx)
    let (c, ok) := c.engineWrite .disparity ctx e.at_ e.out
    if !ok then c else
    let c := if j.stale then c else c.updSd (fun m => { m with
      maps := m.maps.filter (fun x => x.left != j.stream || decide (j.frame.closeIdx < x.closeIdx + 4)) ++
        map.toList.map (fun x => { x with at_ := c.clk.dev }) })
    c.deviceSignal 3 (512 + j.stream)

end Sys2Proof.Machine
end

