-- ==== Sys2Proof/Machine/Ingest.lean ====
section
/-! DEFINITION. The Quay (03_quay_ingest.md) and the MACsec key agreement (R451): links, the checks of a received frame, network time,
frame assembly and closing, the evidence ring. -/

namespace Sys2Proof.Machine

/-! ### Ports and links (R64, R65, R68, R94, R95) -/

/-- The Quay receives: the device is awake, or a watch cycle runs (R484, R488). -/
def Chip.receiving (c : Chip) : Bool := !c.por && (c.lh.st == .awake || c.lh.st == .watchCycle)

/-- The stream entries in force at the Quay: the active streams, or in a watch cycle the watch stream alone. -/
def Chip.ingesting (c : Chip) : List StreamDecl :=
  if c.lh.st == .watchCycle then c.lh.watchStream.toList else c.str.active

/-- A port's domain is on (R479, R488). -/
def Chip.portOn (c : Chip) (p : Nat) : Bool :=
  decide (p < c.id.grade.ports) && !(c.port p).down &&
    (if c.lh.st == .watchCycle then c.lh.watchStream.any (fun d => d.port == p) else c.awake && !c.pm.off.toNat.testBit (66 + p))

/-- A port's address (R550). -/
def Chip.portMac (c : Chip) (p : Nat) : Mac := c.id.baseMac + BitVec.ofNat 48 p

/-- A port holds a live transmit association and at least one live receive association. -/
def Port.secured (t : Port) : Bool := t.tx.isSome && !t.rx.isEmpty

/-- QY_PORT_STATUS[p] (R96). -/
def Chip.portStatus (c : Chip) (p : Nat) : Word :=
  let t := c.port p
  BitVec.ofNat 32 (t.linkUps * 256 + b2n (c.qy.slave == some p) * 4 + b2n t.secured * 2 + b2n t.link)

/-- QY_TIME_STATUS (R94). -/
def Chip.timeStatus (c : Chip) : Word :=
  BitVec.ofNat 32 (c.qy.slave.getD 0xF * 256 + (match c.qy.tst with | .free => 0 | .sync => 1 | .holdover => 2))

/-- A link change raises the port's source (R374). -/
def Chip.linkChange (p : Nat) (c : Chip) : Chip := c.raise (790 + p) (statusDetail (c.portStatus p))

/-- LINK_UP can occur: the partner holds the opposite role (R64, R65). -/
def Chip.canLink (c : Chip) (p : Nat) (partnerMaster : Bool) : Bool :=
  c.receiving && c.portOn p && !(c.port p).link && (c.port p).role != partnerMaster

/-- LINK_UP. -/
def Chip.linkUp (p : Nat) (c : Chip) : Chip :=
  (c.updPort p (fun t => { t with link := true, linkUps := min 255 (t.linkUps + 1) })).linkChange p

/-! ### Network time (R72 to R75) -/

/-- QY_TIME_STATUS.STATE changes to a state, which raises source 789 (R374). -/
def Chip.setTime (s : TimeState) (c : Chip) : Chip :=
  if c.qy.tst == s then c else
  let c := c.updQy (fun q => { q with tst := s })
  c.raise 789 (statusDetail c.timeStatus)

/-- The Sync interval that a message advertises, in ns (R74). -/
def syncInterval (log : Int) : Nat :=
  let k := clampInt (-128) 127 log
  if 0 ≤ k then 1000000000 * 2 ^ k.toNat else 1000000000 / 2 ^ (-k).toNat

/-- The gPTP domain of the device (R72). -/
def gptpDomain : Nat := 0

/-- The priority1 that the device advertises: it never becomes grandmaster (R72; log 127). -/
def gptpPriority1 : Nat := 255

/-- A Sync within ±1 µs sets the rate of device time to the one measured since the Sync before it that was not discarded (R75; log 126). -/
def Chip.setRate (gm : Nat) (c : Chip) : Chip :=
  match c.qy.lastGm with
  | some (g, at_) =>
    if g < gm && at_ < c.clk.ref then c.updClk (fun k => { k with rate := { num := gm - g, den := c.clk.ref - at_ } }) else c
  | none => c

/-- A Sync that is not discarded starts the next measurement of the rate. -/
def Chip.noteSync (gm : Nat) (c : Chip) : Chip := c.updQy (fun q => { q with lastGm := some (gm, c.clk.ref) })

/-- Device time is stepped to the grandmaster's time (R75, R289); its rate stays. -/
def Chip.stepTime (gm : Nat) (c : Chip) : Chip :=
  let c := (c.updClk (fun k => { k with dev := gm })).noteSync gm
  let c := c.updQy (fun q => { q with good := 0, outRun := 0, steps := satInc q.steps })
  let c := c.setTime .free
  if c.awake then c.realign else c

/-- A Sync of the selected grandmaster is measured against device time (R75). -/
def Chip.sync (gm : Nat) (log : Int) (c : Chip) : Chip :=
  let off : Int := (c.clk.dev : Int) - gm
  let c := if off.natAbs ≤ 1000 then (c.setRate gm).noteSync gm else c
  let c := c.updQy (fun q => { q with
    interval := syncInterval log
    lastSync := c.clk.ref
    offset := BitVec.ofInt 32 (clampInt (-(2 ^ 31)) (2 ^ 31 - 1) off) })
  if off.natAbs ≤ 1000 then
    let c := c.updQy (fun q => { q with outRun := 0 })
    match c.qy.tst with
    | .free =>
      let c := c.updQy (fun q => { q with good := q.good + 1 })
      if 8 ≤ c.qy.good then c.setTime .sync else c
    | .sync => c
    | .holdover => c.setTime .sync
  else if c.qy.tst == .sync && decide (c.qy.outRun < 2) then
    c.updQy (fun q => { q with outRun := q.outRun + 1, outliers := satInc q.outliers })
  else c.stepTime gm

/-- SYNC_LOSS_HOLDOVER is due: three Sync intervals with no Sync in SYNC (R74). -/
def Chip.holdoverDue (c : Chip) : Bool :=
  c.receiving && c.qy.tst == .sync && decide (c.qy.lastSync + 3 * c.qy.interval ≤ c.clk.ref)

/-- SYNC_LOSS_HOLDOVER. -/
def Chip.holdover (c : Chip) : Chip := c.setTime .holdover

/-- Best-master selection chooses a port, or none (R94); the rate is measured afresh over the Syncs of another port. -/
def Chip.selectMaster (p : Option Nat) (c : Chip) : Chip :=
  c.updQy (fun q => { q with slave := p, lastGm := if q.slave == p then q.lastGm else none })

/-! ### A received frame (R66, R67, R69, R71) -/

/-- Who handles a frame (R67). -/
inductive Handler where
  | video | time | eapol | qcp | pwp
  deriving DecidableEq, Repr

/-- The handler of a frame by its EtherType and destination, none where R67 drops it. -/
def Chip.classify (c : Chip) (rx : RxInfo) : Option Handler :=
  let own := rx.dst == c.portMac rx.port
  if rx.etype = 0x22F0 then some .video
  else if rx.etype = 0x88F7 then (if rx.dst = 0x0180C200000E then some .time else none)
  else if rx.etype = 0x888E then (if rx.dst = 0x0180C2000003 || own then some .eapol else none)
  else if rx.etype.toNat = c.pl.qcpEtype.toNat % 65536 then (if own then some .qcp else none)
  else if rx.etype.toNat = c.pl.pwpEtype.toNat % 65536 then (if own then some .pwp else none)
  else none

/-- A frame whose size, tags or FCS R66 does not accept. -/
def malformed (rx : RxInfo) : Bool := decide (9216 < rx.size) || decide (2 ≤ rx.tags.length) || !rx.fcsOk

/-- The live receive association of a protected frame (R69). -/
def Port.assoc (t : Port) (s : Sys2Proof.Sec) : Option RxAssoc :=
  match s with
  | .plain => none
  | .tagged sci an _ _ => t.rx.find? (fun a => a.sci == sci && a.an == an)

/-- A packet number lies inside an association's replay window (R71). -/
def Port.inWindow (t : Port) (a : RxAssoc) (pn : Nat) : Bool := decide (a.high < pn + t.replay.toNat % 256 ∨ a.high < pn)

/-- A frame passes MACsec: its association is live, its check value right, its packet number inside the window (R69, R71). -/
def Port.admits (t : Port) (s : Sys2Proof.Sec) : Bool :=
  match s with
  | .plain => false
  | .tagged _ _ pn ok => (t.assoc s).any (fun a => ok && t.inWindow a pn)

/-- A frame of a live association outside the window, which every frame is dropped for, EAPOL included (R71). -/
def Port.replayed (t : Port) (s : Sys2Proof.Sec) : Bool :=
  match s with
  | .plain => false
  | .tagged _ _ pn _ => (t.assoc s).any (fun a => !t.inWindow a pn)

/-- The highest packet number of a frame's association rises to the frame's, once its integrity check has passed. -/
def Port.received (t : Port) (s : Sys2Proof.Sec) : Port :=
  match s with
  | .plain => t
  | .tagged sci an pn ok =>
    if ok then { t with rx := t.rx.map (fun a => if a.sci == sci && a.an == an then { a with high := max a.high pn } else a) } else t

/-- Count a format drop of a port. -/
def Chip.dropFmt (p : Nat) (c : Chip) : Chip := (c.updPort p (fun t => { t with dropFmt := satInc t.dropFmt })).qyErr 0

/-- Count a MACsec drop of a port. -/
def Chip.dropSec (p : Nat) (c : Chip) : Chip := (c.updPort p (fun t => { t with dropSec := satInc t.dropSec })).qyErr 5

/-- Count a frame that found no room in the receive buffer (R88). -/
def Chip.dropOvf (p : Nat) (c : Chip) : Chip := (c.updPort p (fun t => { t with dropOvf := satInc t.dropOvf })).qyErr 4

/-- The port of a frame has its link. -/
def Chip.hears (c : Chip) (rx : RxInfo) : Bool := c.receiving && c.portOn rx.port && (c.port rx.port).link

/-- The checks of a received frame: dropped and counted, or handed to its handler (R66, R67, R69, R71, R93). -/
def Chip.ingress (rx : RxInfo) (c : Chip) : Chip × Option Handler :=
  let p := rx.port
  if !c.hears rx then (c, none) else
  let c := c.updPort p (fun t => { t with fill := rx.fill })
  if malformed rx then (c.dropFmt p, none)
  else if (rx.etype != 0x888E && !(c.port p).admits rx.sec) || (c.port p).replayed rx.sec then (c.dropSec p, none)
  else
    let c := c.updPort p (fun t => t.received rx.sec)
    match c.classify rx with
    | none => (c.dropFmt p, none)
    | some h => (c.updPort p (fun t => { t with rxOk := satInc t.rxOk }), some h)

/-- A frame for a handler: dropped, or processed by it; a frame that R67 gives to another handler is not this command's. -/
def Chip.handle (h : Handler) (rx : RxInfo) (act : Chip → Chip) (c : Chip) : Chip :=
  match c.ingress rx with
  | (c', none) => c'
  | (c', some k) => if k == h then act c' else c

/-- RX_FRAME_DROP: the drop that the checks give, or the overflow of the receive buffer, which strikes video frames only (R88). -/
def Chip.rxDrop (rx : RxInfo) (overflow : Bool) (c : Chip) : Chip :=
  match c.ingress rx with
  | (c', none) => c'
  | (_, some .video) =>
    if overflow then (c.updPort rx.port (fun t => { t.received rx.sec with fill := rx.fill })).dropOvf rx.port else c
  | (_, some _) => c

/-- SYNC_RECEIVED: a Sync of gPTP domain 0 on the port that best-master selection has chosen; no other gives time (R72, R94). -/
def Chip.syncFrame (m : SyncMsg) (c : Chip) : Chip :=
  c.handle .time m.rx (fun c =>
    if m.domain == gptpDomain && c.qy.slave == some m.rx.port then c.sync m.gmTime m.logInterval else c)

/-! ### MACsec key agreement (R451) -/

/-- The MKA firmware runs: the boot ROM's after a failed boot, the firmware's, or that of a watch cycle. -/
def Chip.mkaRuns (c : Chip) : Bool := c.receiving && (c.hm.stage != .rom || c.lh.st == .watchCycle)

/-- Install a distributed key: the transmit association, and the receive associations of at most eight channels. -/
def Port.install (o : Sys2Proof.SakOffer) (t : Port) : Port :=
  let an := o.an % 4
  let rx := o.peers.foldl (fun (l : List RxAssoc) sci =>
    let l := l.filter (fun a => a.sci != sci || a.an != an)
    if l.any (fun a => a.sci == sci) || decide ((l.map (·.sci)).eraseDups.length < 8) then l ++ [⟨sci, an, 0⟩] else l) t.rx
  { t with rx := rx, tx := some an, sakAn := an }

/-- In a watch cycle, the moment at which the watch stream's port is secured (R491). -/
def Chip.noteSecured (p : Nat) (c : Chip) : Chip :=
  if c.lh.st == .watchCycle && c.lh.securedAt.isNone && (c.port p).secured then
    c.updLh (fun l => { l with securedAt := some c.clk.lh })
  else c

/-- MKA_FRAME: a partner that proves a live CAK is heard; the key it distributes is installed, or refused for another suite. -/
def Chip.mkaFrame (m : MkaFrame) (c : Chip) : Chip :=
  c.handle .eapol m.rx (fun c =>
    let p := m.rx.port
    match c.hm.cak.toList.findIdx? (fun k => k.any (fun k => k.name == m.ckn)) with
    | none => c
    | some slot =>
      if !m.icvOk then c else
      let c := c.updPort p (fun t => { t with mkaAt := some c.clk.ref, cakSlot := slot })
      match m.sak with
      | none => c
      | some o => if o.xpn256 then (c.updPort p (Port.install o)).noteSecured p else c.hmErr 3)

/-- The port's secure associations are deleted. -/
def Port.unsecure (t : Port) : Port := { t with rx := [], tx := none }

/-- MKA_LIFE_EXPIRY is due: 6 s without a partner's hello. -/
def Chip.mkaDead (c : Chip) (p : Nat) : Bool :=
  c.mkaRuns && (c.port p).mkaAt.any (fun t => decide (t + 6000000000 ≤ c.clk.ref))

/-- MKA_LIFE_EXPIRY: the partner is lost. -/
def Chip.mkaLost (p : Nat) (c : Chip) : Chip := (c.updPort p (fun t => { t.unsecure with mkaAt := none })).hmErr 3

/-- MKA_HELLO_TIME is due: 2 s since the port's last MKPDU. -/
def Chip.mkaHelloDue (c : Chip) (p : Nat) : Bool :=
  c.mkaRuns && c.portOn p && (c.port p).link && (c.port p).mkaSent.all (fun t => decide (t + 2000000000 ≤ c.clk.ref))

/-- An MKPDU (IEEE 802.1X-2020) for a CAK: the EAPOL header, the Basic Parameter Set with key server priority 255 (R451), not key server,
MACsec desired, and an open ICV (log 11). -/
def Chip.mkpdu (p : Nat) (k : Cak) (icv : Bytes) (c : Chip) : Bytes :=
  let t := c.port p
  let basic := [3, 255, 0x60, 44] ++ toBe 6 (c.portMac p).toNat ++ [0, 1] ++ t.mi ++ toBe 4 t.mn ++ [0x00, 0x80, 0xC2, 0x01] ++
    toBe 16 k.name.toNat
  [3, 5] ++ toBe 2 (basic.length + icv.length) ++ basic ++ icv

/-- n bytes that the spec leaves open (log 7). -/
def Chip.openRun : Nat → Chip → Bytes × Chip
  | 0, c => ([], c)
  | n + 1, c =>
    let (w, c) := c.open_
    let (bs, c) := Chip.openRun n c
    (BitVec.ofNat 8 w.toNat :: bs, c)

/-- MKA_HELLO_TIME: the port's MKPDU for each live CAK slot goes out, with the next message number. -/
def Chip.mkaHello (p : Nat) (c : Chip) : Chip :=
  let (mi, c) := if (c.port p).mi.isEmpty then c.openRun 12 else ((c.port p).mi, c)
  let c := c.updPort p (fun t => { t with mkaSent := some c.clk.ref, mi := mi })
  c.hm.cak.toList.foldl (fun (c : Chip) k => match k with
    | some k =>
      let c := c.updPort p (fun t => { t with mn := t.mn + 1 })
      let (icv, c) := c.openRun 16
      c.send { port := p, dst := 0x0180C2000003, tag := none, etype := 0x888E, bytes := c.mkpdu p k icv }
    | none => c) c

/-! ### Frames (R77, R79 to R87) -/

/-- Where line unit k lies in a frame: offsets and lengths of its pieces (R77, R80). -/
def StreamDecl.spans (d : StreamDecl) (k : Nat) : List (Nat × Nat) :=
  if d.fmt = 1 then [(k * d.w, d.w)]
  else [(2 * k * d.w, 2 * d.w), (d.w * d.h + k * (d.w / 2), d.w / 2), (d.w * d.h + d.w * d.h / 4 + k * (d.w / 2), d.w / 2)]

/-- Bytes of a line unit. -/
def StreamDecl.unitBytes (d : StreamDecl) : Nat := if d.fmt = 1 then d.w else 3 * d.w

/-- The banks and the offset at which a frame slot lies; in a watch cycle frames go to 1 MiB of the watch bank (R488). -/
def Chip.slotPlace (c : Chip) (d : StreamDecl) (slot : Nat) : List Nat × Nat :=
  if c.lh.st == .watchCycle then ([c.lh.watchCfg.toNat / 2 ^ 16 % 32], 2 ^ 20) else (c.streamBanks d, c.frameSlot d slot)

/-- Write a line unit into a slot. -/
def Chip.writeUnit (d : StreamDecl) (slot k : Nat) (bs : Bytes) (c : Chip) : Chip :=
  let (banks, at_) := c.slotPlace d slot
  ((d.spans k).foldl (fun (r : Chip × Bytes) s => (r.1.basinWrite banks (at_ + 4096 + s.1) (r.2.take s.2), r.2.drop s.2)) (c, bs)).1

/-- Read a line unit from a slot. -/
def Chip.readUnit (c : Chip) (d : StreamDecl) (slot k : Nat) : Bytes :=
  let (banks, at_) := c.slotPlace d slot
  (d.spans k).flatMap (fun s => c.basinRead banks (at_ + 4096 + s.1) s.2)

/-- The bytes of a loss map (R84). -/
def lossBytes (units : Nat) (lost : List Nat) : Bytes :=
  (List.range (ceilDiv units 8)).map (fun i =>
    BitVec.ofNat 8 ((List.range 8).foldl (fun a b => a + (if lost.contains (8 * i + b) then 2 ^ b else 0)) 0))

/-- QY_STREAM_STATUS[s] (R98). -/
def Chip.streamStatus (c : Chip) (s : Nat) : Word :=
  let q := c.stream s
  BitVec.ofNat 32 (b2n q.cold * 16 + q.slot * 4 + b2n q.cur.isSome * 2 + b2n (c.ingesting.any (fun d => d.idx == s)))

/-- A stream event (sources 0 to 255) where a bit of QY_STREAM_CTL lets it raise (R97, R381). -/
def Chip.streamEvent (s bit lost : Nat) (c : Chip) : Chip :=
  let q := c.stream s
  if q.ctl.toNat.testBit bit then c.raise s (toLe 8 q.frame ++ toLe 4 lost ++ toLe 4 (c.streamStatus s).toNat) else c

/-- round(d / P) with ties away from zero, at least 1 (R87). -/
def StreamDecl.gapCount (d : StreamDecl) (ns : Nat) : Nat := max 1 ((2 * ns * d.fps + 1000000000) / 2000000000)

/-! ### The evidence ring (R90, R91) -/

/-- Entries of a stream's evidence ring. -/
def StreamDecl.evidEntries (d : StreamDecl) : Nat := max 1 (d.span * d.fps)

/-- Device address of an evidence entry. -/
def Chip.evidAt (c : Chip) (d : StreamDecl) (i : Nat) : Nat := (c.str.regionAt d.evid).1 + i * d.slotBytes

/-- The stream keeps evidence. -/
def StreamDecl.hasEvid (d : StreamDecl) : Bool := d.span != 0 && d.evid != 65535

/-- The frame of a stream needs its slot for no evidence copy. -/
def Chip.evidRelease (s : Nat) (f : ClosedFrame) (c : Chip) : Chip :=
  c.updStream s (fun q => { q with frames := q.frames.map (fun g => if g.same f then { g with evidDone := true } else g) })

/-- An evidence entry that is written over is gone from its ring (R265). -/
def Chip.noteEvidGone (d : StreamDecl) (i : Nat) (c : Chip) : Chip :=
  let h := c.dramRead (c.evidAt d i) 0x40
  if fieldAt h 0 8 = ones64 || fieldAt h 0x1C 2 ≠ d.w then c
  else c.updStream d.idx (fun q => { q with evGone := some (match q.evGone with | some t => min t (fieldAt h 8 8) | none => fieldAt h 8 8) })

/-- A frame's copy to the evidence ring starts: it takes the next entry, whose counter field is written all ones (R91). -/
def Chip.evidStart (d : StreamDecl) (f : ClosedFrame) (c : Chip) : Chip :=
  if !d.hasEvid then c else
  let i := (c.stream d.idx).evNext
  let (c, ok) := (c.noteEvidGone d i).engineWrite .quay (some d.ctx) (c.evidAt d i) (List.replicate 8 0xFF)
  if ok then (c.updQy (fun q => { q with copies := q.copies ++ [{ stream := d.idx, frame := f, entry := i }] })).updStream d.idx
    (fun q => { q with evNext := (i + 1) % d.evidEntries })
  else c.evidRelease d.idx f

/-- The header of an evidence entry with its loss map (R90). -/
def evidHeader (d : StreamDecl) (f : ClosedFrame) (loss : Bytes) : Bytes :=
  toLe 8 f.counter ++ toLe 8 f.capture ++ toLe 8 f.close ++ toLe 1 d.idx ++ toLe 1 d.fmt ++ toLe 1 (b2n (f.lost != 0) + 2 * b2n f.first) ++
    zeros 1 ++ toLe 2 d.w ++ toLe 2 d.h ++ toLe 2 d.units ++ toLe 2 f.lost ++ zeros 28 ++ loss

/-- An evidence copy has ended. -/
def Chip.evidEnd (k : EvidCopy) (c : Chip) : Chip :=
  (c.updQy (fun q => { q with copies := q.copies.filter (fun x => x != k) })).evidRelease k.stream k.frame

/-- The stream's oldest evidence copy in progress. -/
def Chip.evidCopy (c : Chip) (s : Nat) : Option EvidCopy := c.qy.copies.find? (fun x => x.stream == s)

/-- The bytes of an evidence entry (R90). -/
def Chip.evidEntry (c : Chip) (d : StreamDecl) (f : ClosedFrame) : Bytes :=
  let banks := c.streamBanks d
  let at_ := c.frameSlot d f.slot
  let head := evidHeader d f (c.basinRead banks at_ (ceilDiv d.units 8))
  head ++ zeros (4096 - head.length) ++ c.basinRead banks (at_ + 4096) d.frameBytes

/-- EVIDENCE_COPY_DONE: the frame bytes, the header and last the counter are written and QY_EVID_HEAD names the entry; after a read
that failed and two more that did, the copy ends with no head and R333 gives the rest. -/
def Chip.evidDone (s : Nat) (fails : List Sys2Proof.JobErr) (c : Chip) : Chip :=
  match c.evidCopy s, c.str.stream s with
  | some k, some d =>
    match Chip.attempts .quay d.ctx 0 fails c with
    | (c, some a) =>
      let c := c.evidEnd k
      match a with | some a => c.basinOutcome a | none => c
    | (c, none) =>
      let (c, ok) := c.engineWrite .quay (some d.ctx) (c.evidAt d k.entry) (c.evidEntry d k.frame)
      let c := c.evidEnd k
      if ok then c.updStream s (fun q => { q with evidHead := BitVec.ofNat 32 k.entry }) else c
  | some k, none => c.evidEnd k
  | none, _ => c

/-! ### Closing a frame (R81, R83 to R87) -/

/-- A frame of a stream closes. In a watch cycle a frame with no filled unit waits for its comparison, any other is passed over. Several
frames found skipped at one close raise the stream event once (log 125). -/
def Chip.closeFrame (d : StreamDecl) (c : Chip) : Chip :=
  let s := d.idx
  let q := c.stream s
  match q.cur with
  | none => c
  | some o =>
    let lost := (List.range d.units).filter (fun k => !o.got.contains k)
    let prev := q.frames.getLast?
    let c := lost.foldl (fun (c : Chip) k =>
      c.writeUnit d o.slot k (match prev with | some p => c.readUnit d p.slot k | none => List.replicate d.unitBytes 0x80)) c
    let loss := lossBytes d.units lost
    let (banks, at_) := c.slotPlace d o.slot
    let c := c.basinWrite banks at_ (loss ++ zeros (4096 - loss.length))
    let last := q.hist.getLast?
    let m := match last with | some r => d.gapCount (o.capture - r.capture) | none => 1
    let counter := match last with | some r => r.counter + m | none => 0
    let r : FrameRec := { counter := counter, capture := o.capture, close := c.clk.dev }
    let f : ClosedFrame := { counter := counter, capture := o.capture, close := c.clk.dev, closeIdx := q.nclosed, slot := o.slot,
                             lost := lost.length, first := last.isNone, evidDone := !d.hasEvid }
    let c := c.updStream s (fun q => { q with
      cur := none
      cold := false
      nclosed := q.nclosed + 1
      frame := counter
      capt := o.capture
      close := c.clk.dev
      skipped := satAdd q.skipped (m - 1)
      lossUnits := satAdd q.lossUnits lost.length
      frames := q.frames ++ [f]
      hist := q.hist ++ [r] })
    let c :=
      if c.lh.st == .watchCycle then
        if lost.isEmpty then c.updLh (fun l => { l with frameReady := true }) else c
      else
        ((((c.deviceSignal 1 s).motionEnqueue s f).pairClose d f).fgClose d r last).evidStart d f
    let c := if lost.isEmpty then c else c.streamEvent s 1 lost.length
    if m = 1 then c else c.streamEvent s 2 lost.length

/-- A port's link goes down (R68): frames being assembled from it close, its associations are deleted, and the time port is chosen
afresh (R94). -/
def Chip.linkDrop (p : Nat) (c : Chip) : Chip :=
  if !(c.port p).link then c else
  let c := (c.ingesting.filter (fun d => d.port == p)).foldl (fun (c : Chip) d => c.closeFrame d) c
  let c := c.updPort p (fun t => { t.unsecure with link := false, mkaAt := none, mkaSent := none })
  let c := if c.qy.slave == some p then c.selectMaster none else c
  c.linkChange p

/-- A write of QY_PORT_CTL[p]: a changed ROLE restarts the link, DOWN holds it down (R95). -/
def Chip.portCtl (p : Nat) (v : Word) (c : Chip) : Chip :=
  let t := c.port p
  let role := v.toNat.testBit 0
  let down := v.toNat.testBit 1
  let c := if role != t.role || down then c.linkDrop p else c
  c.updPort p (fun t => { t with role := role, down := down })

/-! ### Packets (R76, R78, R80 to R82) -/

/-- A packet lies inside the subset of R76 for a stream. -/
def packetFits (k : RvfPacket) (d : StreamDecl) : Bool :=
  let per := if d.fmt = 1 then 1 else 2
  k.version == 0 && k.sv && k.tv && k.progressive && k.depth == 8 && k.format == d.fmt && k.width == d.w && k.height == d.h &&
    k.firstLine % per == 0 && k.lines % per == 0 && decide (1 ≤ k.lines / per) && decide (k.lines / per ≤ 64) &&
    decide (k.firstLine + k.lines ≤ d.h) && k.payload.length == k.lines / per * d.unitBytes

/-- The 64-bit capture time nearest to a device time (R86); of two equally near the lower (log 121). -/
def extendCapture (ts : Word) (now : Nat) : Nat :=
  let base := now / 2 ^ 32 * 2 ^ 32 + ts.toNat
  let cand := (if 2 ^ 32 ≤ base then [base - 2 ^ 32] else []) ++ [base, base + 2 ^ 32]
  let dist := fun x => if x ≤ now then now - x else x - now
  cand.foldl (fun b x => if dist x < dist b then x else b) (cand.headD base)

/-- The capture time of a packet's frame: extended at the arrival of the frame's first packet, so packets of the frame last opened take its
own (R86; log 121). -/
def Chip.captureOf (c : Chip) (q : QStream) (ts : Word) : Nat :=
  match q.opened.filter (fun o => o % 2 ^ 32 == ts.toNat && (q.cur.isSome || decide (c.clk.ref < q.openedAt + 2 ^ 31))) with
  | some o => o
  | none => extendCapture ts c.clk.dev

/-- The slot that the next frame goes into: one that holds no frame, else the one that holds the oldest (R80), with that frame. Slots that are
still read for a frame of before the last cold start hold one, which is older (R101). -/
def QStream.nextSlot (left : List ClosedFrame) (q : QStream) : Nat × Option ClosedFrame :=
  let held := left ++ q.frames
  match (List.range 3).find? (fun k => !held.any (fun f => f.slot == k)) with
  | some k => (k, none)
  | none => match held with | f :: _ => (f.slot, some f) | [] => (0, none)

/-- Line units of a packet go into the open frame; the last missing one closes it (R81, R82). -/
def Chip.addUnits (d : StreamDecl) (k : RvfPacket) (c : Chip) : Chip :=
  let s := d.idx
  match (c.stream s).cur with
  | none => c
  | some o =>
    let per := if d.fmt = 1 then 1 else 2
    let k0 := k.firstLine / per
    let n := k.lines / per
    let fresh := (List.range n).filter (fun i => !o.got.contains (k0 + i))
    let c := fresh.foldl (fun (c : Chip) i => c.writeUnit d o.slot (k0 + i) (slice k.payload (i * d.unitBytes) d.unitBytes)) c
    let got := o.got ++ fresh.map (fun i => k0 + i)
    let final := if k0 + n = d.units && o.finalAt.isNone then some c.clk.ref else o.finalAt
    let c := c.updStream s (fun q => { q with cur := some { o with got := got, finalAt := final } })
    if got.length = d.units then c.closeFrame d else c

/-- A packet of a new frame: the open frame closes, and the new one opens in its slot or finds it unreleased (R80, R81). -/
def Chip.openFrame (d : StreamDecl) (capture : Nat) (k : RvfPacket) (c : Chip) : Chip :=
  let s := d.idx
  let c := c.closeFrame d
  let left := (c.stream s).left.filter (c.jobReads s)
  let c := c.updStream s (fun q => { q with opened := some capture, openedAt := c.clk.ref, left := left })
  let (slot, old) := (c.stream s).nextSlot left
  if old.any (fun f => left.any f.same || !c.released d f) && c.lh.st != .watchCycle then
    ((c.updStream s (fun q => { q with busy := some capture, slotBusy := satInc q.slotBusy })).qyErr 3).streamEvent s 2 0
  else
    let c := c.updStream s (fun q => { q with
      slot := slot
      busy := none
      frames := q.frames.filter (fun f => f.slot != slot)
      cur := some { capture := capture, slot := slot, got := [], finalAt := none } })
    c.addUnits d k

/-- RVF_PACKET. -/
def Chip.rvf (k : RvfPacket) (c : Chip) : Chip :=
  c.handle .video k.rx (fun c =>
    let p := k.rx.port
    match c.ingesting.find? (fun d => d.sid == k.streamId) with
    | none => c.dropFmt p
    | some d =>
      let s := d.idx
      if !packetFits k d then (c.dropFmt p).updStream s (fun q => { q with fmtErr := satInc q.fmtErr })
      else if d.port != p then (c.updStream s (fun q => { q with wrongPort := satInc q.wrongPort })).qyErr 1
      else
        let q := c.stream s
        if q.ctl.toNat.testBit 0 then c else
        let cap := c.captureOf q k.timestamp
        if c.lh.st == .watchCycle && c.lh.frameReady then c
        else if q.cur.any (fun o => o.capture == cap) then c.addUnits d k
        else if q.busy == some cap then c
        else if q.opened.any (fun o => decide (cap ≤ o)) then
          (c.updStream s (fun q => { q with latePkt := satInc q.latePkt })).qyErr 2
        else c.openFrame d cap k)

/-- GRACE_EXPIRY is due (R81 b). -/
def Chip.graceDue (c : Chip) (s : Nat) : Bool :=
  let q := c.stream s
  c.receiving && q.cur.any (fun o => o.finalAt.any (fun t => decide (t + clampNat 0 10000 (q.grace.toNat % 2 ^ 14) * 1000 ≤ c.clk.ref)))

/-- INPUT_PERIOD_EXPIRY is due (R81 d). -/
def Chip.periodDue (c : Chip) (s : Nat) : Bool :=
  c.receiving && c.ingesting.any (fun d => d.idx == s &&
    (c.stream s).cur.any (fun o => decide (o.capture * d.fps + 1000000000 ≤ c.clk.dev * d.fps)))

/-- The open frame of a stream closes. -/
def Chip.closeStream (s : Nat) (c : Chip) : Chip :=
  match c.ingesting.find? (fun d => d.idx == s) with
  | some d => c.closeFrame d
  | none => c

end Sys2Proof.Machine
end

