-- ==== Sys2Proof/Machine/Peer.lean ====
section
/-! DEFINITION. The peer link engine (R425 to R431, R434): heartbeats, published windows, requests and their answers. -/

namespace Sys2Proof.Machine

/-- An enabled entry of the peer table. -/
def Chip.peerEnabled (c : Chip) (i : Nat) : Bool := (c.peer i).ctl.toNat.testBit 31

/-- The lowest enabled entry that names a station. -/
def Chip.peerOf (c : Chip) (m : Mac) : Option Nat := (List.range 255).find? (fun i => c.peerEnabled i && (c.peer i).mac == m)

/-- PL_REQ_TIMEOUT in nanoseconds. -/
def Chip.reqTimeoutNs (c : Chip) : Nat := clampNat 100 100000 (c.pl.reqTimeout.toNat % 2 ^ 17) * 1000

/-! ### Heartbeats (R425) -/

/-- HEARTBEAT_TIMER is due: device time is a multiple of 10 ms, and the timer has not yet ticked at it. -/
def Chip.heartbeatDue (c : Chip) : Bool := c.awake && c.clk.dev % 10000000 == 0 && c.pl.beatAt != some c.clk.ref

/-- One interval of a peer: a heartbeat goes to an enabled one; an interval without one from it counts, and the third departs it. -/
def Chip.heartbeat (i : Nat) (c : Chip) : Chip :=
  let p := c.peer i
  let c := if c.peerEnabled i then
      c.sendPwp i (pwpBytes 0 0 0 (BitVec.ofNat 32 c.tt.cycles) c.timeStatus 0 0 [])
    else c
  if !c.peerEnabled i && !p.present then c
  else if p.heard then c.updPeer i (fun p => { p with heard := false })
  else
    let c := c.updPeer i (fun p => { p with missed := min 3 (p.missed + 1) })
    if p.present && decide (3 ≤ (c.peer i).missed) then (c.updPeer i (fun p => { p with present := false })).plErr 2 else c

/-- HEARTBEAT_TIMER. -/
def Chip.heartbeats (c : Chip) : Chip :=
  (List.range 255).foldl (fun c i => c.heartbeat i) (c.updPl (fun p => { p with beatAt := some c.clk.ref }))

/-! ### Received frames (R426) -/

/-- Drop a PWP frame. -/
def Chip.dropPwp (c : Chip) : Chip := (c.updPl (fun p => { p with pwpDrops := satInc p.pwpDrops })).plErr 1

/-- A PWP frame of a type: dropped when its version, its type or its source is not accepted, else handled for its sender's entry. -/
def Chip.pwp (type : Nat) (f : PwpFrame) (act : Nat → Chip → Chip) (c : Chip) : Chip :=
  if f.version = 1 ∧ f.type.toNat ≤ 4 ∧ f.type.toNat ≠ type then c else
  c.handle .pwp f.rx (fun c =>
    if f.version ≠ 1 || decide (4 < f.type.toNat) then c.dropPwp else
    match c.peerOf f.rx.src with
    | none => c.dropPwp
    | some i => act i c)

/-- PWP_HEARTBEAT: the peer is present. -/
def Chip.pwpHeartbeat (f : PwpFrame) (c : Chip) : Chip :=
  c.pwp 0 f (fun i c => c.updPeer i (fun p => { p with present := true, heard := true, missed := 0 }))

/-! ### Serving a published window (R428) -/

/-- The device address of a read inside a window, or the status that refuses it. -/
def Chip.windowRead (c : Chip) (i : Nat) (f : PwpFrame) : Nat ⊕ Nat :=
  let w := vget {} c.pl.pub f.target.toNat
  let n := f.length.toNat
  if 256 ≤ f.target.toNat || !w.decl.toNat.testBit 31 then .inr 1
  else if !(c.peer i).ctl.toNat.testBit 16 then .inr 2
  else if n = 0 || decide (32768 < n) || decide (w.len.toNat < f.value.toNat + n) then .inr 1
  else
    match c.str.region (w.decl.toNat % 4096) with
    | none => .inr 1
    | some d =>
      if d.count * 2 ^ 20 < w.off.toNat + f.value.toNat + n then .inr 1
      else .inl (d.first * 2 ^ 20 + w.off.toNat + f.value.toNat)

/-- A read answered with a status and no data. -/
def Chip.refuseRead (i status : Nat) (f : PwpFrame) (c : Chip) : Chip := (c.sendPwp i (pwpBytes 2 status f.tag 0 0 0 0 [])).plErr 4

/-- PWP_READ: the checks, then the pieces in ascending offset. -/
def Chip.pwpRead (f : PwpFrame) (errs : List Sys2Proof.SectorErr) (c : Chip) : Chip :=
  c.pwp 1 f (fun i c =>
    match c.windowRead i f with
    | .inr s => c.refuseRead i s f
    | .inl a =>
      let n := f.length.toNat
      match c.refusal .host false a n with
      | some (cause, at_) => (c.recordViol .peer 255 cause at_ noStep).refuseRead i 4 f
      | none =>
        let here := errs.filter (fun e => decide (a / 512 * 512 ≤ e.addr) && decide (e.addr < a + n))
        let (c, fails) := here.foldl (fun (r : Chip × Bool) e =>
          if r.2 then r else r.1.sector .peer 255 noStep e) (c.touch false a n, false)
        if fails then
          match c.refusal .host false a n with
          | some (cause, at_) => (c.recordViol .peer 255 cause at_ noStep).refuseRead i 4 f
          | none => c.refuseRead i 4 f
        else
          let data := c.dramRead a n
          (List.range (ceilDiv n 8192)).foldl (fun (c : Chip) k =>
            let part := slice data (8192 * k) 8192
            c.sendPwp i (pwpBytes 2 0 f.tag 0 0 (BitVec.ofNat 32 (8192 * k)) (BitVec.ofNat 32 part.length) part)) c)

/-! ### Requests (R427, R429, R430) -/

/-- An outstanding request by tag. -/
def Chip.req? (c : Chip) (tag : Word) : Option PeerReq := c.pl.reqs.find? (fun r => r.tag == tag)

/-- A request is no longer outstanding, nor waits, and the next one takes its place. -/
def Chip.dropReq (id : Nat) (c : Chip) : Chip :=
  (c.updPl (fun p => { p with reqs := p.reqs.filter (fun r => r.id != id), waitReqs := p.waitReqs.filter (fun r => r.id != id) })).promote

/-- A request completes with an error: its context faults with code 0x09 (R429, R372), at the address of R549. -/
def Chip.failReq (r : PeerReq) (c : Chip) : Chip :=
  let addr := if r.isSignal then r.target.toNat % 65536 + r.peer * 65536 else opAt 6 (r.peer * 2 ^ 32 + r.value.toNat)
  ((c.dropReq r.id).reqFailed).fault r.array 9 (if r.isSignal then 12 else 10) r.ctx addr r.step

/-- The bytes of a request's pieces from an offset on, as far as they follow one another. -/
def gather (ps : List (Nat × Bytes)) : Nat → Nat → Bytes
  | 0, _ => []
  | fuel + 1, o =>
    match ps.find? (fun p => p.1 == o && !p.2.isEmpty) with
    | some p => p.2 ++ gather ps fuel (o + p.2.length)
    | none => []

/-- PWP_READ_DATA: the piece is kept; the last one, in time, completes the request and its bytes land. -/
def Chip.pwpReadData (f : PwpFrame) (c : Chip) : Chip :=
  c.pwp 2 f (fun i c =>
    match c.req? f.tag with
    | none => c
    | some r =>
      if r.isSignal || r.peer != i then c
      else if f.status ≠ 0 then c.failReq r
      else if f.data.length ≠ f.piece.toNat || decide (r.length < f.length.toNat + f.piece.toNat) then c
      else if r.sentAt + c.reqTimeoutNs < c.clk.ref then c
      else
        let ps := if r.pieces.any (fun p => p.1 == f.length.toNat) then r.pieces else r.pieces ++ [(f.length.toNat, f.data)]
        let data := gather ps (ps.length + 1) 0
        let r := { r with pieces := ps }
        if data.length < r.length then
          c.updPl (fun p => { p with reqs := p.reqs.map (fun x => if x.id == r.id then r else x) })
        else (((c.dropReq r.id).landChunk r data).copyDone r).schedule)

/-- PWP_SIGNAL: applied at most once per tag, and answered. -/
def Chip.pwpSignal (f : PwpFrame) (c : Chip) : Chip :=
  c.pwp 3 f (fun i c =>
    match (c.peer i).applied.find? (fun a => a.1 == f.tag) with
    | some a => c.sendPwp i (pwpBytes 4 a.2 f.tag 0 0 0 0 [])
    | none =>
      let (c, ok) := c.peerSignal f.target.toNat f.value
      if ok then
        let c := c.updPeer i (fun p => { p with applied := (p.applied ++ [(f.tag, 0)]).drop (p.applied.length + 1 - 64) })
        c.sendPwp i (pwpBytes 4 0 f.tag 0 0 0 0 [])
      else (c.sendPwp i (pwpBytes 4 3 f.tag 0 0 0 0 [])).plErr 4)

/-- PWP_SIGNAL_ACK. -/
def Chip.pwpSignalAck (f : PwpFrame) (c : Chip) : Chip :=
  c.pwp 4 f (fun i c =>
    match c.req? f.tag with
    | none => c
    | some r =>
      if !r.isSignal || r.peer != i || decide (r.sentAt + c.reqTimeoutNs < c.clk.ref) then c
      else if f.status ≠ 0 then c.failReq r
      else c.dropReq r.id)

/-- PEER_REQ_RESEND is due: half the timeout has passed. -/
def Chip.resendDue (c : Chip) (tag : Word) : Bool :=
  c.awake && (c.req? tag).any (fun r => !r.resent && decide (r.sentAt + c.reqTimeoutNs / 2 ≤ c.clk.ref))

/-- PEER_REQ_RESEND. -/
def Chip.resendReq (tag : Word) (c : Chip) : Chip :=
  match c.req? tag with
  | none => c
  | some r =>
    (c.updPl (fun p => { p with reqs := p.reqs.map (fun x => if x.tag == tag then { x with resent := true } else x) })).sendPwp r.peer r.frame

/-- PEER_REQ_TIMEOUT is due. -/
def Chip.reqLate (c : Chip) (tag : Word) : Bool :=
  c.awake && (c.req? tag).any (fun r => decide (r.sentAt + c.reqTimeoutNs ≤ c.clk.ref))

/-- PEER_REQ_TIMEOUT. -/
def Chip.reqTimedOut (tag : Word) (c : Chip) : Chip := match c.req? tag with | some r => c.failReq r | none => c

/-- A write of PL_PEER_CTL[i]: one that clears ENABLE fails the peer's requests at once (R434). -/
def Chip.peerCtl (i : Nat) (v : Word) (c : Chip) : Chip :=
  let was := c.peerEnabled i
  let c := c.updPeer i (fun p => { p with ctl := v &&& 0x80010007 })
  if was && !v.toNat.testBit 31 then
    ((c.pl.reqs ++ c.pl.waitReqs).filter (fun r => r.peer == i)).foldl (fun (c : Chip) r =>
      if (c.pl.reqs ++ c.pl.waitReqs).any (fun x => x.id == r.id) then c.failReq r else c) c
  else c

end Sys2Proof.Machine
end

