-- ==== Sys2Proof/Machine/MemCtl.lean ====
section
/-! DEFINITION. The memory controllers' own work: patrol scrubs (R335, R355), training and retraining (R341, R351), latency
tolerance and the low-power states of a channel (R353, R354). -/

namespace Sys2Proof.Machine

/-- A channel serves requests. -/
def Chip.chanOn (c : Chip) (n : Nat) : Bool :=
  c.awake && decide (n < c.id.grade.channels) && (c.chan n).trained && !(c.chan n).lost

/-! ### Patrol scrubs -/

/-- A Basin bank is powered (R335, R479). -/
def Chip.bankOn (c : Chip) (b : Nat) : Bool := c.awake && !c.pm.off.toNat.testBit (34 + b)

/-- What the Basin scrub found at a word (R335). -/
def Chip.scrubHit (h : Sys2Proof.ScrubHit) (c : Chip) : Chip :=
  if !c.bankOn (h.addr / 2 ^ 24) then c
  else if h.correctable then c.bsCorrected h.addr
  else
    let info := Requester.scrub.code * 2 ^ 24 + 255 * 2 ^ 16 + c.bankOwner (h.addr / 2 ^ 24) * 2 ^ 8 + (c.areaOf h.addr).1
    ((c.updBs (fun m => { m with errAddr := h.addr / 8 * 8, errInfo := BitVec.ofNat 32 info, errStep := noStep })).noteFailed h.addr).bsEvt 2

/-- BASIN_SCRUB. -/
def Chip.basinScrub (hits : List Sys2Proof.ScrubHit) (c : Chip) : Chip := hits.foldl (fun c h => c.scrubHit h) c

/-- A sector that the DRAM scrub meets: as any read of its entry where the entry is read there; another copy's corrections count. -/
def Chip.scrubSector (ch slot : Nat) (e : Sys2Proof.SectorErr) (c : Chip) : Chip :=
  match c.entry (e.addr / 2 ^ 20) with
  | none => c
  | some t =>
    if t.withdrawn then c
    else if (if t.plost then t.rch == ch && t.rslot == slot else t.pch == ch && t.pslot == slot) then (c.sector .scrub 255 noStep e).1
    else if t.repl && !t.rlost && t.rch == ch && t.rslot == slot then
      (if e.fails || decide (8 < e.symbols) then (c.uncorr ch slot e.addr).checkChannel ch else if e.symbols = 0 then c else c.mcCorrected ch)
    else c

/-- DRAM_SCRUB: the patrol reads the slot it has come to and goes on to the next (R355). -/
def Chip.dramScrub (ch slot : Nat) (errs : List Sys2Proof.SectorErr) (c : Chip) : Chip :=
  let c := errs.foldl (fun c e => c.scrubSector ch slot e) (c.wakeChan ch)
  c.updChan ch (fun h =>
    if h.scrubSlot + 1 < regionSlots then { h with scrubSlot := h.scrubSlot + 1 }
    else { h with scrubSlot := 0, scrubPasses := min 65535 (h.scrubPasses + 1) })

/-! ### Training (R341, R351) -/

/-- DQS_CHECK: a drift above 1/16 UI starts a retrain; three in a row that fail lose the channel. -/
def Chip.dqsCheck (ch drift64 : Nat) (ok : Bool) (c : Chip) : Chip :=
  if drift64 ≤ 4 then c else
  let c := (c.updChan ch (fun h => { h with
    retrains := satInc h.retrains
    retrainFails := if ok then 0 else h.retrainFails + 1 })).mcEvt 7
  if 3 ≤ (c.chan ch).retrainFails then c.loseChannel ch 3 else c

/-- MR4_POLL: the refresh-rate field read. -/
def Chip.mr4Poll (ch : Nat) (rate : BitVec 4) (c : Chip) : Chip := c.updChan ch (fun h => { h with refRate := rate })

/-- The training of a channel ends: at power-on (cause 1), or on leaving held self-refresh (cause 2), where it is a full retrain (R341) and
counts as one (R355; log 43); a channel lost before stays so. -/
def Chip.trainEnd (cause : Nat) (t : Sys2Proof.TrainResult) (c : Chip) : Chip :=
  if (c.chan t.channel).lost || decide (c.id.grade.channels ≤ t.channel) then c else
  let c := if cause = 2 then c.updChan t.channel (fun h => { h with retrains := satInc h.retrains }) else c
  if t.ok then c.updChan t.channel (fun h => { h with trained := true, power := .active, retrainFails := 0, idleSince := c.clk.ref })
  else (c.updChan t.channel (fun h => { h with power := .active })).loseChannel t.channel cause

/-- The training of every channel: one that no result names trains. -/
def Chip.trainAll (cause : Nat) (ts : List Sys2Proof.TrainResult) (c : Chip) : Chip :=
  (List.range c.id.grade.channels).foldl (fun (c : Chip) n =>
    c.trainEnd cause ((ts.find? (fun t => t.channel == n)).getD ⟨n, true⟩)) c

/-! ### Latency tolerance (R353) -/

/-- The lesser of two tolerances, none for no bound. -/
def minTol : Option Nat → Option Nat → Option Nat
  | none, b => b
  | a, none => a
  | some a, some b => some (min a b)

/-- Time to a partition's next tide entry in nanoseconds, none where it has none. -/
def Chip.nextEntryIn (c : Chip) (p : Nat) : Option Nat :=
  let mine := c.str.tide.filter (fun t => t.part == p)
  let now := c.clk.dev - c.tt.start
  let ahead := (c.str.tide.drop c.tt.next).find? (fun t => t.part == p)
  match ahead, mine with
  | some t, _ => some (t.offset * 10000 - now)
  | none, t :: _ => some (c.cycleNs + t.offset * 10000 - now)
  | none, [] => none

/-- The scheduler's tolerance for a partition: 0 while a kernel is placed or a transfer runs, else the time to its next entry less 2 µs. -/
def Chip.partTol (c : Chip) (p : PartDecl) : Option Nat :=
  let placed := (bitList 32 (vget 0 c.tt.mask p.id).toNat).any (fun a =>
    let r := c.arr a
    r.queued.any (fun d => c.partOf d.ctx == p.id) || (r.cur.toList ++ r.saved).any (fun k => c.partOf k.d.ctx == p.id))
  let moving := c.str.berths.any (fun b => b.part == p.id && (c.berth b.id).xfer != 0)
  if placed || moving then some 0 else (c.nextEntryIn p.id).map (· - 2000)

/-- The tolerance of a channel: scan-out, the free receive buffers of linked ports, the scheduler of the owning partition. -/
def Chip.chanTol (c : Chip) (n : Nat) : Option Nat :=
  let outs := (List.range 4).foldl (fun t o =>
    if (c.out o).st == .active then minTol t (some (c.latTol o).toNat) else t) none
  let ports := (List.range 8).foldl (fun t p =>
    if (c.port p).link then minTol t (some ((524288 - (c.port p).fill) * 8)) else t) none
  let own := match c.str.parts.find? (fun p => p.chans.toNat.testBit n) with | some p => c.partTol p | none => none
  minTol outs (minTol ports own)

/-- MC_LAT_TOL. -/
def Chip.leastTol (c : Chip) : Word :=
  match (List.range c.id.grade.channels).foldl (fun t n => minTol t (c.chanTol n)) none with
  | some t => BitVec.ofNat 32 (min t 0xFFFFFFFE)
  | none => 0xFFFFFFFF

/-- A channel is idle for a time and its tolerance allows an exit cost. -/
def Chip.idleFor (c : Chip) (n idle tol : Nat) : Bool :=
  c.chanOn n && decide ((c.chan n).idleSince + idle ≤ c.clk.ref) && (c.chanTol n).all (fun t => decide (tol ≤ t))

/-- CHANNEL_POWER_DOWN can occur (R354). -/
def Chip.canPowerDown (c : Chip) (n : Nat) : Bool :=
  c.idleFor n 200 1000 && (c.chan n).power == .active && c.mc.ctl.toNat.testBit 1

/-- CHANNEL_SELF_REFRESH can occur (R354). -/
def Chip.canSelfRefresh (c : Chip) (n : Nat) : Bool :=
  c.idleFor n 20000 20000 && ((c.chan n).power == .active || (c.chan n).power == .powerDown) && c.mc.ctl.toNat.testBit 2

/-- A channel enters a power state. -/
def Chip.setPower (n : Nat) (p : ChPower) (c : Chip) : Chip := c.updChan n (fun h => { h with power := p })

/-- LOW_POWER_EXIT can occur: the channel is in power-down or self-refresh. -/
def Chip.canExit (c : Chip) (n : Nat) : Bool :=
  c.chanOn n && ((c.chan n).power == .powerDown || (c.chan n).power == .selfRefresh)

end Sys2Proof.Machine
end

