-- ==== Sys2Proof/Machine/Secure.lean ====
section
/-! DEFINITION. The Harbourmaster: boot, firmware images and their update, the owner key, attestation, the key store, debug unlock and
the random source (15_security_and_ledger.md). -/

namespace Sys2Proof.Machine

/-! ### Identification and HELLO (R20, R410, R439) -/

/-- CFG_DEVICE (R20). -/
def Chip.cfgDevice (c : Chip) : Nat := (match c.id.grade with | .dx6430 => 0x6430 | .dx3230 => 0x3230) * 2 ^ 16 + c.id.stepping.toNat

/-- Answer a HELLO received at a time: a fresh nonce, CFG_DEVICE and the identity hash. The nonce's 10 s run from the HELLO's receipt
(R410). -/
def Chip.answerHello (at_ : Nat) (f : QcpFrame) (c : Chip) : Chip :=
  let (n, c) := c.draw 32
  let c := c.updPl (fun p => { p with nonce := some { value := hashOf n, at_ := at_, used := false } })
  c.reply c.pl.qcpEtype .hello f 0 (n ++ toLe 4 c.cfgDevice ++ hashBytes c.idHash)

/-- HELLO: answered at once while the random source passes, and when it next passes otherwise; the nonce of an earlier HELLO is then no
longer that of the most recent one (R410). -/
def Chip.hello (f : QcpFrame) (c : Chip) : Chip :=
  if c.hm.rngOk then c.answerHello c.clk.ref f
  else c.updPl (fun p => { p with nonce := none, hellos := p.hellos ++ [({ op := .hello, f := f }, c.clk.ref)] })

/-- A valid OPEN opens the session under a random nonzero id (R411), and is answered. -/
def Chip.openSession (f : QcpFrame) (c : Chip) : Chip :=
  let (bs, c) := c.draw 4
  let id := if leNat bs = 0 then 1 else BitVec.ofNat 32 (leNat bs)
  let c := c.updPl (fun p => { p with
    session := some { id := id, owned := c.hm.owner.isSome, mac := f.rx.src, port := f.rx.port, tag := rxTag f.rx, lastAt := c.clk.ref }
    next := f.seq + 1 })
  c.reply c.pl.qcpEtype .opn f 0
    (toLe 4 id.toNat ++ toLe 2 16 ++ toLe 2 8256 ++ toLe 4 c.ic.evtSeq.toNat ++ toLe 4 (c.pl.tokNext - 1).toNat)

/-- A HELLO or an OPEN that waited for the random source is answered. -/
def Chip.answerWaiting (w : Req × Nat) (c : Chip) : Chip :=
  if w.1.op == .opn then c.closeSession.openSession w.1.f else c.answerHello w.2 w.1.f

/-! ### Firmware images (R440, R441) -/

/-- The greatest firmware image. -/
def fwMax : Nat := 8 * 2 ^ 20

/-- The first of checks 2 to 5 of R441 that an image of a given length fails. -/
def fwCheck (root : Hash) (epoch : Nat) (img : Bytes) (len : Nat) : Option Nat :=
  if fieldAt img 0 4 ≠ 0x57465844 || fieldAt img 8 4 ≠ len || len % 16 ≠ 0 || len < 784 || fwMax < len then some 2
  else if sha256 (slice img 0x10 384) ≠ root then some 3
  else if !rsaVerify (rsaOf (slice img 0x10 384)) (sha256 (img.take (len - 384))) (rsaOf (slice img (len - 384) 384)) then some 4
  else if fieldAt img 0x0C 1 < epoch then some 5
  else none

/-- The image in flash. -/
def Flash.image (f : Flash) : Bytes := f.mem.read 0 (min fwMax (leNat (f.mem.read 8 4)))

/-- The first check of R441 that the flash fails. -/
def bootCheck (fuses : Fuses) (flash : Flash) (ctrlErr : Bool) : Option Nat :=
  if !flash.present then some 1 else
  match fwCheck fuses.rootHash fuses.epoch flash.image (leNat (flash.mem.read 8 4)) with
  | some k => some k
  | none => if ctrlErr then some 6 else none

/-! ### The owner-key record (R444) -/

/-- Where the record lies in flash. -/
def ownerRecordAt : Nat := 0x00800000

/-- The record of a modulus in a slot. -/
def ownerRecord (slot : Nat) (modulus : Bytes) : Bytes := toLe 4 0x594B4E4F ++ toLe 1 slot ++ zeros 3 ++ toLe 4 65537 ++ modulus

/-- The modulus of the flash's record, where its hash is the current slot. -/
def recordedOwner (fuses : Fuses) (flash : Flash) : Option Rsa :=
  let r := flash.mem.read ownerRecordAt 396
  let m := slice r 12 384
  if flash.present && fieldAt r 0 4 == 0x594B4E4F && fuses.ownerSlots.getLast? == some (sha256 m) then some (rsaOf m) else none

/-- The chip runs firmware of a given image: its version and hash, the recorded owner key installed. -/
def Chip.runFw (version : Word) (hash : Hash) (owner : Option Rsa) (c : Chip) : Chip :=
  c.updHm (fun h => { h with stage := .running, fwVersion := version, fwHash := hash, owner := owner.orElse (fun _ => h.owner) })

/-! ### Boot (R436, R441, R442) -/

/-- Burn the identity seed where it is blank, the device has booted and the random source passes. -/
def State.burnSeed (s : State) : State :=
  let c := s.chip
  if c.hm.stage == .rom || !c.hm.rngOk || s.fuses.idSeed.isSome then s else
  let (bs, c) := c.draw 32
  { s with fuses := { s.fuses with idSeed := some (hashOf bs) }, chip := c.updId (fun d => { d with idSeed := some (hashOf bs) }) }

/-- BOOT may run: the boot ROM has not yet run since the reset. -/
def Chip.canBoot (c : Chip) : Bool := c.up && c.hm.stage == .rom

/-- The boot ROM's checks: the firmware starts, or the device boots from the network. -/
def State.boot (ctrlErr : Bool) (s : State) : State :=
  let c := match bootCheck s.fuses s.flash ctrlErr with
    | none =>
      let img := s.flash.image
      s.chip.runFw (BitVec.ofNat 32 (fieldAt img 4 4)) (sha256 img) (recordedOwner s.fuses s.flash)
    | some cause =>
      (s.chip.updHm (fun h => { h with
        stage := .network
        netboot := true
        bootStatus := BitVec.ofNat 32 (h.bootStatus.toNat / 8 * 8 + cause) })).hmErr 0
  { s with chip := c }.burnSeed

/-- ID_KEY_READY may happen: a seed exists and the device has booted (R438). -/
def Chip.canDerive (c : Chip) : Bool := c.up && c.hm.stage != .rom && c.id.idSeed.isSome && !c.hm.idReady

/-- The identity key is derived. -/
def Chip.derive (c : Chip) : Chip := c.updHm (fun h => { h with idReady := true })

/-! ### The random source (R439) -/

/-- A health test fails. -/
def Chip.rngFail (c : Chip) : Chip := (c.updHm (fun h => { h with rngOk := false, rngFails := satInc h.rngFails })).hmErr 4

/-- The TAP presents a challenge from the random source (R453; log 135). -/
def Chip.newChallenge (c : Chip) : Chip :=
  let (bs, c) := c.draw 32
  c.updHm (fun h => { h with challenge := some (hashOf bs) })

/-- The source passes: the seed, the genesis, the HELLOs and OPENs that waited, and the TAP's challenge. -/
def State.rngPass (s : State) : State :=
  let s := { s with chip := s.chip.updHm (fun h => { h with rngOk := true }) }.burnSeed
  let c := if s.chip.awake && !s.chip.lg.started then s.chip.genesis.marker 1 else s.chip
  let waiting := c.pl.hellos
  let c := waiting.foldl (fun (c : Chip) w => c.answerWaiting w) (c.updPl (fun p => { p with hellos := [] }))
  { s with chip := if c.hm.challenge.isNone then c.newChallenge else c }

/-! ### Live update (R447 to R449) -/

/-- n bytes of the staging area: bytes 8 to 16 MiB of Basin bank 31 in a network boot, bytes 24 to 32 MiB of the store region otherwise. -/
def Chip.staged (c : Chip) (n : Nat) : Bytes :=
  if c.hm.stage == .network then c.basin.read (31 * 2 ^ 24 + fwMax) n else
  match c.cfg.applied with
  | some s => c.dramRead ((s.regionAt s.store).1 + 24 * 2 ^ 20) n
  | none => zeros n

/-- The error address of a failing check (R447). -/
def fwErrAddr (len check : Nat) : Nat := match check with | 2 => 0 | 3 => 0x10 | 4 => len - 384 | _ => 0x0C

/-- FW_UPDATE starts: its image is being verified. -/
def Chip.fwStart (len : Nat) (c : Chip) : Chip := c.updHm (fun h => { h with upd := .verifying, updLen := len })

/-- An update ends without success. -/
def Chip.fwFail (addr : Nat) (c : Chip) : Chip :=
  ((c.updHm (fun h => { h with upd := .idle, updFailed := true, updImage := [] })).hmErr 1).finishDeferred (Deferred.is .fwUpdate) 0x3B
    (errPayload addr 0)

/-- FW_VERIFICATION_END may happen. -/
def Chip.fwVerifying (c : Chip) : Bool := c.awake && c.hm.upd == .verifying

/-- Verification ends: the update fails, or its code is copied to the spare banks; in a network boot the image starts at once. -/
def State.fwVerified (s : State) : State :=
  let c := s.chip
  let len := c.hm.updLen
  let img := c.staged (min len fwMax)
  match fwCheck s.fuses.rootHash s.fuses.epoch img len with
  | some k => { s with chip := c.fwFail (fwErrAddr len k) }
  | none =>
    let version := BitVec.ofNat 32 (fieldAt img 4 4)
    if c.hm.stage == .network then
      let c := (c.updHm (fun h => { h with upd := .idle, updFailed := false })).runFw version (sha256 img) (recordedOwner s.fuses s.flash)
      { s with chip := c.finishDeferred (Deferred.is .fwUpdate) 0 (toLe 4 version.toNat) }
    else
      { s with chip := c.updHm (fun h => { h with
          upd := .copied
          updVersion := version
          updEpoch := fieldAt img 0x0C 1
          updHash := sha256 img
          updImage := img }) }

/-- FLASH_REWRITE_DONE may happen. -/
def Chip.fwRewriting (c : Chip) : Bool := c.awake && c.hm.upd == .rewriting

/-- The flash has been rewritten with the new image and read back. Where it verifies, the rollback epoch is burned up to the
image's; where it does not, the flash's bytes under the image are open and the epoch stays. -/
def State.fwRewritten (verified : Bool) (s : State) : State :=
  let c := s.chip
  let img := c.hm.updImage
  if verified then
    let e := max s.fuses.epoch (min 64 c.hm.updEpoch)
    { s with
      fuses := { s.fuses with epoch := e }
      flash := { s.flash with mem := s.flash.mem.write 0 img }
      chip := (c.updHm (fun h => { h with upd := .idle, updImage := [] })).updId (fun d => { d with epoch := e }) }
  else
    let (bs, c) := c.openRun img.length
    { s with
      flash := { s.flash with mem := s.flash.mem.write 0 bs }
      chip := (c.updHm (fun h => { h with upd := .idle, updFailed := true, updImage := [] })).hmErr 1 }

/-! ### OWNER_KEY (R445) -/

/-- What OWNER_KEY decides: refused with a code and an address, accepted with the slots that are then written. -/
inductive KeyVerdict where
  | refused (code addr : Nat)
  | accepted (slots : List Hash)
  deriving DecidableEq, Repr

/-- The acceptance of a key by the slots written, the installed key and the authorisation signature. -/
def keyVerdict (slots : List Hash) (owner : Option Rsa) (nonce idHash : Hash) (payload : Bytes) : KeyVerdict :=
  let m := slice payload 0 384
  let h := sha256 m
  let digest := sha256 (m ++ hashBytes nonce ++ hashBytes idHash)
  let sig := rsaOf (slice payload 0x184 384)
  if fieldAt payload 0x180 4 ≠ 65537 then .refused 0x31 0
  else if slots.getLast? = some h then .accepted slots
  else if 4 ≤ slots.length then .refused 0x3B 0
  else
    let key := if slots.isEmpty then some (rsaOf m) else owner
    if key.any (fun k => rsaVerify k digest sig) then .accepted (slots ++ [h]) else .refused 0x3B 0x184

/-- OWNER_KEY: the state after it, its status and its payload. -/
def State.ownerKey (payload : Bytes) (s : State) : State × Nat × Bytes :=
  let c := s.chip
  let nonce := match c.pl.nonce with | some n => n.value | none => 0
  match keyVerdict s.fuses.ownerSlots c.hm.owner nonce c.idHash payload with
  | .refused code addr => ({ s with chip := c.hmErr 2 }, code, errPayload addr 0)
  | .accepted slots =>
    let m := slice payload 0 384
    let c := (c.updHm (fun h => { h with owner := some (rsaOf m) })).updId (fun d => { d with ownerSlots := slots })
    let flash := if c.hm.stage == .network || !s.flash.present then s.flash
      else { s.flash with mem := s.flash.mem.write ownerRecordAt (ownerRecord (slots.length - 1) m) }
    ({ s with fuses := { s.fuses with ownerSlots := slots }, flash := flash, chip := c }, 0, hashBytes (sha256 m))

/-! ### Attestation (R450) -/

/-- The signed bytes 0x000 to 0x27F of a report over a nonce. -/
def Chip.reportBody (c : Chip) (nonce : Bytes) : Bytes :=
  toLe 4 0x54525441 ++ toLe 2 1 ++ toLe 2 (b2n c.hm.owner.isSome + 2 * b2n c.hm.netboot + 4 * b2n c.hm.debug) ++ nonce ++
    toLe 4 c.cfgDevice ++ toLe 4 c.hm.bootCount.toNat ++ hashBytes c.idHash ++ hashBytes c.hm.fwHash ++ toLe 4 c.hm.fwVersion.toNat ++
    toLe 4 c.id.epoch ++ (match c.hm.owner with | some m => hashBytes (sha256 (rsaBytes m)) | none => zeros 32) ++ toLe 8 c.str.serial ++
    hashBytes c.cfg.storeHash ++ toLe 8 (c.lg.ckpts - 1) ++ hashBytes c.lg.head ++ toLe 8 c.lg.index ++ toLe 8 c.clk.dev ++
    toLe 1 (timeCode c.qy.tst) ++ zeros 7 ++ rsaBytes c.idModulus

/-- The attestation report. -/
def Chip.report (c : Chip) (nonce : Bytes) : Bytes :=
  let b := c.reportBody nonce
  b ++ rsaBytes (c.idSign (sha256 b))

/-! ### The key store (R452) -/

/-- Who writes HM_CAK_DATA or HM_CAK_CTL is an owned QCP session. -/
def Chip.cakAllowed (c : Chip) (who : Master) : Bool := who == .host && c.pl.session.any (·.owned)

/-- Write HM_CAK_CTL: slot 0 clears the data words, 1 to 3 loads a slot; after a debug unlock slots 1 to 3 stay cleared (R453; log
135). -/
def Chip.cakLoad (slot : Nat) (c : Chip) : Chip :=
  let bytes := c.hm.cakData.toList.flatMap (fun w => toLe 4 w.toNat)
  if slot = 0 then c.updHm (fun h => { h with cakData := Vector.replicate 12 0 })
  else if c.hm.debug then c
  else c.updHm (fun h => { h with
    cak := vset h.cak slot (some { key := BitVec.ofNat 256 (beNat (bytes.take 32)), name := BitVec.ofNat 128 (beNat (bytes.drop 32)) }) })

/-! ### Debug unlock (R453) -/

/-- The debugger's answer can be judged: the TAP presents a challenge and an owner key is installed. -/
def Chip.canUnlock (c : Chip) : Bool := c.up && c.hm.challenge.isSome && c.hm.owner.isSome

/-- The debugger answers the challenge: an owner-key signature over SHA-256(challenge ‖ identity hash) unlocks. The challenge is used up;
the next one is presented at once, or when the random source next passes. -/
def Chip.unlock (sig : Rsa) (c : Chip) : Chip :=
  let challenge := c.hm.challenge.getD 0
  let c := c.updHm (fun h => { h with challenge := none })
  let c := if c.hm.rngOk then c.newChallenge else c
  if c.hm.owner.any (fun n => rsaVerify n (sha256 (hashBytes challenge ++ hashBytes c.idHash)) sig) then
    let c := c.updQy (fun q => { q with ports := q.ports.map Port.unsecure })
    (c.updHm (fun h => { h with debug := true, cak := h.cak.mapIdx (fun i k => if i = 0 then k else none) })).hmErr 5
  else c

end Sys2Proof.Machine
end

