-- ==== Sys2Proof/Machine/Power.lean ====
section
/-! DEFINITION. Power: the operating point, the power and thermal caps, the switched domains (R469 to R483). -/

namespace Sys2Proof.Machine

/-! ### Switched domains (R478 to R481) -/

/-- A logical array is wanted: it lies in a partition's effective mask, where the partition declares a berth, or a removed one's steps or a drain
still use it (R61, R63);
a pending amendment that adds it to a partition wants it as well (R480). -/
def Chip.arrayWanted (c : Chip) (n : Nat) : Bool :=
  c.str.parts.any (fun p => (vget 0 c.tt.mask p.id).toNat.testBit n && c.str.berths.any (fun b => b.part == p.id)) ||
    c.tt.ghosts.any (fun p => p.arrays.toNat.testBit n) || !c.arrayIdle n || c.tt.drains.any (fun d => d.array == n) ||
    c.cfg.pend.any (fun p => !p.full && p.str.parts.any (fun q => q.arrays.toNat.testBit n && p.str.berths.any (fun b => b.part == q.id)))

/-- A logical array is mapped to a physical one. -/
def Chip.logicalOf (c : Chip) (p : Nat) : Option Nat :=
  (List.range 32).find? (fun n => let m := vget {} c.oc.map n; m.valid && m.phys == p)

/-- A physical array's domain is off by R479 or R480. -/
def Chip.arrayGated (c : Chip) (p : Nat) : Bool :=
  c.id.arrayFused.toNat.testBit p || c.oc.failed.toNat.testBit p ||
    (match c.logicalOf p with
    | some n => !c.arrayWanted n
    | none => !((List.range 32).any (fun n => let m := vget {} c.oc.map n; m.pending && m.nextPhys == p) || c.spare == some p))

/-- A stereo pair is active. -/
def Chip.pairActive (c : Chip) : Bool := c.str.active.any (fun d => d.partner != 255)

/-- The condition of R479 under which a domain is off holds. -/
def Chip.offCond (c : Chip) (d : Nat) : Bool :=
  if d < 34 then c.arrayGated d
  else if d < 66 then !((c.str.parts ++ c.tt.ghosts).any (fun p => p.banks.toNat.testBit (d - 34)) || c.intakeBank (d - 34))
  else if d < 74 then decide (c.id.grade.ports ≤ d - 66) || (c.port (d - 66)).down
  else if d < 78 then decide (c.id.grade.outputs ≤ d - 74) || !c.outWanted (d - 74)
  else if d < 82 then decide (c.id.grade.channels ≤ 4 * (d - 78)) || (List.range 4).all (fun k => (c.chan (4 * (d - 78) + k)).lost)
  else if d = 87 then !c.pairActive
  else if d = 88 then !c.str.outputs.any (·.enabled)
  else if d = 92 then decide (c.lgRecords = 0)
  else false

/-- The watch bank (R500). -/
def Chip.watchBank (c : Chip) : Nat := c.lh.watchCfg.toNat / 2 ^ 16 % 32

/-- A domain is off because the device sleeps (R484): all are, but for those that a watch cycle switches on (R488): the fabric, the ingest packet
engine, the motion engine, the watch stream's port, the watch bank and the Harbourmaster. -/
def Chip.sleepsOff (c : Chip) (d : Nat) : Bool :=
  match c.lh.st with
  | .awake => false
  | .entering => false
  | .watchCycle => !(d == 91 || d == 89 || d == 86 || d == 90 || d == 34 + c.watchBank || c.lh.watchStream.any (fun w => d == 66 + w.port))
  | _ => true

/-- A domain is off: its condition holds, the device sleeps, or it has not switched on since it ended. An array is gated when the conditions are next judged
(log 77). -/
def Chip.isOff (c : Chip) (d : Nat) : Bool := c.domainOff d || (decide (34 ≤ d) && c.offCond d) || c.sleepsOff d

/-- A gated array keeps its counters and its error registers only (R481). -/
def Arr.lose (a : Arr) : Arr :=
  { descDone := a.descDone, preempts := a.preempts, busyK := a.busyK, busyHi := a.busyHi, err := a.err, errInfo := a.errInfo,
    errAddr := a.errAddr, sramCorr := a.sramCorr }

/-- What a domain loses when it is switched off: an array its SRAM and queues (R481), a bank its contents (R335). -/
def Chip.loseDomain (d : Nat) (c : Chip) : Chip :=
  if d < 34 then
    let c := c.updSram (fun m => m.clear (d * 2 ^ 22) (2 ^ 22))
    match c.logicalOf d with
    | some n => c.updArr n Arr.lose
    | none => c
  else if d < 66 then c.updBasin (fun m => m.clear ((d - 34) * 2 ^ 24) (2 ^ 24))
  else c

/-- Switch off those of some domains whose condition now holds. -/
def Chip.regateOf (ds : List Nat) (c : Chip) : Chip :=
  let fresh := ds.filter (fun d => c.offCond d && !c.domainOff d)
  let c := fresh.foldl (fun (c : Chip) d => c.loseDomain d) c
  c.updPm (fun p => { p with off := fresh.foldl (fun w d => w ||| BitVec.ofNat 96 (2 ^ d)) p.off })

/-- Switch off every domain whose condition now holds. -/
def Chip.regate (c : Chip) : Chip := c.regateOf (List.range 96)

/-- The domains at a warm reset or a wake: arrays are off only when fused off or retired (log 77). -/
def Chip.regateReset (c : Chip) : Chip :=
  c.regateOf ((List.range 96).filter (fun d => decide (34 ≤ d) || c.id.arrayFused.toNat.testBit d || c.oc.failed.toNat.testBit d))

/-- DOMAIN_SWITCH_ON can occur: the domain's condition has ended. -/
def Chip.canSwitchOn (c : Chip) (d : Nat) : Bool := c.awake && c.domainOff d && !c.offCond d

/-- A domain switches on. -/
def Chip.switchOn (d : Nat) (c : Chip) : Chip :=
  (c.updPm (fun p => { p with off := p.off &&& ~~~(BitVec.ofNat 96 (2 ^ d)) })).schedule

/-! ### The target (R472, R498) -/

/-- The target operating point. -/
def Chip.target (c : Chip) : Nat :=
  if !c.pm.vmodeRead || c.pm.vmodeBad then 3 else max (c.pm.opReq.toNat % 4) (max c.tm.cap c.pm.powCap)

/-- What sets the target: the first of PM_OP_REQ, the thermal cap and the power cap that equals it; 3 while VOUT_MODE holds it. -/
def Chip.limit (c : Chip) : Nat :=
  if !c.pm.vmodeRead || c.pm.vmodeBad then 3
  else if c.pm.opReq.toNat % 4 = c.target then 0
  else if c.tm.cap = c.target then 1
  else 2

/-- VDD_CORE of a point, in mV. -/
def coreMv (op : Nat) : Nat := match op with | 0 => 800 | 1 => 720 | 2 => 640 | _ => 600

/-! ### Transitions (R473, R474) -/

/-- 10 ms: the retry of a failed transition. -/
def retryNs : Nat := 10000000

/-- A transition ends at a point. -/
def Chip.opDone (goal : Nat) (c : Chip) : Chip :=
  c.updPm (fun p => { p with cur := goal, transitions := satInc p.transitions, move := none, retryAt := none })

/-- A PMBus transaction or power good fails: bit b, and the retry 10 ms later. -/
def Chip.opFailed (b : Nat) (move : Option OpMove) (c : Chip) : Chip :=
  (c.updPm (fun p => { p with move := move, retryAt := some (c.clk.ref + retryNs) })).pmErr b

/-- A PMBus write command is acknowledged by the regulator that PM_PMBUS_CFG addresses. -/
def Chip.pmbus (cmd value : Nat) (c : Chip) : Chip := c.updPm (fun p => { p with sent := p.sent ++ [(p.pmbus.toNat % 128, cmd, value)] })

/-- VOUT_COMMAND with a point's voltage. -/
def Chip.vout (op : Nat) (c : Chip) : Chip := c.pmbus 0x21 (coreMv op)

/-- OPERATION switches the core regulator on or off (R474; its values by PMBus, log 134). -/
def Chip.operation (on : Bool) (c : Chip) : Chip := c.pmbus 0x01 (if on then 0x80 else 0)

/-- VDD_CORE is switched on at 0.60 V (R492). -/
def Chip.coreOn (c : Chip) : Chip := (c.vout 3).operation true

/-- The core is at OP3, and no transition is in progress. -/
def Chip.atOp3 (c : Chip) : Chip := c.updPm (fun p => { p with cur := 3, move := none, retryAt := none })

/-- Command the lower voltage of a point whose post-divider is set. -/
def Chip.lower (goal : Nat) (acked : Bool) (c : Chip) : Chip :=
  if acked then (c.vout goal).opDone goal else c.opFailed 0 (some (.lowering goal))

/-- A transition starts: to a slower point the post-divider first, to a faster one the voltage first. -/
def Chip.startMove (acked : Bool) (c : Chip) : Chip :=
  let goal := c.target
  if c.pm.cur < goal then (c.updPm (fun p => { p with cur := goal })).lower goal acked
  else if acked then (c.vout goal).updPm (fun p => { p with move := some (.raising goal), retryAt := none })
  else c.opFailed 0 none

/-- OP_TRANSITION can occur: the target is another point, and no transition or retry is in progress. -/
def Chip.canMove (c : Chip) : Bool := c.awake && c.pm.move.isNone && c.pm.retryAt.isNone && c.target != c.pm.cur

/-- VOLTAGE_SETTLED can occur: a higher voltage has been commanded. -/
def Chip.raisingTo (c : Chip) : Option Nat := match c.pm.move with | some (.raising goal) => if c.awake then some goal else none | _ => none

/-- The higher voltage settles, and the post-divider changes; or power good does not appear, where PG_WAIT asks for it. -/
def Chip.settleVolt (good : Bool) (c : Chip) : Chip :=
  match c.raisingTo with
  | some goal => if good || !c.pm.pmbus.toNat.testBit 16 then c.opDone goal else c.opFailed 1 none
  | none => c

/-- PMBUS_RETRY is due. -/
def Chip.retryDue (c : Chip) : Bool := c.awake && c.pm.retryAt.any (fun t => decide (t ≤ c.clk.ref))

/-- The failed transition is retried toward the target of the moment. -/
def Chip.retryMove (acked : Bool) (c : Chip) : Chip :=
  match c.pm.move with
  | some (.lowering goal) => c.lower goal acked
  | _ =>
    let c := c.updPm (fun p => { p with retryAt := none })
    if c.target = c.pm.cur then c else c.startMove acked

/-! ### Polls and the power cap (R474, R475) -/

/-- PMBUS_POLL: the readings, or a transaction that failed three times; VOUT_MODE where it was read. -/
def Chip.poll (vout iout : Option (BitVec 16)) (ulinear16 : Option Bool) (c : Chip) : Chip :=
  let c := match ulinear16 with
    | some true => c.updPm (fun p => { p with vmodeRead := true, vmodeBad := false })
    | some false => (c.updPm (fun p => { p with vmodeRead := true, vmodeBad := true })).pmErr 2
    | none => c
  match vout, iout with
  | some v, some i =>
    let w := v.toNat * i.toNat
    c.updPm (fun p => { p with
      vout := v.setWidth 32
      iout := i.setWidth 32
      sum10 := p.sum10 + w
      n10 := p.n10 + 1
      sum100 := p.sum100 + w
      n100 := p.n100 + 1 })
  | some v, none => (c.updPm (fun p => { p with vout := v.setWidth 32 })).pmErr 0
  | none, some i => (c.updPm (fun p => { p with iout := i.setWidth 32 })).pmErr 0
  | none, none => c.pmErr 0

/-- POWER_CAP_WINDOW is due: ten polls make a 10 ms window. -/
def Chip.windowDue (c : Chip) : Bool := c.awake && decide (10 ≤ c.pm.n10)

/-- PM_POWER_CAP in units of 10 µW (mV x 10 mA). -/
def Power.capUnits (p : Power) : Nat := clampNat 20 115 (p.cap.toNat % 128) * 100000

/-- A 10 ms window above the cap makes the power cap one point slower; a 100 ms window below nine tenths of it releases one point. -/
def Chip.capWindow (c : Chip) : Chip :=
  let p := c.pm
  let beyond := decide (p.capUnits * p.n10 < p.sum10)
  let slower := min 3 (max p.powCap p.cur + 1)
  let c := c.updPm (fun p => { p with sum10 := 0, n10 := 0 })
  let c := if beyond && p.powCap != slower then (c.updPm (fun p => { p with powCap := slower })).pmErr 4 else c
  if p.n100 < 100 then c else
  let calm := decide (10 * p.sum100 < 9 * p.capUnits * p.n100)
  c.updPm (fun q => { q with sum100 := 0, n100 := 0, powCap := if calm then q.powCap - 1 else q.powCap })

/-! ### Thermal limits (R476, R477) -/

/-- The entry threshold of a cap in quarter degrees. -/
def capEntry (k : Nat) : Int := match k with | 1 => 380 | 2 => 400 | _ => 420

/-- The cap that a reading enters. -/
def capFor (r : Int) : Nat := if 420 ≤ r then 3 else if 400 ≤ r then 2 else if 380 ≤ r then 1 else 0

/-- A sensor after a sample: whether others changed while it stood still for 10 s is judged afterwards. -/
def Sensor.sample (r : Int) (s : Sensor) : Sensor := { s with reading := r, same := if r = s.reading then s.same + 1 else 0 }

/-- The sensors after a sample, marked by R476. -/
def sampleAll (rs : List Int) (v : Vector Sensor 19) : Vector Sensor 19 :=
  let v := v.mapIdx (fun i s => s.sample (rs.getD i s.reading))
  let moved := fun (s : Sensor) => decide (s.same < 10000)
  v.map (fun s => { s with fault := decide (s.reading < -160) || decide (600 < s.reading) || (!moved s && v.toList.any moved) })

/-- The hottest sensor that reports no fault, the lowest-numbered of equals, and its reading. -/
def Thermal.hottest (t : Thermal) : Option (Nat × Int) :=
  (List.range 19).foldl (fun (b : Option (Nat × Int)) i =>
    let s := vget {} t.sensor i
    if s.fault || b.any (fun x => decide (s.reading ≤ x.2)) then b else some (i, s.reading)) none

/-- TM_PEAK as a signed reading. -/
def Thermal.peakInt (t : Thermal) : Int := signed 11 t.peak.toNat

/-- The counts of samples below each cap's release threshold. -/
def Thermal.counted (r : Int) (t : Thermal) : Vector Nat 4 :=
  t.below.mapIdx (fun k n => if r < capEntry k - 4 * (clampNat 1 10 (t.hyst.toNat % 16) : Int) then n + 1 else 0)

/-- The slowest cap in force after a sample: entered now, or entered before and not yet lifted. -/
def Thermal.capAfter (r : Int) (t : Thermal) : Nat :=
  let below := t.counted r
  ((List.range (t.cap + 1)).reverse.find? (fun k => decide (k ≤ capFor r) || decide (vget 0 below k < 100))).getD 0

/-- An emergency trip: THERM_TRIP_N low, the channels in held self-refresh, the core regulator off through OPERATION. -/
def Chip.tripNow (c : Chip) : Chip :=
  let c := c.updTm (fun t => { t with trip := true, trips := satInc t.trips, coolSince := none })
  let c := c.lhErr 3
  let c := (c.updMc (fun m => { m with ch := m.ch.map (fun h => { h with power := .held }) })).operation false
  c.updLh (fun l => { l with st := .tripped, latched := none })

/-- THERMAL_SAMPLE: readings, faults, the cap, the trip; while tripped, how long sensor 18 has been cool. -/
def Chip.thermal (rs : List Int) (c : Chip) : Chip :=
  let old := c.tm.sensor
  let c := c.updTm (fun t => { t with sensor := sampleAll rs t.sensor })
  let c := if (List.range 19).any (fun i => (vget {} c.tm.sensor i).fault && !(vget {} old i).fault) then c.tmErr 3 else c
  let c :=
    if c.lh.st != .tripped then c
    else if (vget {} c.tm.sensor 18).reading ≤ 340 then c.updTm (fun t => { t with coolSince := t.coolSince.orElse (fun _ => some c.clk.lh) })
    else c.updTm (fun t => { t with coolSince := none })
  match c.tm.hottest with
  | none => c
  | some (_, r) =>
    let c := c.updTm (fun t => { t with peak := if t.peakInt < r then BitVec.ofNat 32 (unsigned 11 r) else t.peak })
    if 440 ≤ r then (if c.lh.st == .tripped then c else c.tripNow) else
    let cap := if c.tm.cap ≤ capFor r then capFor r else c.tm.capAfter r
    let was := c.tm.cap
    let c := c.updTm (fun t => { t with below := t.counted r, cap := cap })
    if was < cap then (if cap = 3 then (c.tmErr 0).tmErr 2 else c.tmErr 0)
    else if cap < was then c.tmErr 1
    else c

end Sys2Proof.Machine
end

