-- ==== Sys2Proof/Machine/Reset.lean ====
section
/-! DEFINITION. What stops the device as a whole: warm reset and power-on reset (R494 to R496, R535, R538), sleep, watch mode and wake
(R484 to R493), and the I2C wake target (R489). -/

namespace Sys2Proof.Machine

/-! ### What survives (R496) -/

/-- A channel after the core die restarts: retired slots, a lost channel and the sticky count stay; it is held in self-refresh until it
trains. -/
def Channel.kept (h : Channel) : Channel :=
  { lost := h.lost, cause := h.cause, uncorr := h.uncorr, bad := h.bad, badCount := h.badCount, badList := h.badList, power := .held }

/-- The memory controllers after the core die restarts: the RWS log, the copy of the region table and its hash (R345). -/
def MemCtl.kept (m : MemCtl) : MemCtl :=
  { errAddr := m.errAddr, errInfo := m.errInfo, errStep := m.errStep, violAddr := m.violAddr, violInfo := m.violInfo,
    tableHash := m.tableHash, copyDecls := m.copyDecls, copy := m.copy, ch := m.ch.map Channel.kept }

/-- The Basin's registers after the core die restarts: the RWS log and the remapped rows. -/
def BasinCtl.kept (b : BasinCtl) : BasinCtl :=
  { errAddr := b.errAddr, errInfo := b.errInfo, errStep := b.errStep, bank := b.bank.map (fun k => { spares := k.spares }) }

/-- The ledger after the core die restarts: what Lighthouse retention holds, and the report of a discarded checkpoint (R462). -/
def Ledger.kept (l : Ledger) : Ledger :=
  { err := l.err &&& 8, index := l.index, ckpts := l.ckpts, head := l.head, ckptHead := l.ckptHead, ckptTime := l.ckptTime,
    ckptFirst := l.ckptFirst, ckptCount := l.ckptCount, genesis := l.genesis, started := l.started, flags := l.flags }

/-- The Harbourmaster after the core die restarts: the boot count, the sticky boot status, the key store and the debug unlock. -/
def Harbour.kept (f : Fuses) (h : Harbour) : Harbour :=
  { bootCount := h.bootCount, bootStatus := h.bootStatus, debug := h.debug, cak := vset h.cak 0 f.provCak }

/-- The Lighthouse when the core die has restarted: awake, its RWL registers and counters. -/
def Lighthouse.kept (l : Lighthouse) : Lighthouse :=
  { lastWake := l.lastWake, wakeTicks := l.wakeTicks, watchCfg := l.watchCfg, watchPeriod := l.watchPeriod, watchThresh := l.watchThresh,
    watchSad := l.watchSad, watchCycles := l.watchCycles, sleeps := l.sleeps, i2cMatches := l.i2cMatches, i2cData := l.i2cData }

/-- The package after every switched domain has been reset: registers at their reset values, but for what R496 keeps; the Basin and the
array-local SRAM lost, DRAM held. -/
def Chip.restarted (f : Fuses) (c : Chip) : Chip :=
  { clk := { c.clk with rate := {} }
    por := c.por
    id := identOf f c.id.straps
    draws := c.draws
    cfg := { storeHash := c.cfg.storeHash, storeSlot := c.cfg.storeSlot, kept := c.cfg.kept }
    qy := { ports := resetPorts c.id.straps }
    oc := { failed := c.oc.failed, map := c.oc.map, substCount := c.oc.substCount }
    mc := c.mc.kept
    bs := c.bs.kept
    ic := IntCtl.initial
    pl := { qcpEtype := c.pl.qcpEtype, pwpEtype := c.pl.pwpEtype }
    hm := c.hm.kept f
    lg := c.lg.kept
    pm := { pmbus := c.pm.pmbus, sent := c.pm.sent }
    lh := c.lh.kept
    tm := { trips := c.tm.trips, peak := c.tm.peak }
    dram := c.dram
    tx := c.tx
    bus := c.bus }

/-- A pending image, or one under validation, is discarded by a reset or by sleep (R55). -/
def Chip.dropImage (c : Chip) : Chip :=
  if c.cfg.state == .pending || c.cfg.state == .validating then
    c.updCfg (fun g => { g with state := .discarded, errCode := 0x12, errOff := 0, pend := none })
  else c

/-- The discard that a structure's CFG registers report after the restart. -/
def Chip.reportDiscard (was : Bool) (c : Chip) : Chip :=
  if was then c.updCfg (fun g => { g with state := .discarded, errCode := 0x12 }) else c

/-! ### Warm reset (R495) -/

/-- WARM_RESET, WARM_RST_N or the recovery from a trip: the channels enter held self-refresh, every switched domain is reset, and the boot
ROM starts. It has no further effect in power-on reset (R538) and none while the device is tripped (R477). -/
def State.warmReset (s : State) : State :=
  let c := s.chip
  let discarded := c.cfg.state == .pending || c.cfg.state == .validating
  let lost := !c.lg.signing.isEmpty
  let lg := { c.lg with err := if lost then 8 else 0, flags := if c.lg.flags.testBit 1 then c.lg.flags else c.lg.flags + 2 }
  let c := { c with lg := lg, hm := { c.hm with bootCount := satInc c.hm.bootCount } }
  let n := ((c.restarted s.fuses).reportDiscard discarded).updClk (fun k => { k with dev := 0 })
  let n := (n.updCfg (fun g => { g with next := .warm })).regateReset
  { s with chip := if lost then n.raise 782 (statusDetail n.lg.err) else n }

/-- A warm reset is in progress: its last step is the boot (R492, R495; log 142). -/
def Chip.warmResetting (c : Chip) : Bool := c.cfg.next == .warm && c.hm.stage == .rom

/-- WARM_RST_N low for at least 1 µs. During a warm reset it has no further effect (R495). -/
def Chip.warmPin (c : Chip) (lowNs : Nat) : Bool := !c.por && c.lh.st != .tripped && !c.warmResetting && decide (1000 ≤ lowNs)

/-- TRIP_RECOVERY is due: sensor 18 has read 85 degrees or less for 10 s. -/
def Chip.recoverDue (c : Chip) : Bool :=
  !c.por && c.lh.st == .tripped && c.tm.coolSince.any (fun t => decide (t + 10000000000 ≤ c.clk.lh))

/-- The LH_LAST_WAKE record (R500). -/
def wakeRecord (cause detail source : Nat) (replayed : Bool) : Word :=
  BitVec.ofNat 32 (cause * 2 ^ 28 + b2n replayed * 2 ^ 27 + source * 2 ^ 24 + detail % 2 ^ 16)

/-- The recovery from a trip: a warm reset with cause 6; LH_ERR_STATUS[3] says why. -/
def State.recover (s : State) : State :=
  let c := s.chip.updLh (fun l => { l with lastWake := wakeRecord 6 0 3 false, wakeTicks := s.chip.ticks })
  let s := { s with chip := c.coreOn }.warmReset
  { s with chip := s.chip.lhErr 3 }

/-! ### Sleep entry (R485, R486) -/

/-- The stream that watch mode watches. -/
def Chip.watchStream (c : Chip) : Option StreamDecl := c.str.active.find? (fun d => d.idx == c.lh.watchCfg.toNat % 256)

/-- Sleep entry is refused: watch mode on a stream that is not active. -/
def Chip.sleepRefused (c : Chip) (watch : Bool) : Bool := watch && c.watchStream.isNone

/-- Step 4: the stream's last closed frame becomes the reference of the watch bank. -/
def Chip.takeReference (d : StreamDecl) (c : Chip) : Chip :=
  match (c.stream d.idx).frames.getLast? with
  | none => c
  | some f =>
    let bytes := c.basinRead (c.streamBanks d) (c.frameSlot d f.slot) d.slotBytes
    (c.basinWrite [c.watchBank] 0 bytes).updLh (fun l => { l with hasRef := true })

/-- Sleep entry, steps 1 to 4: nothing more is issued, the outputs are switched off (R404), live queries end with ABORTED, the session closes, the pending image and an
unwritten checkpoint go, and watch mode takes its reference. -/
def Chip.sleepEntry (watch : Bool) (c : Chip) : Chip :=
  let c := c.updLh (fun l => { l with watch := watch, sleeps := satInc l.sleeps, latched := none, hasRef := false, watchStream := none })
  let c := ((c.endQueries (fun _ => true) 6).closeSession.dropImage).updLg (fun l => { l with err := clearBits l.err 8 })
  let c := (c.ledgerPause 2).outputsOff.updSn (fun n => { n with
    held := false, cause := 0, detail := 0, ctl := 7, trig := Vector.replicate 4 0, page := 0, latched := [] })
  let c := if watch then
      match c.watchStream with
      | some d => (c.takeReference d).updLh (fun l => { l with watchStream := some d, watchCycles := 0 })
      | none => c
    else c
  c.updLh (fun l => { l with st := .entering })

/-- Sleep entry may begin (R484), but not during a warm reset (R495). -/
def Chip.canSleep (c : Chip) (watch : Bool) : Bool := c.awake && !c.warmResetting && !c.sleepRefused watch

/-- SLEEP_ENTRY_COMPLETE, steps 5 to 7: the interrupt controller and device time are saved, the channels are held, the core rail is switched
off through OPERATION or kept at 0.60 V for watch mode. A wake latched during entry begins WAKING at once. -/
def Chip.asleep (c : Chip) : Chip :=
  let kept : IcKept := { mask := c.ic.mask, count := c.ic.count, stack := c.ic.stack, last := c.ic.last }
  let c := c.updIc (fun ic => { ic with kept := some kept })
  let c := c.updMc (fun m => { m with ch := m.ch.map (fun h => { h with power := .held }) })
  let c := (if c.lh.watch then c.vout 3 else c.operation false).atOp3
  let watchMem := fun (m : Memory) => if c.lh.watch then
      (m.filter (fun x => decide (x.1 / 2 ^ 24 = c.watchBank))) else []
  let c := (c.updBasin watchMem).updSram (fun _ => [])
  let source := if c.lh.watch then 2 else 1
  match c.lh.latched with
  | some (cause, detail) =>
    (c.updLh (fun l => { l with
      st := .waking
      savedDev := c.clk.dev
      savedLh := c.clk.lh
      periodAt := c.clk.lh
      pgFailed := false
      lastWake := wakeRecord cause detail source true
      err := 1 }))
  | none =>
    c.updLh (fun l => { l with
      st := if l.watch then .watchIdle else .asleep
      savedDev := c.clk.dev
      savedLh := c.clk.lh
      periodAt := c.clk.lh
      err := 0 })

/-! ### Watch cycles (R488 to R491) -/

/-- WATCH_CYCLE_START is due: the period has passed since the end of entry or of the last cycle. -/
def Chip.cycleDue (c : Chip) : Bool :=
  !c.por && c.lh.st == .watchIdle && c.lh.latched.isNone &&
    decide (c.lh.periodAt + clampNat 1 600 (c.lh.watchPeriod.toNat % 1024) * 1000000000 ≤ c.clk.lh)

/-- A watch cycle starts at OP3: the ingest packet engine and the port come up afresh. -/
def Chip.startCycle (c : Chip) : Chip :=
  (c.atOp3.updQy (fun _ => { ports := resetPorts c.id.straps })).updLh (fun l => { l with
    st := .watchCycle
    watchCycles := satInc l.watchCycles
    periodAt := c.clk.lh
    securedAt := none
    frameReady := false })

/-- The cycle ends: its domains are switched off. -/
def Chip.endCycle (c : Chip) : Chip := c.updLh (fun l => { l with st := .watchIdle, periodAt := c.clk.lh, securedAt := none, frameReady := false })

/-- WATCH_COMPARE can occur: a clean frame of the watch stream has closed. -/
def Chip.compareDue (c : Chip) : Bool :=
  !c.por && c.lh.st == .watchCycle && c.lh.frameReady && c.lh.latched.isNone && c.lh.watchStream.isSome

/-- The sum of absolute differences of two runs of samples. -/
def sadOf (a b : Bytes) : Nat := ((a.zip b).map (fun p => if p.1.toNat ≤ p.2.toNat then p.2.toNat - p.1.toNat else p.1.toNat - p.2.toNat)).sum

/-- The compared frame, at 1 MiB of the watch bank, becomes the reference at 0. -/
def Chip.newReference (d : StreamDecl) (c : Chip) : Chip :=
  (c.basinWrite [c.watchBank] 0 (c.basinRead [c.watchBank] (2 ^ 20) d.slotBytes)).updLh (fun l => { l with hasRef := true })

/-- WATCH_COMPARE: the luma of the frame against the reference; above the threshold a wake with cause 3, else the end of the cycle. -/
def Chip.compare (c : Chip) : Chip :=
  match c.lh.watchStream with
  | none => c
  | some d =>
    if !c.lh.hasRef then (c.newReference d).endCycle else
    let n := d.w * d.h
    let sad := sadOf (c.basinRead [c.watchBank] (2 ^ 20 + 4096) n) (c.basinRead [c.watchBank] 4096 n)
    let c := c.updLh (fun l => { l with watchSad := BitVec.ofNat 32 sad, frameReady := false })
    if c.lh.watchThresh.toNat < sad then c.latchWake 3 0
    else (if c.lh.watchCfg.toNat.testBit 31 then c.newReference d else c).endCycle

/-- WATCH_CYCLE_TIMEOUT is due: the port is not secured within 250 ms, or no clean frame has closed within two input periods and 20 ms of
securing. -/
def Chip.watchLate (c : Chip) : Bool :=
  !c.por && c.lh.st == .watchCycle && c.lh.latched.isNone &&
    (match c.lh.securedAt, c.lh.watchStream with
    | none, _ => decide (c.lh.periodAt + 250000000 ≤ c.clk.lh)
    | some t, some d => !c.lh.frameReady && decide (t * d.fps + 2000000000 + 20000000 * d.fps < c.clk.lh * d.fps)
    | some _, none => false)

/-- WATCH_CYCLE_TIMEOUT: a wake with cause 4. -/
def Chip.watchFail (c : Chip) : Chip := (c.latchWake 4 0).lhErr 1

/-! ### The I2C wake target (R489) -/

/-- The state code of R489. -/
def LhState.code : LhState → Nat
  | .awake => 0 | .entering => 1 | .asleep => 2 | .watchIdle => 3 | .watchCycle => 4 | .waking => 5 | .tripped => 6

/-- The target matches an address: 0x58 plus the straps. -/
def Chip.i2cMatches (c : Chip) (address : Nat) : Bool := !c.por && decide (address = 0x58 + c.id.straps.i2c.toNat)

/-- A match: counted in every state, a wake event in those of R487. -/
def Chip.i2cMatch (address : Nat) (c : Chip) : Chip := (c.updLh (fun l => { l with i2cMatches := satInc l.i2cMatches })).latchWake 1 address

/-- The status byte. -/
def Chip.i2cStatus (c : Chip) : Byte :=
  BitVec.ofNat 8 (c.lh.st.code * 32 + b2n c.lh.latched.isSome * 16 + c.lh.lastWake.toNat / 2 ^ 28)

/-- I2C_STATUS_READ. -/
def Chip.i2cRead (c : Chip) : Chip := c.updLh (fun l => { l with i2cData := c.i2cStatus })

/-! ### Wake (R492, R493) -/

/-- WAKE can occur: a wake is latched and the core die is down. -/
def Chip.canWake (c : Chip) : Bool := !c.por && c.lh.latched.isSome && (c.resting || (c.lh.st == .waking && !c.lh.pgFailed))

/-- WAKE_PG_RETRY is due: 100 ms after power good failed. -/
def Chip.canRetryWake (c : Chip) : Bool :=
  !c.por && c.lh.st == .waking && c.lh.pgFailed && decide (c.lh.periodAt + 100000000 ≤ c.clk.lh)

/-- Step 1: the wake is recorded; one latched during entry has been. -/
def Chip.recordWake (c : Chip) : Chip :=
  match c.lh.latched with
  | some (cause, detail) => if c.lh.st == .waking then c else
    c.updLh (fun l => { l with lastWake := wakeRecord cause detail (if l.watch then 2 else 1) false })
  | none => c

/-- Power good does not come: the step is retried. -/
def Chip.wakeFails (c : Chip) : Chip :=
  c.updLh (fun l => { l with st := .waking, pgFailed := true, periodAt := c.clk.lh, err := setBit l.err 2 })

/-- Device time after a sleep: the value saved at entry and the Lighthouse ticks since, in nanoseconds. -/
def Chip.wokenTime (c : Chip) : Nat :=
  c.lh.savedDev + (c.ticks - c.lh.savedLh * 32768 / 1000000000) * 1000000000 / 32768

/-- The interrupt controller as sleep kept it; its routes are those of R376 until the structure is re-applied. -/
def Chip.restoreIc (k : Option IcKept) (c : Chip) : Chip :=
  match k with
  | some k => c.updIc (fun ic => { ic with mask := k.mask, count := k.count, stack := k.stack, last := k.last })
  | none => c

/-- The stored structure is intact: the slot of the store region that holds it hashes to CFG_STORE_HASH (R57). -/
def Chip.storedIntact (c : Chip) : Bool :=
  match c.cfg.kept with
  | none => false
  | some s =>
    let m := c.updMc (fun m => { m with table := m.copy })
    sha256 (m.dramRead ((s.regionAt s.store).1 + c.cfg.storeSlot * 8 * 2 ^ 20) s.storedSize) == c.cfg.storeHash

/-- Step 7: the stored structure waits for the first boundary, or STATE is DISCARDED with code 0x12 (R57). -/
def Chip.reloadStructure (sealedSets : List Nat) (c : Chip) : Chip :=
  match c.cfg.kept with
  | some s =>
    if c.storedIntact then c.updCfg (fun g => { g with
      state := .pending
      sealedSets := sealedSets
      pend := some { full := true, str := s, delta := {}, endedAt := c.clk.ref - 1000000 } })
    else c.reportDiscard true
  | none => c.reportDiscard true

/-- The wake sequence from power good on. The interrupt controller is as sleep kept it before the boot can raise a source (R382), and
NETBOOT is kept (R442). -/
def State.wakeUp (ctrlErr : Bool) (trained : List Sys2Proof.TrainResult) (s : State) : State :=
  let old := s.chip.recordWake
  let errs := old.lh.err
  let c := ((old.restarted s.fuses).updClk (fun k => { k with dev := old.wokenTime })).updCfg (fun g => { g with next := .wake })
  let c := (c.restoreIc old.ic.kept).updHm (fun h => { h with netboot := old.hm.netboot })
  let s := { s with chip := c.regateReset }.boot ctrlErr
  let c := s.chip.trainAll 2 trained
  let c := if errs.toNat.testBit 0 then c.lhErr 0 else c
  let c := if errs.toNat.testBit 1 then c.updLh (fun l => { l with err := setBit l.err 1 }) else c
  let c := if errs.toNat.testBit 2 then c.lhErr 2 else c
  { s with chip := c.reloadStructure old.cfg.sealedSets }

/-- WAKE: the core rail is switched on at 0.60 V, and the sequence goes on with power good. -/
def State.wake (power : Sys2Proof.CoreUp) (trained : List Sys2Proof.TrainResult) (s : State) : State :=
  let s := { s with chip := s.chip.coreOn }
  if power.good then s.wakeUp power.ctrlErr trained else { s with chip := s.chip.recordWake.wakeFails }

/-! ### BOOT and power-on reset (R443, R494, R535, R538, R539) -/

/-- BOOT after a reset: the ROM's checks, and the DRAM channels' training. -/
def State.bootUp (ctrlErr : Bool) (trained : List Sys2Proof.TrainResult) (s : State) : State :=
  let s := s.boot ctrlErr
  { s with chip := s.chip.trainAll (if s.chip.cfg.next == .powerOn then 1 else 2) trained }

/-- POR_N falls, or a Lighthouse supply drops: the whole package is in power-on reset, DRAM is lost; a flash rewrite in progress leaves the
flash invalid (R449). -/
def State.porAsserted (s : State) : State :=
  let c := s.chip
  let flash := if c.hm.upd == .rewriting then { s.flash with mem := s.flash.mem.clear 0 fwMax } else s.flash
  { s with flash := flash, chip := { Chip.powerOn s.fuses c.id.straps with por := true, draws := c.draws, tx := c.tx } }

/-- The internal reset is released with the straps sampled. -/
def State.porReleased (role : Byte) (i2c : BitVec 2) (testMode : Bool) (s : State) : State :=
  let c := s.chip
  { s with chip := { Chip.powerOn s.fuses { role := role, i2c := i2c, testMode := testMode } with draws := c.draws, tx := c.tx } }

end Sys2Proof.Machine
end

