-- ==== Sys2Proof/Machine/RegRead.lean ====
section
/-! DEFINITION. What a read of a register returns (R4 to R16 and the register tables of every chapter). none: the address holds no
register, or its domain is off (R8, R12, R15). -/

namespace Sys2Proof.Machine

/-! ### Words -/

/-- A number as a register word. -/
def w32 (n : Nat) : Word := BitVec.ofNat 32 n

/-- Bits 31:0 and 63:32 of a 64-bit value. -/
def loOf (n : Nat) : Word := BitVec.ofNat 32 n
def hiOf (n : Nat) : Word := BitVec.ofNat 32 (n / 2 ^ 32)

/-- Word i of 32 of a bit set. -/
def bitWord (p : Nat → Bool) (i : Nat) : Word :=
  w32 ((List.range 32).foldl (fun a b => a + (if p (32 * i + b) then 2 ^ b else 0)) 0)

/-- The words of a table at a base with a stride: the index and the offset within the entry. -/
def inTable (base stride count off : Nat) : Option (Nat × Nat) :=
  if base ≤ off && off < base + stride * count then some ((off - base) / stride, (off - base) % stride) else none

/-- A word array. -/
def wordsAt (base count off : Nat) : Option Nat := (inTable base 4 count off).map (·.1)

/-- A port address as the words of R550. -/
def macLo (m : Mac) : Word := w32 (fieldAt (toBe 6 m.toNat) 0 4)
def macHi (m : Mac) : Word := w32 (fieldAt (toBe 6 m.toNat) 4 2)

/-! ### CFG (R19) -/

/-- Spares available: physical arrays neither fused off, retired, mapped nor promised. -/
def Chip.spares (c : Chip) : Nat :=
  ((List.range 34).filter (fun p =>
    !c.id.arrayFused.toNat.testBit p && !c.oc.failed.toNat.testBit p &&
      !(List.range 32).any (fun n =>
        let m := vget {} c.oc.map n
        (m.valid && m.phys == p) || (m.pending && m.nextPhys == p)))).length

def Chip.readCfg (c : Chip) (o : Nat) : Option Word :=
  let g := c.id.grade
  match o with
  | 0x0000 => some 0xA6A0
  | 0x0004 => some (w32 c.cfgDevice)
  | 0x0010 => some (w32 (g.arrays + c.spares * 2 ^ 8))
  | 0x0014 => some (w32 (g.channels + g.channels / 4 * 2 ^ 8))
  | 0x0018 => some (w32 (g.channels * 7680))
  | 0x001C => some (w32 (g.ports + g.outputs * 2 ^ 4 + g.streams * 2 ^ 8))
  | 0x0100 => some 0
  | 0x0104 => some c.cfg.imgLen
  | 0x0108 => some c.imgStatus
  | 0x010C => some (w32 c.cfg.errCode)
  | 0x0110 => some c.cfg.errOff
  | 0x0114 => some c.cfg.clampCount
  | 0x0118 => some c.cfg.clampOff
  | 0x0120 => some (loOf c.str.serial)
  | 0x0124 => some (hiOf c.str.serial)
  | 0x0128 => some c.cfg.applyCycle
  | _ => (wordsAt 0x0130 8 o).map (hashWord c.cfg.storeHash)

/-! ### QY (R93 to R98) -/

def Chip.readPort (c : Chip) (p o : Nat) : Option Word :=
  let t := c.port p
  match o with
  | 0x00 => some (w32 (b2n t.role + 2 * b2n t.down))
  | 0x04 => some (c.portStatus p)
  | 0x08 => some (macLo (c.portMac p))
  | 0x0C => some (macHi (c.portMac p))
  | 0x10 => some t.rxOk
  | 0x14 => some t.dropSec
  | 0x18 => some t.dropFmt
  | 0x1C => some t.dropOvf
  | 0x20 => some t.cbs
  | 0x24 => some t.replay
  | _ => none

def Chip.readStream (c : Chip) (s o : Nat) : Option Word :=
  let q := c.stream s
  match o with
  | 0x00 => some q.ctl
  | 0x04 => some (c.streamStatus s)
  | 0x08 => some (loOf q.frame)
  | 0x0C => some (hiOf q.frame)
  | 0x10 => some q.skipped
  | 0x14 => some q.lossUnits
  | 0x18 => some q.latePkt
  | 0x1C => some q.slotBusy
  | 0x20 => some (loOf q.capt)
  | 0x24 => some (hiOf q.capt)
  | 0x28 => some (loOf q.close)
  | 0x2C => some (hiOf q.close)
  | 0x30 => some q.grace
  | 0x34 => some q.evidHead
  | 0x38 => some q.fmtErr
  | 0x3C => some q.wrongPort
  | _ => none

def Chip.readQy (c : Chip) (o : Nat) : Option Word :=
  match o with
  | 0x0000 => some (w32 ((List.range c.id.grade.ports).foldl (fun a p =>
      a + b2n (c.port p).link * 2 ^ p + b2n (c.port p).secured * 2 ^ (8 + p)) 0))
  | 0x0004 => some c.qy.err
  | 0x0100 => some c.timeStatus
  | 0x0104 => some (loOf c.clk.dev)
  | 0x0108 => some c.qy.nowHi
  | 0x010C => some c.qy.offset
  | 0x0110 => some c.qy.steps
  | 0x0114 => some c.qy.outliers
  | _ =>
    match inTable 0x1000 0x100 c.id.grade.ports o, inTable 0x8000 0x40 256 o with
    | some (p, r), _ => c.readPort p r
    | none, some (s, r) => c.readStream s r
    | none, none => none

/-! ### OC and the per-array windows (R155 to R158) -/

/-- A logical array is idle-gated: it exists and its physical array's domain is off. -/
def Chip.arrayOff (c : Chip) (n : Nat) : Bool :=
  let m := vget {} c.oc.map n
  !m.valid || c.isOff m.phys

def ArrMap.word (m : ArrMap) : Word := w32 (b2n m.valid * 2 ^ 31 + b2n m.pending * 2 ^ 16 + m.nextPhys * 2 ^ 8 + m.phys)

def Chip.readOc (c : Chip) (o : Nat) : Option Word :=
  match o with
  | 0x0000 => some (bitWord (fun n => (vget {} c.oc.map n).valid && c.arrayOff n) 0)
  | 0x0004 => some (bitWord (fun n => (c.arr n).st == .run || (c.arr n).st == .save) 0)
  | 0x0008 => some (w32 c.oc.failed.toNat)
  | 0x000C => some (hiOf c.oc.failed.toNat)
  | 0x0010 => some (w32 c.id.arrayFused.toNat)
  | 0x0014 => some (hiOf c.id.arrayFused.toNat)
  | 0x0020 => some c.oc.substCount
  | 0x0024 => some c.oc.err
  | _ => (wordsAt 0x0100 32 o).map (fun n => (vget {} c.oc.map n).word)

def ArrState.code : ArrState → Nat
  | .idle => 0 | .run => 1 | .wait => 2 | .save => 3 | .restore => 4

/-- AR_STATUS (R158): CONTEXT and QUEUE also of the descriptor that a save or restore moves; OPCODE only of one in execution (log 114). -/
def Arr.status (a : Arr) : Word :=
  let opcode := match a.cur with | some k => dOpcode k.d.bytes | none => 0
  match a.cur.or a.transfer with
  | some k => w32 (k.d.ctx * 2 ^ 24 + opcode * 2 ^ 16 + (if k.be then 2 else 1) * 2 ^ 8 + a.st.code)
  | none => w32 a.st.code

/-- ACLK cycles spent executing, saving or restoring. -/
def Arr.busy (a : Arr) : Nat := a.busyK / 1000

def Chip.readArr (c : Chip) (n o : Nat) : Option Word :=
  let a := c.arr n
  match o with
  | 0x00 => some a.status
  | 0x04 => some (w32 (min 256 (a.depth false)))
  | 0x08 => some (w32 (min 256 (a.depth true)))
  | 0x10 => some (w32 (match a.cur with | some k => k.pass | none => 0))
  | 0x14 => some (w32 (match a.cur with | some k => descPasses k.d.bytes | none => 0))
  | 0x18 => some a.descDone
  | 0x1C => some a.preempts
  | 0x20 => some (loOf a.busy)
  | 0x24 => some a.busyHi
  | 0x30 => some a.err
  | 0x34 => some a.errInfo
  | 0x38 => some (loOf a.errAddr.toNat)
  | 0x3C => some (hiOf a.errAddr.toNat)
  | 0x40 => some a.sramCorr
  | _ => (wordsAt 0x80 16 o).map (fun i => match a.cur with
    | some k => w32 (fieldAt (clampDesc k.d.bytes) (4 * i) 4)
    | none => 0)

/-! ### FG (R249 to R251) -/

/-- FG_STREAM_STATUS[s]. -/
def Chip.fgStatus (c : Chip) (s : Nat) : Word :=
  let g := c.fgs s
  let d := c.str.stream s
  let run := fun (on : StreamDecl → Bool) => b2n (d.any (fun d => d.active && on d && c.ctxRunnable d.ctx))
  let cold := fun (settled : Bool) => b2n (d.any (fun d => d.active && (if settled then d.settled else d.live) && c.coldNow d settled))
  w32 (min 255 g.live.anchors * 2 ^ 8 + b2n g.settled.parity * 2 ^ 5 + b2n g.live.parity * 2 ^ 4 + cold true * 2 ^ 3 + cold false * 2 ^ 2 +
    run (·.settled) * 2 + run (·.live))

/-- An instant as its two words; all ones where there is none. -/
def instLo (j : Option Nat) : Word := match j with | some j => loOf j | none => 0xFFFFFFFF
def instHi (j : Option Nat) : Word := match j with | some j => hiOf j | none => 0xFFFFFFFF

def Chip.readFgs (c : Chip) (s o : Nat) : Option Word :=
  let g := c.fgs s
  match o with
  | 0x00 => some g.ctl
  | 0x04 => some (c.fgStatus s)
  | 0x08 => some (instLo g.live.lastJ)
  | 0x0C => some (instHi g.live.lastJ)
  | 0x10 => some (instLo g.settled.lastJ)
  | 0x14 => some (instHi g.settled.lastJ)
  | 0x18 => some g.repDeadline
  | 0x1C => some g.repInput
  | 0x20 => some g.setLate
  | 0x24 => some g.coldCount
  | 0x28 => some (loOf g.refCapt)
  | 0x2C => some (hiOf g.refCapt)
  | 0x30 => some g.slack
  | _ => none

def Chip.readFg (c : Chip) (o : Nat) : Option Word :=
  match o with
  | 0x0000 => some (w32 ((c.tt.steps.filter (fun s => s.subj.isFrame)).length + c.fg.packs.length))
  | 0x0004 => some c.fg.err
  | 0x0008 => some (loOf c.fg.px)
  | 0x000C => some c.fg.pxHi
  | _ => (inTable 0x1000 0x40 256 o).bind (fun x => c.readFgs x.1 x.2)

/-! ### SV (R284, R285) -/

def SeqState.code : SeqState → Nat
  | .vision => 1 | .prefill => 2 | .decode => 3 | .ending => 4

def Chip.readSeq (c : Chip) (i o : Nat) : Option Word :=
  let q := c.sv.seqs.find? (fun s => s.entry == i)
  match o with
  | 0x0 => some (match q with | some s => w32 (s.vdone * 2 ^ 4 + s.st.code) | none => 0)
  | 0x4 => some (match q with | some s => s.q.id | none => 0)
  | 0x8 => some (match q with | some s => w32 (s.positions % 2 ^ 16 + s.generated * 2 ^ 16) | none => 0)
  | 0xC => some (match q with | some s => w32 (s.q.ctx + s.reserved * 2 ^ 8) | none => 0)
  | _ => none

/-- SV_KV_FREE: the unreserved blocks, summed over the serving contexts. -/
def Chip.kvFree (c : Chip) : Nat :=
  c.str.ctxs.foldl (fun a d => a + (match c.svHdr d.id with | some h => c.poolFree h | none => 0)) 0

def Chip.readSv (c : Chip) (o : Nat) : Option Word :=
  match o with
  | 0x0000 => some (w32 (c.sv.seqs.length + c.sv.queue.length * 2 ^ 16))
  | 0x0004 => some c.sv.err
  | 0x0008 => some c.sv.budget
  | 0x000C => some c.sv.chunk
  | 0x0010 => some 0
  | 0x0014 => some c.sv.lastRows
  | 0x0018 => some c.sv.lastUs
  | 0x001C => some (w32 c.kvFree)
  | 0x0020 => some (loOf c.sv.steps)
  | 0x0024 => some c.sv.stepsHi
  | 0x0028 => some (loOf c.sv.tokens)
  | 0x002C => some c.sv.tokensHi
  | 0x0030 => some c.sv.reject
  | _ => (inTable 0x4000 0x10 1024 o).bind (fun x => c.readSeq x.1 x.2)

/-! ### TT (R322 to R325) -/

def PartState.code : PartState → Nat
  | .absent => 0 | .run => 1 | .reset => 2

def CtxState.code : CtxState → Nat
  | .absent => 0 | .idle => 1 | .running => 2 | .blocked => 3 | .swapped => 4 | .swapOut => 5 | .swapIn => 6 | .faulted => 7 | .restarting => 8

/-- TT_PART_STATE[p]. -/
def Chip.partWord (c : Chip) (p : Nat) : Word :=
  let slow := (c.streamsOf p).filter (fun d => c.degraded d.idx)
  let arrays := bitList 32 (vget 0 c.tt.mask p).toNat
  let gives := c.tt.drains.any (fun d => d.donor == p)
  let takes := c.tt.drains.any (fun d => d.donee == some p)
  w32 (slow.length * 2 ^ 16 + arrays.length * 2 ^ 8 + b2n takes * 2 ^ 5 + b2n gives * 2 ^ 4 + (vget .absent c.tt.pst p).code)

/-- TT_CTX_STATE[c]. -/
def Chip.ctxWord (c : Chip) (x : Nat) : Word :=
  let k := c.ctx x
  w32 (k.berth.getD 255 * 2 ^ 24 + k.fault % 256 * 2 ^ 8 + k.st.code)

/-- TT_BERTH[b]. -/
def Berth.word (b : Berth) : Word :=
  match b.occ with
  | some x => w32 (b.xfer * 2 ^ 16 + 2 ^ 8 + x)
  | none => w32 (b.xfer * 2 ^ 16)

def Chip.readTt (c : Chip) (o : Nat) : Option Word :=
  match o with
  | 0x0000 => some (w32 (c.str.tide.length * 2 ^ 16 + b2n (c.cfg.applied.isSome && c.qy.tst != .free) * 2 ^ 15 + c.tt.next % 2 ^ 14))
  | 0x0004 => some c.tt.err
  | 0x0008 => some (match c.cfg.applied with | some s => w32 s.cycle | none => 0)
  | 0x000C => some (loOf c.tt.cycles)
  | 0x0010 => some c.tt.cyclesHi
  | 0x0014 => some c.tt.quantum
  | 0x0018 => some c.tt.overruns
  | 0x001C => some c.tt.skipped
  | 0x0020 => some c.tt.realigns
  | 0x0024 => some c.tt.swaps
  | 0x0028 => some 0
  | 0x002C => some 0
  | _ =>
    match wordsAt 0x0100 8 o, wordsAt 0x0120 8 o, wordsAt 0x0200 8 o, wordsAt 0x0300 16 o with
    | some p, _, _, _ => some (vget 0 c.tt.mask p)
    | none, some p, _, _ => some (c.partWord p)
    | none, none, some i, _ => some (bitWord (fun s => c.degraded s) i)
    | none, none, none, some b => some (c.berth b).word
    | none, none, none, none => (wordsAt 0x1000 256 o).map c.ctxWord

/-! ### MC, BS and the region table (R343, R355 to R360) -/

def ChPower.code : ChPower → Nat
  | .active => 0 | .powerDown => 1 | .selfRefresh => 2 | .training => 3 | .held => 2

/-- MC_CH_STATUS[n] (R356). -/
def Chip.chanWord (c : Chip) (n : Nat) : Word :=
  let h := c.chan n
  let owner := match c.str.parts.find? (fun p => p.chans.toNat.testBit n) with | some p => p.id | none => 255
  w32 (b2n h.lost * 2 ^ 31 + h.cause * 2 ^ 28 + h.power.code * 2 ^ 16 + h.refRate.toNat * 2 ^ 8 + owner)

/-- MC_USED_SLOTS[n]: slots of the channel that hold an entry. -/
def Chip.usedSlots (c : Chip) (n : Nat) : Nat :=
  c.mc.table.foldl (fun a e => a + b2n (e.2.pch == n && !e.2.plost) + b2n (e.2.repl && e.2.rch == n && !e.2.rlost)) 0

def Chip.readChan (c : Chip) (n o : Nat) : Option Word :=
  let h := c.chan n
  match o with
  | 0x00 => some (c.chanWord n)
  | 0x04 => some h.corr
  | 0x08 => some h.uncorr
  | 0x0C => some h.retrains
  | 0x10 => some (w32 (h.scrubPasses * 2 ^ 16 + h.scrubSlot))
  | 0x14 => some h.badCount
  | 0x18 => some (w32 (c.usedSlots n))
  | 0x1C => some (w32 (min 0xFFFFFFFF (h.lowNs / 1000)))
  | _ => none

def Chip.readMc (c : Chip) (o : Nat) : Option Word :=
  match o with
  | 0x0000 => some (bitWord (fun n => if n < 16 then decide (n < c.id.grade.channels) && (c.chan n).trained && !(c.chan n).lost
      else (c.chan (n - 16)).lost) 0)
  | 0x0004 => some c.mc.err
  | 0x0008 => some c.mc.ctl
  | 0x000C => some c.mc.scrubPeriod
  | 0x0010 => some c.leastTol
  | 0x0014 => some (w32 (c.mc.table.filter (fun e => e.2.withdrawn)).length)
  | 0x0040 => some (loOf c.mc.errAddr)
  | 0x0044 => some (hiOf c.mc.errAddr)
  | 0x0048 => some c.mc.errInfo
  | 0x004C => some c.mc.errStep
  | 0x0050 => some (loOf c.mc.violAddr.toNat)
  | 0x0054 => some (hiOf c.mc.violAddr.toNat)
  | 0x0058 => some c.mc.violInfo
  | _ =>
    match wordsAt 0x0020 8 o, inTable 0x1000 0x40 c.id.grade.channels o with
    | some i, _ => some (hashWord c.mc.tableHash i)
    | none, some (n, r) => c.readChan n r
    | none, none => (wordsAt 0x4000 (256 * c.id.grade.channels) o).map (fun i => (assoc (i % 256) (c.chan (i / 256)).badList).getD 0)

/-- BS_BANK[b]. -/
def Chip.bankWord (c : Chip) (b : Nat) : Word :=
  let owner := c.str.parts.find? (fun p => p.banks.toNat.testBit b)
  w32 (b2n (!c.isOff (34 + b)) * 2 ^ 31 + b2n owner.isSome * 2 ^ 30 + (match owner with | some p => p.id | none => 0) * 2 ^ 24 +
    (vget {} c.bs.bank b).spares * 2 ^ 16)

def Chip.readBs (c : Chip) (o : Nat) : Option Word :=
  match o with
  | 0x0000 => some (bitWord (fun b => !c.isOff (34 + b)) 0)
  | 0x0004 => some c.bs.err
  | 0x0008 => some c.bs.ctl
  | 0x000C => some c.bs.scrubPeriod
  | 0x0010 => some (w32 c.bs.errAddr)
  | 0x0014 => some c.bs.errInfo
  | 0x0018 => some c.bs.errStep
  | _ =>
    match wordsAt 0x0100 32 o with
    | some b => some (c.bankWord b)
    | none => (wordsAt 0x0200 32 o).map (fun b => (vget {} c.bs.bank b).corr)

/-! ### SY and IC (R383 to R386) -/

def Chip.readSy (c : Chip) (o : Nat) : Option Word :=
  match o with
  | 0x0000 => some (w32 c.sy.waiters.length)
  | 0x0004 => some c.sy.err
  | 0x0008 => some (w32 c.sy.objs.length)
  | 0x000C => some (w32 c.sy.peak)
  | 0x0010 => some 0
  | 0x0014 => some 0
  | 0x0018 => some c.sy.refused
  | _ => (inTable 0x1000 0x10 256 o).bind (fun x =>
    let w := vget {} c.sy.watch x.1
    match x.2 with
    | 0x0 => some w.obj
    | 0x4 => some w.thresh
    | 0x8 => some w.step
    | _ => none)

/-- SY_OBJ_META[n] (R384). -/
def Chip.objMeta (c : Chip) (n : Nat) : Word :=
  match c.obj n with
  | none => 0
  | some x => w32 (2 ^ 31 + b2n x.peer * 2 ^ 30 + x.signaller % 8 * 2 ^ 27 + (c.sy.waiters.filter (fun w => w.obj == n)).length * 2 ^ 14 +
      x.owner % 256)

/-- The object range. -/
def Chip.readObj (c : Chip) (o : Nat) : Option Word :=
  match o % 8 with
  | 0 => some (match c.obj (o / 8) with | some x => x.value | none => 0)
  | 4 => some (c.objMeta (o / 8))
  | _ => none

/-- IC_RUNNING[t]. -/
def runningWord (st : List Nat) : Word := w32 (st.length * 2 ^ 16 + b2n st.isEmpty * 2 ^ 8 + st.headD 0)

/-- IC_TARGET[n] (R386). -/
def Route.word (r : Route) : Word := w32 (b2n r.watch * 2 ^ 12 + r.prio * 2 ^ 8 + r.target)

def Chip.readIc (c : Chip) (o : Nat) : Option Word :=
  match o with
  | 0x0000 => some c.ic.status
  | 0x0004 => some c.ic.err
  | 0x0008 => some c.ic.evtSeq
  | 0x000C => some 0
  | _ =>
    match wordsAt 0x0100 32 o, wordsAt 0x0200 32 o, inTable 0x0400 0x10 5 o, wordsAt 0x1000 1024 o with
    | some i, _, _, _ => some (vget 0 c.ic.mask i)
    | none, some i, _, _ => some (bitWord (fun n => c.ic.pending n) i)
    | none, none, some (t, r), _ =>
      (match r with
      | 0x0 => some 0
      | 0x4 => some (vget 0xFFFF c.ic.claimed t)
      | 0x8 => some 0
      | _ => some (runningWord (vget [] c.ic.stack t)))
    | none, none, none, some n => some (c.ic.routeOf n).word
    | none, none, none, none => (wordsAt 0x2000 1024 o).map (fun n => w32 (vget 0 c.ic.count n))

/-! ### SO (R405, R406) -/

def OutState.code : OutState → Nat
  | .off => 0 | .waitHpd => 1 | .training => 2 | .active => 3 | .failed => 4

def Chip.readOut (c : Chip) (n o : Nat) : Option Word :=
  let x := c.out n
  match o with
  | 0x00 => some x.ctl
  | 0x04 => some (w32 (x.st.code * 2 ^ 16 + x.lanes * 2 ^ 8 + x.rate * 2 ^ 4 + b2n x.hpd))
  | 0x08 => some x.evt
  | 0x0C => some x.frames
  | 0x10 => some x.underFrames
  | 0x14 => some x.underPx
  | 0x18 => some x.torn
  | 0x1C => some (c.latTol n)
  | 0x20 => some (c.soLine n)
  | _ => none

def Chip.readSo (c : Chip) (o : Nat) : Option Word :=
  match o with
  | 0x0000 => some (w32 ((List.range c.id.grade.outputs).foldl (fun a n =>
      a + b2n ((c.out n).st == .active) * 2 ^ n + b2n (c.out n).hpd * 2 ^ (4 + n)) 0))
  | _ =>
    match inTable 0x1000 0x100 c.id.grade.outputs o with
    | some (n, r) => c.readOut n r
    | none => (inTable 0x4000 0x10 64 o).bind (fun x =>
      let w := c.win x.1
      match x.2 with
      | 0x0 => some (w32 (b2n w.valid * 2 ^ 31 + b2n w.nosrc * 2 ^ 30 + b2n w.torn * 2 ^ 29 + w.output))
      | 0x4 => some (instLo w.inst)
      | 0x8 => some (instHi w.inst)
      | _ => none)

/-! ### HM and LG (R465 to R468) -/

def FwPhase.code : FwPhase → Nat
  | .idle => 0 | .verifying => 1 | .copied => 2 | .switching => 3 | .rewriting => 4

/-- HM_STATUS (R466). -/
def Chip.hmStatus (c : Chip) : Word :=
  w32 (c.id.ownerSlots.length * 2 ^ 8 + b2n c.hm.rngOk * 2 ^ 4 + b2n c.hm.debug * 2 ^ 3 + b2n c.hm.idReady * 2 ^ 2 + b2n c.hm.netboot * 2 +
    b2n c.hm.owner.isSome)

/-- HM_MKA_STATUS[p]: secured, the slot and the association number in use. -/
def Chip.mkaStatus (c : Chip) (p : Nat) : Word :=
  let t := c.port p
  w32 (b2n t.secured + t.cakSlot % 4 * 2 + t.sakAn % 256 * 2 ^ 8)

def Chip.readHm (c : Chip) (o : Nat) : Option Word :=
  match o with
  | 0x0000 => some c.hmStatus
  | 0x0004 => some c.hm.err
  | 0x0008 => some c.hm.bootCount
  | 0x000C => some c.hm.fwVersion
  | 0x0010 => some (w32 c.id.epoch)
  | 0x0014 => some c.hm.bootStatus
  | 0x0018 => some (w32 (b2n c.hm.updFailed * 2 ^ 8 + c.hm.upd.code))
  | 0x0120 => some 0
  | 0x0180 => some c.hm.rngFails
  | _ =>
    match wordsAt 0x0020 8 o, wordsAt 0x0040 8 o, wordsAt 0x0060 8 o, wordsAt 0x0100 8 o with
    | some i, _, _, _ => some (hashWord c.hm.fwHash i)
    | none, some i, _, _ => some (hashWord c.idHash i)
    | none, none, some i, _ => some (hashWord ((c.id.ownerSlots.getLast?).getD 0) i)
    | none, none, none, some p => some (c.mkaStatus p)
    | none, none, none, none => (wordsAt 0x0140 12 o).map (fun _ => 0)

def Chip.readLg (c : Chip) (o : Nat) : Option Word :=
  let l := c.lg
  match o with
  | 0x0000 => some (w32 (b2n l.genesis * 2 ^ 3 + b2n (!l.signing.isEmpty) * 2 ^ 2 + b2n (!l.rewrite.isEmpty) * 2 + b2n c.lgRegion.isSome))
  | 0x0004 => some l.err
  | 0x0008 => some (loOf l.index)
  | 0x000C => some l.indexHi
  | 0x0010 => some (loOf (l.ckpts - 1))
  | 0x0014 => some l.ckptHi
  | 0x0018 => some (w32 c.lgRecords)
  | 0x001C => some (w32 (2 ^ min 8 c.fg.packs.length - 1))
  | 0x0060 => some (loOf l.ckptTime)
  | 0x0064 => some l.ckptTimeHi
  | _ =>
    match wordsAt 0x0020 8 o with
    | some i => some (hashWord l.head i)
    | none => (wordsAt 0x0040 8 o).map (hashWord l.ckptHead)

/-! ### PM, LH and TM (R497 to R503) -/

def Chip.readPm (c : Chip) (o : Nat) : Option Word :=
  let p := c.pm
  match o with
  | 0x0000 => some (w32 (c.limit * 2 ^ 16 + b2n p.move.isSome * 2 ^ 8 + c.target * 2 ^ 4 + p.cur))
  | 0x0004 => some p.err
  | 0x0008 => some p.opReq
  | 0x000C => some p.cap
  | 0x0010 => some p.pmbus
  | 0x0014 => some p.vout
  | 0x0018 => some p.iout
  | 0x001C => some p.transitions
  | _ =>
    match wordsAt 0x0020 3 o with
    | some i => some (bitWord (fun d => !c.isOff d) i)
    | none => (wordsAt 0x0030 4 o).map (fun k => w32 (min 0xFFFFFFFF (vget 0 p.opNs k / 1000000)))

def Chip.readLh (c : Chip) (o : Nat) : Option Word :=
  let l := c.lh
  match o with
  | 0x0000 => some (w32 (b2n l.latched.isSome * 2 ^ 8 + c.id.straps.i2c.toNat))
  | 0x0004 => some l.err
  | 0x0008 => some 0
  | 0x000C => some l.lastWake
  | 0x0010 => some (loOf l.wakeTicks)
  | 0x0014 => some (hiOf l.wakeTicks)
  | 0x0018 => some (loOf c.ticks)
  | 0x001C => some l.ticksHi
  | 0x0020 => some l.watchCfg
  | 0x0024 => some l.watchPeriod
  | 0x0028 => some l.watchThresh
  | 0x002C => some l.watchSad
  | 0x0030 => some l.watchCycles
  | 0x0034 => some l.sleeps
  | 0x0038 => some l.i2cMatches
  | _ => none

/-- A signed reading in bits 10:0. -/
def reading (r : Int) : Nat := unsigned 11 r

def Chip.readTm (c : Chip) (o : Nat) : Option Word :=
  let t := c.tm
  match o with
  | 0x0000 =>
    let h := t.hottest.getD (0, 0)
    some (w32 (h.1 * 2 ^ 16 + t.cap * 2 ^ 12 + reading h.2))
  | 0x0004 => some t.err
  | 0x0008 => some t.hyst
  | 0x000C => some t.trips
  | 0x0010 => some t.peak
  | _ =>
    match wordsAt 0x0020 19 o with
    | some i =>
      let s := vget {} t.sensor i
      some (w32 (b2n s.fault * 2 ^ 31 + reading s.reading))
    | none => (wordsAt 0x0084 3 o).map (fun k => w32 (min 0xFFFFFFFF (vget 0 t.capNs (k + 1) / 1000000)))

/-! ### SN (R528, R529) -/

def Chip.readSn (c : Chip) (o : Nat) : Option Word :=
  let s := c.sn
  match o with
  | 0x0000 => some (w32 (s.detail % 2 ^ 14 * 2 ^ 16 + s.cause * 2 ^ 4 + b2n s.held))
  | 0x0004 => some s.evt
  | 0x0008 => some s.ctl
  | 0x000C => some 0
  | 0x0020 => some (loOf s.time)
  | 0x0024 => some (hiOf s.time)
  | 0x0028 => some s.cycle
  | 0x002C => some s.cyclePos
  | 0x0030 => some s.count
  | 0x0034 => some s.missed
  | 0x0080 => some s.page
  | _ =>
    match wordsAt 0x0010 4 o, wordsAt 0x0040 3 o, wordsAt 0x0050 4 o with
    | some i, _, _ => some (vget 0 s.trig i)
    | none, some i, _ => some (w32 (s.domains.toNat / 2 ^ (32 * i)))
    | none, none, some k => some (vget 0 s.restarts k)
    | none, none, none => (wordsAt 0x1000 1024 o).map (fun k => (assoc (s.page.toNat / 4096 * 4096 + 4 * k) s.latched).getD 0)

/-! ### PL (R432 to R435) -/

/-- PL_STATUS (R433). -/
def Chip.plStatus (c : Chip) : Word :=
  let present := (c.pl.peer.toList.filter (·.present)).length
  w32 (present * 2 ^ 16 + c.pl.deferred.length * 2 ^ 4 + b2n (c.pl.session.any (·.owned)) * 2 + b2n c.pl.session.isSome)

def Chip.readPeer (c : Chip) (i o : Nat) : Option Word :=
  let p := c.peer i
  match o with
  | 0x0 => some (macLo p.mac)
  | 0x4 => some (macHi p.mac)
  | 0x8 => some p.ctl
  | _ => some (w32 (b2n p.present * 2 ^ 31 + min 3 p.missed * 2 ^ 24 + (c.pl.reqs.filter (fun r => r.peer == i)).length % 128))

def Chip.readPl (c : Chip) (o : Nat) : Option Word :=
  let p := c.pl
  match o with
  | 0x0000 => some c.plStatus
  | 0x0004 => some p.err
  | 0x0008 => some p.qcpEtype
  | 0x000C => some p.pwpEtype
  | 0x0010 => some p.idle
  | 0x0014 => some p.reqTimeout
  | 0x0018 => some (match p.session with | some s => s.id | none => 0)
  | 0x001C => some p.next
  | 0x0020 => some p.drops
  | 0x0024 => some p.dups
  | 0x0028 => some (p.tokNext - 1)
  | 0x002C => some p.pwpDrops
  | 0x0030 => some p.reqFails
  | 0x0034 => some (match p.session with | some s => macLo s.mac | none => 0)
  | 0x0038 => some (match p.session with | some s => w32 (s.port * 2 ^ 16) ||| macHi s.mac | none => 0)
  | _ =>
    match inTable 0x1000 0x10 255 o with
    | some (i, r) => c.readPeer i r
    | none => (inTable 0x4000 0x10 256 o).bind (fun x =>
      let w := vget {} p.pub x.1
      match x.2 with
      | 0x0 => some w.decl
      | 0x4 => some w.off
      | 0x8 => some w.len
      | _ => some w.rate)

/-! ### The register space (R11 to R15) -/

/-- The domain of a block window; none for the Lighthouse, which is never off. -/
def windowDomain (w : Nat) : Option Nat :=
  match w with
  | 0x01 => some 89 | 0x02 => some 86 | 0x03 => some 87 | 0x0B => some 95 | 0x0C => some 88 | 0x0D => some 90 | 0x0E => some 92
  | 0x10 => none | 0x11 => some 93 | 0x12 => some 94 | _ => some 91

/-- The registers of a block window. -/
def Chip.readWindow (c : Chip) (w o : Nat) : Option Word :=
  match w with
  | 0x00 => c.readCfg o | 0x01 => c.readQy o | 0x04 => c.readOc o | 0x05 => c.readFg o | 0x06 => c.readSv o | 0x07 => c.readTt o
  | 0x08 => c.readMc o | 0x09 => c.readBs o | 0x0A => c.readSy o | 0x0B => c.readIc o | 0x0C => c.readSo o | 0x0D => c.readHm o
  | 0x0E => c.readLg o | 0x0F => c.readPm o | 0x10 => c.readLh o | 0x11 => c.readSn o | 0x12 => c.readPl o | 0x13 => c.readTm o
  | _ => none

/-- A register address: a block window, an array window, the object range or the region table. -/
inductive RegPlace where
  | block (w o : Nat)
  | array (n o : Nat)
  | object (o : Nat)
  | region (o : Nat)
  deriving DecidableEq, Repr

/-- Where an address lies; none where nothing is, or where it is not aligned (R8, R11, R12). -/
def Chip.regPlace (c : Chip) (addr : Nat) : Option RegPlace :=
  if addr % 4 ≠ 0 then none
  else if addr < 0x00140000 then some (.block (addr / 2 ^ 16) (addr % 2 ^ 16))
  else if 0x01000000 ≤ addr && addr < 0x01000000 + c.id.grade.arrays * 2 ^ 16 then some (.array (addr / 2 ^ 16 % 2 ^ 8) (addr % 2 ^ 16))
  else if 0x02000000 ≤ addr && addr < 0x02080000 then some (.object (addr - 0x02000000))
  else if 0x03000000 ≤ addr && addr < 0x03100000 then some (.region (addr - 0x03000000))
  else none

/-- What a read of an address returns, without its effects. -/
def Chip.regRead (c : Chip) (addr : Nat) : Option Word :=
  match c.regPlace addr with
  | none => none
  | some (.block w o) => if (windowDomain w).any c.isOff then none else c.readWindow w o
  | some (.array n o) => if c.arrayOff n then none else c.readArr n o
  | some (.object o) => c.readObj o
  | some (.region o) =>
    let v := match c.entry (o / 8) with | some e => e.word | none => 0
    if o % 8 = 0 then some (loOf v) else some (hiOf v)

/-- The value that a read of a register with latched bits holds for its upper word. -/
def Chip.latchOf (c : Chip) (addr : Nat) : Option (Word × (Word → Chip → Chip)) :=
  match c.regPlace addr with
  | some (.block 0x01 0x0104) => some (hiOf c.clk.dev, fun w => Chip.updQy (fun q => { q with nowHi := w }))
  | some (.block 0x05 0x0008) => some (hiOf c.fg.px, fun w => Chip.updFg (fun g => { g with pxHi := w }))
  | some (.block 0x06 0x0020) => some (hiOf c.sv.steps, fun w => Chip.updSv (fun v => { v with stepsHi := w }))
  | some (.block 0x06 0x0028) => some (hiOf c.sv.tokens, fun w => Chip.updSv (fun v => { v with tokensHi := w }))
  | some (.block 0x07 0x000C) => some (hiOf c.tt.cycles, fun w => Chip.updTt (fun t => { t with cyclesHi := w }))
  | some (.block 0x0E 0x0008) => some (hiOf c.lg.index, fun w => Chip.updLg (fun l => { l with indexHi := w }))
  | some (.block 0x0E 0x0010) => some (hiOf (c.lg.ckpts - 1), fun w => Chip.updLg (fun l => { l with ckptHi := w }))
  | some (.block 0x0E 0x0060) => some (hiOf c.lg.ckptTime, fun w => Chip.updLg (fun l => { l with ckptTimeHi := w }))
  | some (.block 0x10 0x0018) => some (hiOf c.ticks, fun w => Chip.updLh (fun l => { l with ticksHi := w }))
  | some (.array n 0x20) => some (hiOf (c.arr n).busy, fun w => Chip.updArr n (fun a => { a with busyHi := w }))
  | _ => none

/-- What a read of an address does: a register that latches its upper half latches it. -/
def Chip.regTouch (addr : Nat) (c : Chip) : Chip :=
  match c.latchOf addr with
  | some (w, f) => if (c.regRead addr).isSome then f w c else c
  | none => c

end Sys2Proof.Machine
end

