-- ==== Sys2Proof/Machine/Snap.lean ====
section
/-! DEFINITION. Snapshots (R523 to R530) and the shape of a meaning: a command's effect, then the triggers that it gave. -/

namespace Sys2Proof.Machine

/-- Bytes of a block window that hold registers. -/
def windowBytes (w : Nat) : Nat :=
  match w with
  | 0x01 => 0xC000 | 0x05 => 0x5000 | 0x06 => 0x8000 | 0x07 => 0x1400 | 0x08 => 0x8000 | 0x0A => 0x2000 | 0x0B => 0x3000 | 0x0C => 0x4400
  | 0x11 => 0x2000 | 0x12 => 0x5000 | _ => 0x300

/-- The register addresses that a snapshot covers: the block windows and the per-array windows. -/
def latchAddrs : List Nat :=
  (List.range 20).flatMap (fun w => (List.range (windowBytes w / 4)).map (fun k => w * 2 ^ 16 + 4 * k)) ++
    (List.range 32).flatMap (fun n => (List.range 48).map (fun k => 0x01000000 + n * 2 ^ 16 + 4 * k))

/-- What a read of each register returns, those that return 0 left out. -/
def Chip.latchValues (c : Chip) : List (Nat × Word) :=
  latchAddrs.filterMap (fun a => match c.regRead a with
    | some w => if w = 0 then none else some (a, w)
    | none => none)

/-- The domains that are on. -/
def Chip.domainsOn (c : Chip) : BitVec 96 :=
  (List.range 96).foldl (fun w d => if c.isOff d then w else w ||| BitVec.ofNat 96 (2 ^ d)) 0

/-- Nanoseconds into the major cycle; 0 before the first. -/
def Chip.cyclePos (c : Chip) : Nat := if c.tt.inCycle then c.clk.dev - c.tt.start else 0

/-- The trigger of a cause is enabled (R524, R530). Source triggers are tested as they are raised. -/
def Snap.enabled (s : Snap) (cause : Nat) : Bool :=
  match cause with
  | 1 => bitOf s.ctl.toNat 0
  | 2 => bitOf s.ctl.toNat 1
  | 3 => bitOf s.ctl.toNat 2
  | _ => true

/-- When SNAP_OUT's latest pulse begins after a trigger at a time (R526): at once, or once more after the pulse in progress and its low
time. -/
def pulseAt (now : Nat) : Option Nat → Nat
  | none => now
  | some p => if p + 2000 ≤ now then now else if p ≤ now then p + 2000 else p

/-- A trigger drives SNAP_OUT; one from SNAP_IN only with ECHO. -/
def Snap.drive (cause now : Nat) (s : Snap) : Snap :=
  if cause == 1 && !bitOf s.ctl.toNat 4 then s else { s with pulse := some (pulseAt now s.pulse) }

/-- The snapshot latches (R523, R525). -/
def Chip.latch (cause detail : Nat) (c : Chip) : Chip :=
  let values := c.latchValues
  (c.updSn (fun s => { s with
    held := true
    cause := cause
    detail := if cause == 3 || cause == 4 then detail else 0
    time := c.clk.dev
    cycle := loOf c.tt.cycles
    cyclePos := w32 c.cyclePos
    count := satInc s.count
    domains := c.domainsOn
    latched := values })).snEvt 0

/-- A trigger reaches the snapshot block: it latches, or is missed while a snapshot is held (R525). -/
def Chip.trigger (cause detail : Nat) (c : Chip) : Chip :=
  if !c.sn.enabled cause then c else
  let c := c.updSn (Snap.drive cause c.clk.ref)
  if c.sn.held then (c.updSn (fun s => { s with missed := satInc s.missed })).snEvt 1
  else c.latch cause detail

/-- The triggers that a command raised take effect; those that they raise in turn wait for the next command. -/
def Chip.settle (c : Chip) : Chip :=
  let asks := c.sn.ask
  let c := c.updSn (fun s => { s with ask := [] })
  if c.up then asks.foldl (fun c a => c.trigger a.1 a.2) c else c

/-- SN_RELEASE (R525, R529): the held snapshot is discarded. -/
def Chip.release (c : Chip) : Chip := c.updSn (fun s => { s with held := false, cause := 0, detail := 0, latched := [] })

/-- What follows the effect of every command: an anchor that waits for the journal is issued once it has room (R509), a context that the command
made runnable may enter a berth (R306), and the triggers that it raised take effect. -/
def Chip.follow (c : Chip) : Chip := { c.payLate.rouse.settle with met := [] }

/-- A command of the chip alone: the factory test state refuses it (R539), time passes, and where the command's precondition holds its
effect takes place (log 3), with what follows it. -/
def run (dt : When) (ok : Chip → Bool) (effect : Chip → Chip) (s : State) : Result :=
  if s.chip.id.straps.testMode then .refused .factoryTestState
  else
    let c := s.chip.arrive dt
    .next { s with chip := if ok c then (effect c).follow else { c with met := [] } }

/-- A command that reaches the fuses or the flash, likewise. -/
def runState (dt : When) (ok : State → Bool) (effect : State → State) (s : State) : Result :=
  if s.chip.id.straps.testMode then .refused .factoryTestState
  else
    let s := { s with chip := s.chip.arrive dt }
    .next (if ok s then (let t := effect s; { t with chip := t.chip.follow }) else { s with chip := { s.chip with met := [] } })

end Sys2Proof.Machine
end

