-- ==== Sys2Proof/Machine/ArrayCommands.lean ====
section
/-! DEFINITION. The meanings of the commands of descriptors on the arrays, waits, pre-emption and replay: for each, when it can occur and what it does. -/

namespace Sys2Proof.Machine

/-- MATMUL (R131) runs on an array. -/
def execMatmul (dt : When) (array : Nat) (errs : List HwErr) (s : State) : Result :=
  run dt (fun c => c.descReady array 1) (Chip.execute array errs) s

/-- CONV (R197) runs on an array. -/
def execConv (dt : When) (array : Nat) (errs : List HwErr) (s : State) : Result :=
  run dt (fun c => c.descReady array 2) (Chip.execute array errs) s

/-- DECONV (R201) runs on an array. -/
def execDeconv (dt : When) (array : Nat) (errs : List HwErr) (s : State) : Result :=
  run dt (fun c => c.descReady array 3) (Chip.execute array errs) s

/-- POOL (R209) runs on an array. -/
def execPool (dt : When) (array : Nat) (errs : List HwErr) (s : State) : Result :=
  run dt (fun c => c.descReady array 4) (Chip.execute array errs) s

/-- WARP (R214) runs on an array. -/
def execWarp (dt : When) (array : Nat) (errs : List HwErr) (s : State) : Result :=
  run dt (fun c => c.descReady array 5) (Chip.execute array errs) s

/-- VECTOR (R182) runs on an array. -/
def execVector (dt : When) (array : Nat) (errs : List HwErr) (s : State) : Result :=
  run dt (fun c => c.descReady array 6) (Chip.execute array errs) s

/-- NORM (R183) runs on an array. -/
def execNorm (dt : When) (array : Nat) (errs : List HwErr) (s : State) : Result :=
  run dt (fun c => c.descReady array 7) (Chip.execute array errs) s

/-- ATTEND (R275) runs on an array. -/
def execAttend (dt : When) (array : Nat) (errs : List HwErr) (s : State) : Result :=
  run dt (fun c => c.descReady array 8) (Chip.execute array errs) s

/-- EXPAND (R203) runs on an array. -/
def execExpand (dt : When) (array : Nat) (errs : List HwErr) (s : State) : Result :=
  run dt (fun c => c.descReady array 9) (Chip.execute array errs) s

/-- COPY (R210) runs on an array. -/
def execCopy (dt : When) (array : Nat) (errs : List HwErr) (s : State) : Result :=
  run dt (fun c => c.descReady array 10) (Chip.execute array errs) s

/-- WAIT is taken on an array (R368). -/
def execWait (dt : When) (array : Nat) (s : State) : Result := run dt (fun c => c.descReady array 11) (Chip.takeWait array) s

/-- SIGNAL is taken on an array (R142, R365). -/
def execSignal (dt : When) (array : Nat) (s : State) : Result := run dt (fun c => c.descReady array 12) (Chip.takeSignal array) s

/-- A descriptor of a reserved opcode (R145). -/
def execInvalidDescriptor (dt : When) (array : Nat) (s : State) : Result := run dt (fun c => c.invalidOk array) (Chip.invalid array) s

/-- A registered WAIT is satisfied (R368, R370). -/
def execWaitSatisfied (dt : When) (array : Nat) (ctx : Nat) (object : Nat) (s : State) : Result :=
  run dt (fun c => c.satOk array ctx object) (Chip.waitDone array ctx object) s

/-- A WAIT runs out of time (R370). -/
def execWaitTimeout (dt : When) (array : Nat) (ctx : Nat) (object : Nat) (s : State) : Result :=
  run dt (fun c => c.timeoutOk array ctx object) (Chip.waitTimeout array ctx object) s

/-- The descriptor in execution completes (R140). -/
def execDescriptorComplete (dt : When) (array : Nat) (s : State) : Result := run dt (fun c => c.completeOk array) (Chip.complete array) s

/-- A save ends (R152). -/
def execPreemptSaveDone (dt : When) (array : Nat) (pass : Nat) (s : State) : Result :=
  run dt (fun c => c.awake && (c.arr array).st == .save) (Chip.saveDone array pass) s

/-- A restore ends (R152). -/
def execRestoreDone (dt : When) (array : Nat) (s : State) : Result :=
  run dt (fun c => c.awake && (c.arr array).st == .restore) (Chip.restoreDone array) s

/-- A step is replayed (R513, R515). -/
def execStepReplay (dt : When) (step : Word) (s : State) : Result := run dt (fun c => c.replayOk step) (Chip.replayStep step) s

end Sys2Proof.Machine
end

