-- ==== Sys2Proof/Machine/EngineCommands.lean ====
section
/-! DEFINITION. The meanings of the commands of the motion and disparity engines: for each, when it can occur and what it does. -/

namespace Sys2Proof.Machine

/-- The motion engine takes its next job (R100). -/
def execMotionJobStart (dt : When) (fails : List Sys2Proof.JobErr) (s : State) : Result :=
  run dt (Chip.motionReady) (Chip.motionStart fails) s

/-- A motion field is written (R121). -/
def execMotionJobDone (dt : When) (s : State) : Result := run dt (fun c => c.awake && c.me.eng.run.isSome) (Chip.motionDone) s

/-- A left frame stays unpaired (R112). -/
def execDisparityPairTimeout (dt : When) (stream : Nat) (s : State) : Result :=
  run dt (fun c => c.awake && (c.pairLate stream).isSome) (Chip.pairTimeout stream) s

/-- The disparity engine takes its next job (R100). -/
def execDisparityJobStart (dt : When) (fails : List Sys2Proof.JobErr) (s : State) : Result :=
  run dt (Chip.dispReady) (Chip.dispStart fails) s

/-- A disparity map is written (R121). -/
def execDisparityJobDone (dt : When) (s : State) : Result := run dt (fun c => c.awake && c.sd.eng.run.isSome) (Chip.dispDone) s

end Sys2Proof.Machine
end

