-- ==== Sys2Proof/Machine/FrameCommands.lean ====
section
/-! DEFINITION. The meanings of the commands of frame generation: for each, when it can occur and what it does. -/

namespace Sys2Proof.Machine

/-- The stream whose LIVE gate is due. -/
def Chip.gateOf (c : Chip) (s : Nat) : Option StreamDecl := (c.str.stream s).filter (fun d => c.streamAlive d && ((c.gated d).isSome || (c.gatedOld d).isSome))

/-- The instant is written as a repeat; a context that was leaving may now have no step left. -/
def Chip.closeGate (s : Nat) (c : Chip) : Chip :=
  match c.gateOf s with
  | some d => ((c.liveGate d).finishLeaving d.ctx).schedule
  | none => c

/-- The stream whose LIVE instant misses its presentation. -/
def Chip.missOf (c : Chip) (s : Nat) : Option StreamDecl := (c.str.stream s).filter (fun d => c.streamAlive d &&
  ((c.missed d).isSome || (c.missedOld d).isSome || (c.packMissed d).isSome))

/-- The instant is written as a repeat; a context that was leaving may now have no step left. -/
def Chip.missLive (s : Nat) (c : Chip) : Chip :=
  match c.missOf s with
  | some d => ((c.liveMiss d).finishLeaving d.ctx).schedule
  | none => c

/-- The pack of a step that may finish, with its stream. -/
def Chip.packOf (c : Chip) (no : Word) : Option (Pack × StreamDecl) :=
  (c.fg.packs.find? (fun p => p.step == no && p.inTime c.clk.dev)).bind (fun p => (c.str.stream p.stream).map (fun d => (p, d)))

/-- The pack of a step finishes, or a read of its staging buffer has failed. -/
def Chip.endPack (no : Word) (fails : List Sys2Proof.JobErr) (c : Chip) : Chip :=
  match c.packOf no with
  | some (p, d) =>
    match Chip.packFails p fails c with
    | (c, true) => (c.updFg (fun g => { g with packs := g.packs.filter (fun x => x.step != p.step) })).schedule
    | (c, false) => (c.finishPack p d).schedule
  | none => c

/-- A frame step's inputs are signalled (R224 to R226, R229). -/
def execFgInputsReady (dt : When) (step : Word) (fails : List Sys2Proof.JobErr) (s : State) : Result :=
  run dt (fun c => c.awake && (c.step? step).any c.canBind) (Chip.fgInputs step fails) s

/-- The gate of a LIVE instant closes without its frame (R230). -/
def execLiveGate (dt : When) (stream : Nat) (s : State) : Result :=
  run dt (fun c => c.awake && (c.gateOf stream).isSome) (Chip.closeGate stream) s

/-- A LIVE instant misses its presentation (R231, R232). -/
def execLiveDeadlineMiss (dt : When) (stream : Nat) (s : State) : Result :=
  run dt (fun c => c.awake && (c.missOf stream).isSome) (Chip.missLive stream) s

/-- A pack finishes (R244). -/
def execPackDone (dt : When) (step : Word) (s : State) : Result :=
  run dt (fun c => c.awake && (c.packOf step).isSome) (Chip.endPack step dt.fails) s

end Sys2Proof.Machine
end

