-- ==== Sys2Proof/Machine/Regs.lean ====
section
/-! DEFINITION. What a write of a register does (R4 to R16 and the register tables): read-write fields, bits cleared by writing 1, writes that
trigger. A register of no listed effect is read-only, and a write of it is ignored (R5). -/

namespace Sys2Proof.Machine

/-- A field of n bits at bit 0 with its legal range: bits above it are reserved (R6), the rest is clamped (R7). -/
def field (n lo hi : Nat) (v : Word) : Word := w32 (clampNat lo hi (v.toNat % 2 ^ n))

/-- Replace one half of a 64-bit value. -/
def setLo (n : Nat) (v : Word) : Nat := n / 2 ^ 32 * 2 ^ 32 + v.toNat
def setHi (n : Nat) (v : Word) : Nat := v.toNat * 2 ^ 32 + n % 2 ^ 32

/-! ### CFG (R19, R24, R55) -/

/-- ABORT: a pending image is discarded, and so is one under validation, whose ADMIT is answered with code 0x12. -/
def Chip.abortImage (c : Chip) : Chip :=
  if c.cfg.state == .validating then
    (c.updCfg (fun g => { g with state := .discarded, errCode := 0x12, errOff := 0 })).finishDeferred (Deferred.is .admitImg) 0x12
      (errPayload 0 0)
  else c.discardImage

/-- CFG_IMG_CTL, its bits in ascending order. -/
def Chip.imgCtl (v : Word) (c : Chip) : Chip :=
  let c := if v.toNat.testBit 0 then c.takeImage else c
  if v.toNat.testBit 1 then c.abortImage else c

def Chip.writeCfg (o : Nat) (v : Word) (c : Chip) : Option Chip :=
  match o with
  | 0x0100 => some (c.imgCtl v)
  | 0x0104 => some (c.updCfg (fun g => { g with imgLen := v }))
  | _ => none

/-! ### QY (R93, R95, R96, R98) -/

/-- The event shaper's credit now, in bits times 10^9: it rises at the idle slope and never above 0 while nothing waits (R89). -/
def Port.creditNow (t : Port) (now : Nat) : Int := min 0 (t.credit + ((t.cbs.toNat * (now - t.creditAt) * 1000000 : Nat) : Int))

/-- Bring the shaper's credit up to date. -/
def Chip.dueCredit (p : Nat) (c : Chip) : Chip :=
  c.updPort p (fun t => { t with credit := t.creditNow c.clk.ref, creditAt := c.clk.ref })

def Chip.writePort (p o : Nat) (v : Word) (c : Chip) : Option Chip :=
  match o with
  | 0x00 => some (c.portCtl p v).regate
  | 0x20 => some ((c.dueCredit p).updPort p (fun t => { t with cbs := field 10 1 500 v }))
  | 0x24 => some (c.updPort p (fun t => { t with replay := v &&& 0xFF }))
  | _ => none

def Chip.writeStream (s o : Nat) (v : Word) (c : Chip) : Option Chip :=
  match o with
  | 0x00 => some (c.updStream s (fun q => { q with ctl := v &&& 7 }))
  | 0x30 => some (c.updStream s (fun q => { q with grace := field 14 0 10000 v }))
  | _ => none

def Chip.writeQy (o : Nat) (v : Word) (c : Chip) : Option Chip :=
  match o with
  | 0x0004 => some (c.updQy (fun q => { q with err := clearBits q.err v }))
  | _ =>
    match inTable 0x1000 0x100 c.id.grade.ports o, inTable 0x8000 0x40 256 o with
    | some (p, r), _ => c.writePort p r v
    | none, some (s, r) => c.writeStream s r v
    | none, none => none

/-! ### OC, arrays, FG, SV, TT (R155, R157, R249, R284, R322) -/

def Chip.writeOc (o : Nat) (v : Word) (c : Chip) : Option Chip :=
  match o with
  | 0x0024 => some (c.updOc (fun q => { q with err := clearBits q.err v }))
  | _ => none

def Chip.writeArr (n o : Nat) (v : Word) (c : Chip) : Option Chip :=
  match o with
  | 0x30 => some (c.updArr n (fun a => { a with err := clearBits a.err v }))
  | _ => none

def Chip.writeFg (o : Nat) (v : Word) (c : Chip) : Option Chip :=
  match o with
  | 0x0004 => some (c.updFg (fun q => { q with err := clearBits q.err v }))
  | _ =>
    match inTable 0x1000 0x40 256 o with
    | some (s, 0) => some (c.updFgs s (fun g => { g with ctl := v &&& 7 }))
    | _ => none

def Chip.writeSv (o : Nat) (v : Word) (c : Chip) : Option Chip :=
  match o with
  | 0x0004 => some (c.updSv (fun q => { q with err := clearBits q.err v }))
  | 0x0008 => some (c.updSv (fun q => { q with budget := field 13 64 4096 v }))
  | 0x000C => some (c.updSv (fun q => { q with chunk := field 11 128 1024 v }))
  | 0x0010 => some (c.cancelQuery v)
  | _ => none

/-- TT_PART_RESET (R313, R314): with GO set, a declared partition. -/
def Chip.partResetWrite (v : Word) (c : Chip) : Chip :=
  let p := v.toNat % 8
  if v.toNat.testBit 8 && (c.str.part p).isSome then c.partReset p else c

/-- The firmware may restart a context (R520): it faulted with code 0x07, 0x08 or 0x09 or by R517, and the firmware has not restarted it within
the last 10 s. -/
def Chip.fwMayRestart (c : Chip) (x : Nat) : Bool :=
  [0x07, 0x08, 0x09, 0x105].contains (c.ctx x).fault &&
    !c.tt.fwRestarts.any (fun r => r.1 == x && decide (c.clk.ref < r.2 + 10000000000))

/-- TT_CTX_RESTART (R312, R520): a FAULTED context restarts at the next boundary. -/
def Chip.ctxRestart (who : Master) (x : Nat) (c : Chip) : Chip :=
  if (c.ctx x).st != .faulted then c else
  let c' := c.updCtx x (fun k => { k with st := .restarting })
  match who with
  | .core _ =>
    if c.fwMayRestart x then
      c'.updTt (fun t => { t with fwRestarts := t.fwRestarts.filter (fun r => r.1 != x) ++ [(x, c.clk.ref)] })
    else c
  | _ => c'

def Chip.writeTt (o : Nat) (v : Word) (c : Chip) : Option Chip :=
  match o with
  | 0x0004 => some (c.updTt (fun q => { q with err := clearBits q.err v }))
  | 0x0014 => some (c.updTt (fun q => { q with quantum := field 10 1 1000 v }))
  | 0x0028 => some (c.partResetWrite v)
  | _ => none

/-! ### MC and BS (R355 to R360) -/

/-- MC_ERR_INFO: its fields clamped to what R357 reports. -/
def mcInfo (v : Word) : Word :=
  let n := v.toNat
  w32 (min 12 (n / 2 ^ 24) * 2 ^ 24 + n / 2 ^ 12 % 2 ^ 12 * 2 ^ 12 + min 2 (n / 2 ^ 8 % 16) * 2 ^ 8 + n % 2 ^ 8)

/-- MC_VIOL_INFO: its fields clamped to what R358 reports. -/
def violInfo (v : Word) : Word :=
  let n := v.toNat
  w32 (min 12 (n / 2 ^ 24) * 2 ^ 24 + n / 2 ^ 16 % 2 ^ 8 * 2 ^ 16 + min 5 (n % 2 ^ 8))

/-- BS_ERR_INFO: its fields clamped to what R360 reports. -/
def bsInfo (v : Word) : Word :=
  let n := v.toNat
  w32 (min 12 (n / 2 ^ 24) * 2 ^ 24 + n / 2 ^ 8 % 2 ^ 16 * 2 ^ 8 + min 5 (n % 2 ^ 8))

/-- Put a word into a sparse table of words that read 0. -/
def putWord (k : Nat) (v : Word) (l : List (Nat × Word)) : List (Nat × Word) := if v = 0 then assocDel k l else assocSet k v l

def Chip.writeChan (n o : Nat) (v : Word) (c : Chip) : Option Chip :=
  match o with
  | 0x08 => some (c.updChan n (fun h => { h with uncorr := v }))
  | 0x14 => some (c.updChan n (fun h => { h with badCount := field 9 0 256 v }))
  | _ => none

def Chip.writeMc (o : Nat) (v : Word) (c : Chip) : Option Chip :=
  match o with
  | 0x0004 => some (c.updMc (fun q => { q with err := clearBits q.err v }))
  | 0x0008 => some (c.updMc (fun q => { q with ctl := v &&& 7 }))
  | 0x000C => some (c.updMc (fun q => { q with scrubPeriod := field 8 1 168 v }))
  | 0x0040 => some (c.updMc (fun q => { q with errAddr := setLo q.errAddr v }))
  | 0x0044 => some (c.updMc (fun q => { q with errAddr := setHi q.errAddr (v &&& 0xFF) }))
  | 0x0048 => some (c.updMc (fun q => { q with errInfo := mcInfo v }))
  | 0x004C => some (c.updMc (fun q => { q with errStep := v }))
  | 0x0050 => some (c.updMc (fun q => { q with violAddr := BitVec.ofNat 64 (setLo q.violAddr.toNat v) }))
  | 0x0054 => some (c.updMc (fun q => { q with violAddr := BitVec.ofNat 64 (setHi q.violAddr.toNat v) }))
  | 0x0058 => some (c.updMc (fun q => { q with violInfo := violInfo v }))
  | _ =>
    match inTable 0x1000 0x40 c.id.grade.channels o, wordsAt 0x4000 (256 * c.id.grade.channels) o with
    | some (n, r), _ => c.writeChan n r v
    | none, some i => some (c.updChan (i / 256) (fun h => { h with badList := putWord (i % 256) (v &&& 0x80001FFF) h.badList }))
    | none, none => none

def Chip.writeBs (o : Nat) (v : Word) (c : Chip) : Option Chip :=
  match o with
  | 0x0004 => some (c.updBs (fun q => { q with err := clearBits q.err v }))
  | 0x0008 => some (c.updBs (fun q => { q with ctl := v &&& 1 }))
  | 0x000C => some (c.updBs (fun q => { q with scrubPeriod := field 12 1 3600 v }))
  | 0x0010 => some (c.updBs (fun q => { q with errAddr := v.toNat % 2 ^ 29 }))
  | 0x0014 => some (c.updBs (fun q => { q with errInfo := bsInfo v }))
  | 0x0018 => some (c.updBs (fun q => { q with errStep := v }))
  | _ => none

/-! ### SY and IC (R373, R378, R383, R385) -/

/-- Change watch i and judge it: one whose object is at its threshold raises at once (R373). -/
def Chip.setWatch (i : Nat) (f : Watch → Watch) (c : Chip) : Chip :=
  (c.updSy (fun y => { y with watch := vupd {} y.watch i f })).judgeWatch i

def Chip.writeWatch (i o : Nat) (v : Word) (c : Chip) : Option Chip :=
  match o with
  | 0x0 => some (c.setWatch i (fun w => { w with obj := v &&& 0x8000FFFF }))
  | 0x4 => some (c.setWatch i (fun w => { w with thresh := v }))
  | 0x8 => some (c.setWatch i (fun w => { w with step := v }))
  | _ => none

def Chip.writeSy (o : Nat) (v : Word) (c : Chip) : Option Chip :=
  match o with
  | 0x0004 => some (c.updSy (fun q => { q with err := clearBits q.err v }))
  | _ => (inTable 0x1000 0x10 256 o).bind (fun x => c.writeWatch x.1 x.2 v)

def Chip.writeIc (o : Nat) (v : Word) (c : Chip) : Option Chip :=
  match o with
  | 0x0004 => some (c.updIc (fun q => { q with err := clearBits q.err v }))
  | 0x000C => some (c.icSet v)
  | _ =>
    match wordsAt 0x0100 32 o, inTable 0x0400 0x10 5 o with
    | some i, _ => some (c.updIc (fun q => { q with mask := vset q.mask i v }))
    | none, some (t, 0x0) => some (c.updIc (IntCtl.claim t))
    | none, some (t, 0x8) => some (c.eoi t)
    | none, _ => none

/-! ### SO, PL, HM, LG (R405, R432, R465, R467) -/

/-- SO_OUT_CTL[n]: DOWN holds the link off or lets it come up again. -/
def Chip.outCtl (n : Nat) (v : Word) (c : Chip) : Chip :=
  let was := c.outWanted n
  let c := c.updOut n (fun o => { o with ctl := v &&& 0x11F })
  (if c.outWanted n == was then c else c.restartOut n).regate

def Chip.writeSo (o : Nat) (v : Word) (c : Chip) : Option Chip :=
  match inTable 0x1000 0x100 c.id.grade.outputs o with
  | some (n, 0x00) => some (c.outCtl n v)
  | some (n, 0x08) => some (c.updOut n (fun x => { x with evt := clearBits x.evt v }))
  | _ => none

def Chip.writePeer (i o : Nat) (v : Word) (c : Chip) : Option Chip :=
  match o with
  | 0x0 => some (c.updPeer i (fun p => { p with mac := BitVec.ofNat 48 (beNat (toLe 4 v.toNat ++ toLe 2 (macHi p.mac).toNat)) }))
  | 0x4 => some (c.updPeer i (fun p => { p with mac := BitVec.ofNat 48 (beNat (toLe 4 (macLo p.mac).toNat ++ toLe 2 v.toNat)) }))
  | 0x8 => some (c.peerCtl i v)
  | _ => none

def Chip.setPub (w : Nat) (f : Pub → Pub) (c : Chip) : Chip := c.updPl (fun p => { p with pub := vupd {} p.pub w f })

def Chip.writePub (w o : Nat) (v : Word) (c : Chip) : Option Chip :=
  match o with
  | 0x0 => some (c.setPub w (fun p => { p with decl := v &&& 0x80000FFF }))
  | 0x4 => some (c.setPub w (fun p => { p with off := v }))
  | 0x8 => some (c.setPub w (fun p => { p with len := v }))
  | 0xC => some (c.setPub w (fun p => { p with rate := field 13 1 4096 v }))
  | _ => none

def Chip.writePl (o : Nat) (v : Word) (c : Chip) : Option Chip :=
  match o with
  | 0x0004 => some (c.updPl (fun q => { q with err := clearBits q.err v }))
  | 0x0008 => some (c.updPl (fun q => { q with qcpEtype := v &&& 0xFFFF }))
  | 0x000C => some (c.updPl (fun q => { q with pwpEtype := v &&& 0xFFFF }))
  | 0x0010 => some (c.updPl (fun q => { q with idle := field 16 100 60000 v }))
  | 0x0014 => some (c.updPl (fun q => { q with reqTimeout := field 17 100 100000 v }))
  | _ =>
    match inTable 0x1000 0x10 255 o, inTable 0x4000 0x10 256 o with
    | some (i, r), _ => c.writePeer i r v
    | none, some (w, r) => c.writePub w r v
    | none, none => none

/-- The HM block; HM_ERR_STATUS[4] stays set while a health test of the random source fails (R439). -/
def Chip.writeHm (o : Nat) (v : Word) (c : Chip) : Option Chip :=
  match o with
  | 0x0004 => some (c.updHm (fun q => { q with err := if q.rngOk then clearBits q.err v else clearBits q.err (v &&& ~~~(16 : Word)) }))
  | 0x0014 => some (c.updHm (fun q => { q with bootStatus := field 3 0 6 v }))
  | 0x0120 => some (c.cakLoad (v.toNat % 4))
  | _ => (wordsAt 0x0140 12 o).map (fun i => c.updHm (fun h => { h with cakData := vset h.cakData i v }))

def Chip.writeLg (o : Nat) (v : Word) (c : Chip) : Option Chip :=
  match o with
  | 0x0004 => some (c.updLg (fun q => { q with err := clearBits q.err v }))
  | _ => none

/-! ### PM, LH, TM, SN (R497 to R503, R528 to R530) -/

def Chip.writePm (o : Nat) (v : Word) (c : Chip) : Option Chip :=
  match o with
  | 0x0004 => some (c.updPm (fun q => { q with err := clearBits q.err v }))
  | 0x0008 => some (c.updPm (fun q => { q with opReq := v &&& 3 }))
  | 0x000C => some (c.updPm (fun q => { q with cap := field 7 20 115 v }))
  | 0x0010 => some (c.updPm (fun q => { q with pmbus := v &&& 0x1007F }))
  | _ => none

/-- LH_LAST_WAKE: its fields clamped to what R500 reports. -/
def lastWakeWord (v : Word) : Word :=
  let n := v.toNat
  w32 (min 6 (n / 2 ^ 28) * 2 ^ 28 + n / 2 ^ 27 % 2 * 2 ^ 27 + min 3 (n / 2 ^ 24 % 8) * 2 ^ 24 + n % 2 ^ 16)

/-- LH_SLEEP (R485): with GO set and the Lighthouse awake, sleep entry of the mode. -/
def Chip.sleepWrite (v : Word) (c : Chip) : Chip :=
  if v.toNat.testBit 8 && c.canSleep (v.toNat.testBit 0) then c.sleepEntry (v.toNat.testBit 0) else c

def Chip.writeLh (o : Nat) (v : Word) (c : Chip) : Option Chip :=
  match o with
  | 0x0004 => some (c.updLh (fun q => { q with err := clearBits q.err v }))
  | 0x0008 => some (c.sleepWrite v)
  | 0x000C => some (c.updLh (fun q => { q with lastWake := lastWakeWord v }))
  | 0x0010 => some (c.updLh (fun q => { q with wakeTicks := setLo q.wakeTicks v }))
  | 0x0014 => some (c.updLh (fun q => { q with wakeTicks := setHi q.wakeTicks v }))
  | 0x0020 => some (c.updLh (fun q => { q with watchCfg := v &&& 0x801F00FF }))
  | 0x0024 => some (c.updLh (fun q => { q with watchPeriod := field 10 1 600 v }))
  | 0x0028 => some (c.updLh (fun q => { q with watchThresh := v }))
  | 0x002C => some (c.updLh (fun q => { q with watchSad := v }))
  | _ => none

def Chip.writeTm (o : Nat) (v : Word) (c : Chip) : Option Chip :=
  match o with
  | 0x0004 => some (c.updTm (fun q => { q with err := clearBits q.err v }))
  | 0x0008 => some (c.updTm (fun q => { q with hyst := field 4 1 10 v }))
  | 0x0010 => some (c.updTm (fun q => { q with peak := v &&& 0x7FF }))
  | _ => none

def Chip.writeSn (o : Nat) (v : Word) (c : Chip) : Option Chip :=
  match o with
  | 0x0004 => some (c.updSn (fun q => { q with evt := clearBits q.evt v }))
  | 0x0008 => some (c.updSn (fun q => { q with ctl := v &&& 0x1F }))
  | 0x000C => some c.release
  | 0x0080 => some (c.updSn (fun q => { q with page := v &&& 0xFFFFF000 }))
  | _ => (wordsAt 0x0010 4 o).map (fun i => c.updSn (fun q => { q with trig := vset q.trig i (v &&& 0x800003FF) }))

/-! ### The register space -/

/-- The registers of a block window that a write changes. -/
def Chip.writeWindow (w o : Nat) (v : Word) (c : Chip) : Option Chip :=
  match w with
  | 0x00 => c.writeCfg o v | 0x01 => c.writeQy o v | 0x04 => c.writeOc o v | 0x05 => c.writeFg o v | 0x06 => c.writeSv o v
  | 0x07 => c.writeTt o v | 0x08 => c.writeMc o v | 0x09 => c.writeBs o v | 0x0A => c.writeSy o v | 0x0B => c.writeIc o v
  | 0x0C => c.writeSo o v | 0x0D => c.writeHm o v | 0x0E => c.writeLg o v | 0x0F => c.writePm o v | 0x10 => c.writeLh o v
  | 0x11 => c.writeSn o v | 0x12 => c.writePl o v | 0x13 => c.writeTm o v
  | _ => none

/-- Why a write of a register that answers is refused all the same: a key-store register outside an owned session (R452), LH_SLEEP's watch mode
on a stream that is not active (R485). -/
def Chip.writeRefused (c : Chip) (who : Master) (w o : Nat) (v : Word) : Option Nat :=
  match w with
  | 0x0D => if (o == 0x0120 || (wordsAt 0x0140 12 o).isSome) && !c.cakAllowed who then some 0x33 else none
  | 0x10 => if o == 0x0008 && v.toNat.testBit 8 && c.sleepRefused (v.toNat.testBit 0) then some 0x3B else none
  | _ => none

/-- Write a register: the chip after it, and the code of its error response, if it has one (R8, R12, R14, R15, R365, R384, R452, R485). -/
def Chip.regWrite (who : Master) (addr : Nat) (v : Word) (c : Chip) : Chip × Option Nat :=
  match c.regPlace addr with
  | some (.block w o) =>
    if (windowDomain w).any c.isOff || (c.readWindow w o).isNone then (c, some 0x33) else
    match c.writeRefused who w o v with
    | some code => (c, some code)
    | none =>
      if w = 0x0A && (o = 0x0010 || o = 0x0014) then
        let (c, ok) := if o = 0x0010 then c.sySignalWrite who v else c.syResetWrite who v
        (c, if ok then none else some 0x33)
      else if w = 0x07 && o = 0x002C then (c.ctxRestart who (v.toNat % 256), none)
      else ((c.writeWindow w o v).getD c, none)
  | some (.array n o) => if c.arrayOff n || (c.readArr n o).isNone then (c, some 0x33) else ((c.writeArr n o v).getD c, none)
  | _ => (c, some 0x33)

/-- A master can access registers: the core die is up, or it is the Harbourmaster in a watch cycle, whose firmware runs (R488). -/
def Chip.reaches (c : Chip) (who : Master) : Bool := c.up || (!c.por && c.lh.st == .watchCycle && who == .harbourmaster)

/-- A write by a master other than QCP, with its answer on the bus. -/
def Chip.busWrite (who : Master) (addr : Nat) (v : Word) (c : Chip) : Chip :=
  let (c, e) := c.regWrite who addr v
  c.answer (if e.isSome then .error addr else .done)

/-- A read by a master other than QCP. -/
def Chip.busRead (addr : Nat) (c : Chip) : Chip :=
  match c.regRead addr with
  | some w => (c.regTouch addr).answer (.value w)
  | none => c.answer (.error addr)

end Sys2Proof.Machine
end

