-- ==== Sys2Proof/Machine/Qcp.lean ====
section
/-! DEFINITION. QCP (R407 to R424): sessions, the sequence window, the commands, event frames and the resending of token frames. -/

namespace Sys2Proof

/-- A little-endian field of the payload. -/
def QcpFrame.at_ (f : QcpFrame) (o n : Nat) : Nat := fieldAt f.payload o n

/-- A frame that R409 drops. -/
def RawQcp.bad (f : RawQcp) : Bool := f.version != 1 || f.type != 0 || f.length.toNat != f.payload.length

end Sys2Proof

namespace Sys2Proof.Machine

/-! ### A command's answer -/

/-- What a command answers at once: a status with its payload, or an error with its address and count; or it answers later. -/
inductive Answer where
  | ok (payload : Bytes)
  | err (status addr count : Nat)
  | later
  deriving DecidableEq, Repr

/-- The payload is not laid out as the command's. -/
def badLayout : Answer := .err 0x31 0 0

/-! ### Register access (R419) -/

/-- Reads in list order up to the first that fails: the values, and the failing address with the reads performed. -/
def readAll : List Nat → List Word → Chip → Chip × List Word × Option (Nat × Nat)
  | [], done, c => (c, done, none)
  | a :: rest, done, c =>
    match c.regRead a with
    | none => (c, done, some (a, done.length))
    | some w => readAll rest (done ++ [w]) (c.regTouch a)

/-- Writes in list order up to the first that fails: its code, its address and the writes performed. -/
def writeAll : List (Nat × Word) → Nat → Chip → Chip × Option (Nat × Nat × Nat)
  | [], _, c => (c, none)
  | (a, v) :: rest, done, c =>
    match c.regWrite .host a v with
    | (c, some code) => (c, some (code, a, done))
    | (c, none) => writeAll rest (done + 1) c

/-- REG_READ. -/
def Chip.doRegRead (f : QcpFrame) (c : Chip) : Chip × Answer :=
  let n := f.at_ 0 4
  if f.payload.length ≠ 4 + 4 * n || n = 0 || 256 < n then (c, badLayout) else
  match readAll ((List.range n).map (fun i => f.at_ (4 + 4 * i) 4)) [] c with
  | (c, _, some (a, k)) => (c, .err 0x33 a k)
  | (c, ws, none) => (c, .ok (toLe 4 n ++ ws.flatMap (fun w => toLe 4 w.toNat)))

/-- REG_WRITE. -/
def Chip.doRegWrite (f : QcpFrame) (c : Chip) : Chip × Answer :=
  let n := f.at_ 0 4
  if f.payload.length ≠ 4 + 8 * n || n = 0 || 256 < n then (c, badLayout) else
  match writeAll ((List.range n).map (fun i => (f.at_ (4 + 8 * i) 4, w32 (f.at_ (8 + 8 * i) 4)))) 0 c with
  | (c, some (code, a, k)) => (c, .err code a k)
  | (c, none) => (c, .ok (toLe 4 n))

/-! ### Bulk access and loads (R420 to R422) -/

/-- The greatest chunk. -/
def chunkMax : Nat := 8192

/-- A DEVICE entry that the host may read: one of the two structure slots of the store region (R420). -/
def Chip.slotEntry (c : Chip) (i : Nat) : Bool :=
  match c.cfg.applied with
  | none => false
  | some s =>
    let first := (s.regionAt s.store).1 / 2 ^ 20
    decide (first ≤ i) && decide (i < first + 16)

/-- Why a host read of an entry is refused. -/
def Chip.hostReadRefuses (c : Chip) (i : Nat) : Option Nat :=
  match c.refuses .host false i with
  | some 5 => if c.slotEntry i then none else some 5
  | r => r

/-- The first refusal of a host read: its cause and address. -/
def Chip.hostReadRefusal (c : Chip) (a n : Nat) : Option (Nat × Nat) :=
  (pieces (2 ^ 20) a n).findSome? (fun p => (c.hostReadRefuses (p.1 / 2 ^ 20)).map (fun k => (k, p.1)))

/-- A refused host access: recorded, and answered with code 0x34 at its first byte. -/
def Chip.hostRefused (cause addr : Nat) (c : Chip) : Chip × Answer := (c.recordViol .host 255 cause addr noStep, .err 0x34 addr 0)

/-- BULK_READ: the extent is checked whole; a sector that fails withdraws its entry, and the retry is refused (R349). -/
def Chip.doBulkRead (f : QcpFrame) (errs : List Sys2Proof.SectorErr) (c : Chip) : Chip × Answer :=
  let a := f.at_ 0 8
  let n := f.at_ 8 4
  if f.payload.length ≠ 12 || chunkMax < n then (c, badLayout) else
  match c.hostReadRefusal a n with
  | some (cause, addr) => c.hostRefused cause addr
  | none =>
    let here := errs.filter (fun e => decide (a / 512 * 512 ≤ e.addr) && decide (e.addr < a + n))
    let c := here.foldl (fun c e => (c.sector .host 255 noStep e).1) (c.touch false a n)
    match c.hostReadRefusal a n with
    | some (cause, addr) => c.hostRefused cause addr
    | none => (c, .ok (c.dramRead a n))

/-- BULK_WRITE. -/
def Chip.doBulkWrite (f : QcpFrame) (c : Chip) : Chip × Answer :=
  let a := f.at_ 0 8
  let n := f.at_ 8 4
  if f.payload.length ≠ 12 + n || chunkMax < n then (c, badLayout) else
  match c.refusal .host true a n with
  | some (cause, addr) => c.hostRefused cause addr
  | none => (c.dramWrite a (f.payload.drop 12), .ok [])

/-- A chunk that the device writes at a device address for the host (R548). -/
def Chip.deviceWrite (a : Nat) (bs : Bytes) (c : Chip) : Chip × Answer :=
  match c.refusal .device true a bs.length with
  | some (cause, addr) => c.hostRefused cause addr
  | none => (c.dramWrite a bs, .ok [])

/-- IMAGE_LOAD: into the intake of R22. -/
def Chip.doImageLoad (f : QcpFrame) (c : Chip) : Chip × Answer :=
  let o := f.at_ 0 4
  let n := f.at_ 4 4
  if f.payload.length ≠ 8 + n || chunkMax < n then (c, badLayout)
  else if c.cfg.state == .validating || c.cfg.state == .pending then (c, .err 0x3B 0 0)
  else if 8 * 2 ^ 20 < o + n then (c, .err 0x38 0 0)
  else match c.cfg.applied with
    | none => (c.basinWrite [31] o (f.payload.drop 8), .ok [])
    | some s => c.deviceWrite ((s.regionAt s.store).1 + storeIntake + o) (f.payload.drop 8)

/-- FW_LOAD: into the staging area of the store region, or of Basin bank 31 in a network boot (R421, R442). -/
def Chip.doFwLoad (f : QcpFrame) (c : Chip) : Chip × Answer :=
  let o := f.at_ 0 4
  let n := f.at_ 4 4
  if f.payload.length ≠ 8 + n || chunkMax < n then (c, badLayout)
  else if fwMax < o + n then (c, .err 0x38 0 0)
  else if c.hm.stage == .network then (c.basinWrite [31] (fwMax + o) (f.payload.drop 8), .ok [])
  else match c.cfg.applied with
    | none => c.hostRefused 1 0
    | some s => c.deviceWrite ((s.regionAt s.store).1 + 24 * 2 ^ 20 + o) (f.payload.drop 8)

/-- A weight set that is declared and not sealed. -/
def Chip.openSet (c : Chip) (w : Nat) : Option WeightDecl := if c.cfg.sealedSets.contains w then none else c.str.weight w

/-- WEIGHT_LOAD. -/
def Chip.doWeightLoad (f : QcpFrame) (c : Chip) : Chip × Answer :=
  let o := f.at_ 4 8
  let n := f.at_ 0x0C 4
  if f.payload.length ≠ 0x10 + n || chunkMax < n then (c, badLayout) else
  match c.openSet (f.at_ 0 2) with
  | none => (c, .err 0x3A 0 0)
  | some w =>
    if w.length < o + n then (c, .err 0x38 0 0) else
    let (a, room) := c.str.regionAt w.region
    if room < o + n then c.hostRefused 1 (a + max o room) else c.deviceWrite (a + o) (f.payload.drop 0x10)

/-! ### Sealing (R42, R43) -/

/-- A deferred SEAL of a set. -/
def Deferred.isSeal (set : Nat) (d : Deferred) : Bool := d.r.op == .sealSet && d.arg == set

/-- SEAL starts. -/
def Chip.doSeal (r : Req) (c : Chip) : Chip × Answer :=
  let w := r.f.at_ 0 2
  if r.f.payload.length ≠ 2 then (c, badLayout)
  else if (c.openSet w).isNone then (c, .err 0x3A 0 0)
  else (c.updPl (fun p => { p with deferred := p.deferred ++ [{ r := r, arg := w }] }), .later)

/-- SEAL_COMPLETE may happen: a SEAL of the set is in progress. -/
def Chip.sealing (c : Chip) (set : Nat) : Bool := c.awake && c.pl.deferred.any (Deferred.isSeal set)

/-- SEAL_COMPLETE: the set's bytes hash to the declared hash and the set is sealed, or it stays unsealed. A read that is refused or fails is
recorded (R548). -/
def Chip.sealDone (set : Nat) (c : Chip) : Chip :=
  match c.openSet set with
  | none => c.finishDeferred (Deferred.isSeal set) 0x3A (errPayload 0 0)
  | some w =>
    let (a, room) := c.str.regionAt w.region
    let stays := fun (c : Chip) => c.finishDeferred (Deferred.isSeal set) 0x39 (errPayload a 0)
    if room < w.length then stays c else
    let (r, c) := c.openRequester
    match c.readOwn r 0xFF a w.length with
    | (c, none) => stays c
    | (c, some bs) =>
      if sha256 bs == w.hash then
        (c.updCfg (fun g => { g with sealedSets := g.sealedSets ++ [set] })).finishDeferred (Deferred.isSeal set) 0 (hashBytes w.hash)
      else stays c

/-! ### The remaining commands (R418) -/

/-- ADMIT: CFG_IMG_LEN and CFG_IMG_CTL[0]; answered when validation ends, at once with code 0x10 while one is in progress or an image is
pending. -/
def Chip.doAdmit (r : Req) (c : Chip) : Chip × Answer :=
  if r.f.payload.length ≠ 4 then (c, badLayout) else
  let busy := c.cfg.state == .validating || c.cfg.state == .pending
  let c := (c.updCfg (fun g => { g with imgLen := w32 (r.f.at_ 0 4) })).takeImage
  if busy then (c, .err 0x10 0 0)
  else (c.updPl (fun p => { p with deferred := p.deferred ++ [{ r := r, arg := 0 }] }), .later)

/-- QUERY's and QUERY_TOKENS's answer: the id, the queue's depth, the ids still to come. -/
def Chip.queryAnswer (id : Word) (c : Chip) : Answer :=
  let toCome := match c.sv.staged.find? (fun q => q.id == id) with | some q => q.n - q.tokens.length | none => 0
  .ok (toLe 4 id.toNat ++ toLe 4 c.sv.queue.length ++ toLe 4 toCome)

/-- What the serving unit made of a record. -/
def Chip.queryResult (id : Word) (r : Option (Chip × Option (Nat × Nat))) (c : Chip) : Chip × Answer :=
  match r with
  | none => (c, badLayout)
  | some (c, some (code, off)) => (c, .err code off 0)
  | some (c, none) => (c, c.queryAnswer id)

/-- QUERY. -/
def Chip.doQuery (f : QcpFrame) (c : Chip) : Chip × Answer := c.queryResult (w32 (f.at_ 0 4)) (c.takeQuery f.payload)

/-- QUERY_TOKENS. -/
def Chip.doTokens (f : QcpFrame) (c : Chip) : Chip × Answer :=
  let id := w32 (f.at_ 0 4)
  let n := f.at_ 8 4
  if f.payload.length ≠ 12 + 4 * n then (c, badLayout)
  else c.queryResult id (c.takeTokens id (f.at_ 4 4) ((List.range n).map (fun i => f.at_ (12 + 4 * i) 4)))

/-- CANCEL (R279): a live query ends, a staged one is discarded. -/
def Chip.doCancel (f : QcpFrame) (c : Chip) : Chip × Answer :=
  if f.payload.length ≠ 4 then (c, badLayout) else
  let id := w32 (f.at_ 0 4)
  ((c.cancelQuery id).dropStaged id, .ok [])

/-- Send n logged token frames from a sequence on; the sequence that is no longer held, and the frames sent. -/
def resendFrom : Nat → Word → Nat → Chip → Chip × Option Word × Nat
  | 0, _, sent, c => (c, none, sent)
  | n + 1, seq, sent, c =>
    match c.pl.tokLog.find? (fun t => t.seq == seq) with
    | none => (c, some seq, sent)
    | some t =>
      let c := (c.sendHost 3 seq t.payload).1
      let c := c.updPl (fun p => { p with tokLog := p.tokLog.map (fun x => if x.seq == seq then { x with sent := true } else x) })
      resendFrom n (seq + 1) (sent + 1) c

/-- RESEND (R423). -/
def Chip.doResend (f : QcpFrame) (c : Chip) : Chip × Answer :=
  let n := f.at_ 4 2
  if f.payload.length ≠ 6 || n = 0 || 256 < n then (c, badLayout) else
  match resendFrom n (w32 (f.at_ 0 4)) 0 c with
  | (c, some seq, sent) => (c, .err 0x3C seq.toNat sent)
  | (c, none, sent) => (c, .ok (toLe 2 sent))

/-- SNAPSHOT (R524): a trigger of cause 2. -/
def Chip.askSnap (cause detail : Nat) (c : Chip) : Chip := c.updSn (fun s => { s with ask := s.ask ++ [(cause, detail)] })

/-- ATTEST (R450): the report, once the identity key is derived. -/
def Chip.doAttest (f : QcpFrame) (c : Chip) : Chip × Answer :=
  if f.payload.length ≠ 32 then (c, badLayout)
  else if !c.hm.idReady then (c, .err 0x3B 0 0)
  else (c, .ok (c.report f.payload))

/-- FW_UPDATE (R447): refused while another is in progress or the session is not owned. -/
def Chip.doFwUpdate (r : Req) (c : Chip) : Chip × Answer :=
  if r.f.payload.length ≠ 4 then (c, badLayout)
  else if c.hm.upd != .idle || !c.pl.session.any (·.owned) then (c, .err 0x3B 0 0)
  else
    let len := r.f.at_ 0 4
    ((c.fwStart len).updPl (fun p => { p with deferred := p.deferred ++ [{ r := r, arg := len }] }), .later)

/-- A command of class M, V or S (R424). -/
def Op.slow : Op → Bool
  | .bulkRead => true
  | .bulkWrite => true
  | .imageLoad => true
  | .admitImg => true
  | .weightLoad => true
  | .sealSet => true
  | .attest => true
  | .fwLoad => true
  | .fwUpdate => true
  | .ownerKey => true
  | _ => false

/-- A command that a device booted from the network answers (R442). -/
def Op.inNetwork : Op → Bool
  | .hello => true
  | .opn => true
  | .close => true
  | .nop => true
  | .regRead => true
  | .ownerKey => true
  | .fwLoad => true
  | .fwUpdate => true
  | _ => false

/-- A payload must be empty. -/
def bare (f : QcpFrame) (x : Chip × Answer) (c : Chip) : Chip × Answer := if f.payload = [] then x else (c, badLayout)

/-- The effect and answer of an accepted command that the chip alone carries out. -/
def Chip.perform (r : Req) (c : Chip) : Chip × Answer :=
  let f := r.f
  match r.op with
  | .nop => bare f (c, .ok []) c
  | .regRead => c.doRegRead f
  | .regWrite => c.doRegWrite f
  | .bulkRead => c.doBulkRead f r.errs
  | .bulkWrite => c.doBulkWrite f
  | .imageLoad => c.doImageLoad f
  | .admitImg => c.doAdmit r
  | .abortImg => if f.payload = [] then (let c := c.abortImage; (c, .ok (toLe 4 c.imgStatus.toNat))) else (c, badLayout)
  | .weightLoad => c.doWeightLoad f
  | .sealSet => c.doSeal r
  | .query => c.doQuery f
  | .queryTokens => c.doTokens f
  | .cancel => c.doCancel f
  | .resend => c.doResend f
  | .snapshot => bare f (c.askSnap 2 0, .ok []) c
  | .attest => c.doAttest f
  | .fwLoad => c.doFwLoad f
  | .fwUpdate => c.doFwUpdate r
  | .unknown _ => (c, .err 0x30 0 0)
  | .hello => (c, .later)
  | .opn => (c, .later)
  | .close => (c, .later)
  | .warmReset => (c, .later)
  | .sleep => (c, .later)
  | .ownerKey => (c, .later)

/-- Answer an accepted command while its session is open (R412). -/
def Chip.answerCmd (etype : Word) (r : Req) (a : Answer) (c : Chip) : Chip :=
  if c.pl.session.any (fun s => s.id == r.f.session) then
    match a with
    | .ok payload => c.respond etype r.op r.f 0 payload
    | .err status addr count => c.respondErr etype r.op r.f status addr count
    | .later => c
  else c

/-- The chip part of the commands whose answer is sent first (R418). -/
def Chip.doClose (etype : Word) (r : Req) (c : Chip) : Chip :=
  if r.f.payload = [] then (c.answerCmd etype r (.ok [])).closeSession else c.answerCmd etype r badLayout

/-- SLEEP (R485). -/
def Chip.doSleep (etype : Word) (r : Req) (c : Chip) : Chip :=
  let watch := r.f.at_ 0 1 == 1
  if r.f.payload.length ≠ 1 then c.answerCmd etype r badLayout
  else if c.canSleep watch then (c.answerCmd etype r (.ok [])).sleepEntry watch
  else c.answerCmd etype r (.err 0x3B 0 0)

/-- An accepted command starts (R415). -/
def State.start (r : Req) (s : State) : State :=
  let c := s.chip
  let etype := c.pl.qcpEtype
  if c.hm.stage == .network && !r.op.inNetwork then { s with chip := c.answerCmd etype r (.err 0x3B 0 0) }
  else if r.op.slow && 8 ≤ c.pl.deferred.length then { s with chip := c.answerCmd etype r (.err 0x37 0 0) }
  else
    match r.op with
    | .close => { s with chip := c.doClose etype r }
    | .sleep => { s with chip := c.doSleep etype r }
    | .warmReset =>
      if r.f.payload.length = 4 && r.f.at_ 0 4 = 0x5741524D then { s with chip := c.answerCmd etype r (.ok []) }.warmReset
      else { s with chip := c.answerCmd etype r badLayout }
    | .ownerKey =>
      if r.f.payload.length ≠ 772 then { s with chip := c.answerCmd etype r badLayout } else
      let (s, status, payload) := s.ownerKey r.f.payload
      { s with chip := if s.chip.pl.session.any (fun x => x.id == r.f.session)
          then s.chip.respond etype .ownerKey r.f status payload else s.chip }
    | _ =>
      let (c, a) := c.perform r
      { s with chip := c.answerCmd etype r a }

/-! ### The window (R413, R414) -/

/-- A frame that is dropped and counted (R409, R413, R414). -/
def Chip.dropQcp (c : Chip) : Chip := (c.updPl (fun p => { p with drops := satInc p.drops })).plErr 0

/-- A copy of a command that is held or has started (R414). -/
def Chip.dupQcp (c : Chip) : Chip := (c.updPl (fun p => { p with dups := satInc p.dups })).plErr 0

/-- The next command is accepted: the window moves on, the session lives, and its frames go where this one came from (R407, R413). -/
def Chip.accept (r : Req) (c : Chip) : Chip :=
  c.updPl (fun p => { p with
    next := p.next + 1
    held := p.held.filter (fun x => x.f.seq != r.f.seq)
    session := p.session.map (fun s => { s with lastAt := c.clk.ref, port := r.f.rx.port, tag := rxTag r.f.rx }) })

/-- Accept held commands in ascending sequence, as long as the next one is held. -/
def State.acceptAll : Nat → State → State
  | 0, s => s
  | n + 1, s =>
    match s.chip.pl.held.find? (fun r => r.f.seq == s.chip.pl.next) with
    | none => s
    | some r => State.acceptAll n ({ s with chip := s.chip.accept r }.start r)

/-- A command of the open session, by its place in the window. -/
def State.window (r : Req) (s : State) : State :=
  let c := s.chip
  let d := (r.f.seq - c.pl.next).toNat
  if d < 16 then
    if c.pl.held.any (fun x => x.f.seq == r.f.seq) then { s with chip := c.dupQcp }
    else { s with chip := c.updPl (fun p => { p with held := p.held ++ [r] }) }.acceptAll 17
  else if 2 ^ 32 - 64 ≤ d then
    match c.pl.cache.find? (fun x => x.seq == r.f.seq) with
    | some x => { s with chip := c.sendResp c.pl.qcpEtype r.f x 1 }
    | none =>
      if c.pl.deferred.any (fun x => x.r.f.seq == r.f.seq && x.r.f.session == r.f.session) then { s with chip := c.dupQcp }
      else { s with chip := c.dropQcp }
  else { s with chip := c.dropQcp }

/-! ### HELLO and OPEN (R410, R411) -/

/-- HELLO. -/
def Chip.doHello (f : QcpFrame) (c : Chip) : Chip :=
  if f.payload = [] then c.hello f else c.reply c.pl.qcpEtype .hello f 0x31 (errPayload 0 0)

/-- The nonce and the signature of an OPEN hold (R410). -/
def Chip.openValid (f : QcpFrame) (c : Chip) : Bool :=
  match c.pl.nonce with
  | none => false
  | some n =>
    let bytes := hashBytes n.value
    !n.used && decide (c.clk.ref ≤ n.at_ + 10000000000) && slice f.payload 0 32 == bytes &&
      (match c.hm.owner with
      | none => true
      | some k => rsaVerify k (sha256 (bytes ++ toLe 4 c.cfgDevice ++ hashBytes c.idHash)) (rsaOf (slice f.payload 0x20 384)))

/-- OPEN: a valid one closes the session from its own source address and opens a new one, whose random id waits for a passing source (R411, R439). -/
def Chip.doOpen (f : QcpFrame) (c : Chip) : Chip :=
  let etype := c.pl.qcpEtype
  if f.payload.length ≠ 416 then c.reply etype .opn f 0x31 (errPayload 0 0)
  else if c.pl.session.any (fun s => s.mac != f.rx.src) then c.reply etype .opn f 0x35 (errPayload 0 0)
  else if !c.openValid f then c.reply etype .opn f 0x36 (errPayload 0 0)
  else
    let c := c.closeSession.updPl (fun p => { p with nonce := p.nonce.map (fun n => { n with used := true }) })
    if c.hm.rngOk then c.openSession f
    else c.updPl (fun p => { p with hellos := p.hellos ++ [({ op := .opn, f := f }, c.clk.ref)] })

/-! ### Frames -/

/-- A QCP command that has passed R66 to R71. -/
def State.command (r : Req) (s : State) : State :=
  let c := s.chip
  if 8256 < r.f.payload.length then { s with chip := c.dropQcp }
  else if r.op == .hello then { s with chip := c.doHello r.f }
  else if r.op == .opn then { s with chip := c.doOpen r.f }
  else if c.pl.session.any (fun x => x.id == r.f.session) then s.window r
  else { s with chip := c.reply c.pl.qcpEtype r.op r.f 0x32 (errPayload 0 0) }

/-- The device receives QCP: it is awake, the port has its link, and the boot ROM has chosen how the device runs. -/
def Chip.hearsQcp (c : Chip) (rx : RxInfo) : Bool := c.awake && c.hears rx && c.hm.stage != .rom

/-- A received QCP command frame: dropped by R66 to R71, or taken as a command. -/
def State.receive (r : Req) (s : State) : State :=
  match s.chip.ingress r.f.rx with
  | (c, some .qcp) => { s with chip := c }.command r
  | (c, none) => { s with chip := c }
  | (_, some _) => s

/-- A row of R418. -/
def qcpRow (dt : When) (op : Op) (f : QcpFrame) (errs : List Sys2Proof.SectorErr) (s : State) : Result :=
  runState dt (fun s => s.chip.hearsQcp f.rx) (State.receive { op := op, f := f, errs := errs }) s

/-- QCP_FRAME_DROP. -/
def Chip.rawQcp (f : RawQcp) (c : Chip) : Chip := c.handle .qcp f.rx (fun c => if f.bad then c.dropQcp else c)

/-- SESSION_IDLE_EXPIRY is due (R412). -/
def Chip.idleDue (c : Chip) : Bool :=
  c.up && c.pl.session.any (fun s => decide (s.lastAt + clampNat 100 60000 (c.pl.idle.toNat % 65536) * 1000000 ≤ c.clk.ref))

/-! ### Event frames (R89, R380, R381) -/

/-- Bytes on the wire around the QCP frame: preamble, gap, addresses, EtherType, SecTAG, ICV and FCS, and the tag. -/
def wireBytes (tag : Option (BitVec 16)) : Nat := 70 + (if tag.isSome then 4 else 0)

/-- An event can be sent: a session is open, its port transmits, an event is queued, and the shaper has credit. -/
def Chip.canSendEvent (c : Chip) : Bool :=
  c.awake && c.ic.nextEvent.isSome && (match c.pl.session with
    | none => false
    | some s => (c.port s.port).link && (c.port s.port).secured && decide (0 ≤ (c.port s.port).creditNow c.clk.ref))

/-- The event payload of a source (R381). -/
def Chip.eventPayload (c : Chip) (seq : Word) (n : Nat) : Bytes :=
  let last := (assoc n c.ic.last).getD {}
  toLe 4 seq.toNat ++ toLe 2 n ++ toLe 1 (vget 0 c.ic.count n) ++ toLe 1 (c.ic.routeOf n).prio ++ toLe 8 last.time ++
    (last.detail ++ zeros 16).take 16

/-- EVENT_FRAME_SEND: the frame takes the arrival count, and its bits come off the credit. -/
def Chip.sendEvent (c : Chip) : Chip :=
  match c.ic.nextEvent, c.pl.session with
  | some n, some s =>
    let seq := c.ic.evtSeq + 1
    let payload := c.eventPayload seq n
    let bits := 8 * (16 + payload.length + wireBytes s.tag)
    let c := (c.sendHost 2 seq payload).1
    let c := c.updIc (fun ic => { ic with evtSeq := seq, count := vset ic.count n 0 })
    (c.dueCredit s.port).updPort s.port (fun t => { t with credit := t.credit - ((bits * 1000000000 : Nat) : Int) })
  | _, _ => c

end Sys2Proof.Machine
end

