-- ==== Sys2Proof/Machine/HostCommands.lean ====
section
/-! DEFINITION. The meanings of the commands of QCP commands of the host, image validation, sealing and event frames: for each, when it can occur and what it does. -/

namespace Sys2Proof.Machine

/-- HELLO (R410). -/
def execQcpHello (dt : When) (f : QcpFrame) (s : State) : Result := qcpRow dt .hello f [] s

/-- OPEN (R410, R411). -/
def execQcpOpen (dt : When) (f : QcpFrame) (s : State) : Result := qcpRow dt .opn f [] s

/-- CLOSE (R412). -/
def execQcpClose (dt : When) (f : QcpFrame) (s : State) : Result := qcpRow dt .close f [] s

/-- NOP (R412). -/
def execQcpNop (dt : When) (f : QcpFrame) (s : State) : Result := qcpRow dt .nop f [] s

/-- REG_READ (R419). -/
def execQcpRegRead (dt : When) (f : QcpFrame) (s : State) : Result := qcpRow dt .regRead f [] s

/-- REG_WRITE (R419). -/
def execQcpRegWrite (dt : When) (f : QcpFrame) (s : State) : Result := qcpRow dt .regWrite f [] s

/-- BULK_READ (R420). -/
def execQcpBulkRead (dt : When) (f : QcpFrame) (errs : List Sys2Proof.SectorErr) (s : State) : Result := qcpRow dt .bulkRead f errs s

/-- BULK_WRITE (R420). -/
def execQcpBulkWrite (dt : When) (f : QcpFrame) (s : State) : Result := qcpRow dt .bulkWrite f [] s

/-- IMAGE_LOAD (R421). -/
def execQcpImageLoad (dt : When) (f : QcpFrame) (s : State) : Result := qcpRow dt .imageLoad f [] s

/-- ADMIT (R418, R24). -/
def execQcpAdmit (dt : When) (f : QcpFrame) (s : State) : Result := qcpRow dt .admitImg f [] s

/-- ABORT (R55). -/
def execQcpAbort (dt : When) (f : QcpFrame) (s : State) : Result := qcpRow dt .abortImg f [] s

/-- WEIGHT_LOAD (R422). -/
def execQcpWeightLoad (dt : When) (f : QcpFrame) (s : State) : Result := qcpRow dt .weightLoad f [] s

/-- SEAL (R42). -/
def execQcpSeal (dt : When) (f : QcpFrame) (s : State) : Result := qcpRow dt .sealSet f [] s

/-- QUERY (R259, R261). -/
def execQcpQuery (dt : When) (f : QcpFrame) (s : State) : Result := qcpRow dt .query f [] s

/-- QUERY_TOKENS (R259). -/
def execQcpQueryTokens (dt : When) (f : QcpFrame) (s : State) : Result := qcpRow dt .queryTokens f [] s

/-- CANCEL (R279). -/
def execQcpCancel (dt : When) (f : QcpFrame) (s : State) : Result := qcpRow dt .cancel f [] s

/-- RESEND (R423). -/
def execQcpResend (dt : When) (f : QcpFrame) (s : State) : Result := qcpRow dt .resend f [] s

/-- SNAPSHOT (R524). -/
def execQcpSnapshot (dt : When) (f : QcpFrame) (s : State) : Result := qcpRow dt .snapshot f [] s

/-- WARM_RESET (R495). -/
def execQcpWarmReset (dt : When) (f : QcpFrame) (s : State) : Result := qcpRow dt .warmReset f [] s

/-- SLEEP (R485). -/
def execQcpSleep (dt : When) (f : QcpFrame) (s : State) : Result := qcpRow dt .sleep f [] s

/-- ATTEST (R450). -/
def execQcpAttest (dt : When) (f : QcpFrame) (s : State) : Result := qcpRow dt .attest f [] s

/-- FW_LOAD (R421, R442). -/
def execQcpFwLoad (dt : When) (f : QcpFrame) (s : State) : Result := qcpRow dt .fwLoad f [] s

/-- FW_UPDATE (R447). -/
def execQcpFwUpdate (dt : When) (f : QcpFrame) (s : State) : Result := qcpRow dt .fwUpdate f [] s

/-- OWNER_KEY (R445). -/
def execQcpOwnerKey (dt : When) (f : QcpFrame) (s : State) : Result := qcpRow dt .ownerKey f [] s

/-- A QCP frame with a bad version, type or length (R409). -/
def execQcpFrameDrop (dt : When) (f : RawQcp) (s : State) : Result := run dt (fun c => c.hearsQcp f.rx) (Chip.rawQcp f) s

/-- A command of a reserved opcode (R417, R418); an opcode that R418 lists is that row's command. -/
def execUnknownOpcode (dt : When) (opcode : BitVec 16) (f : QcpFrame) (s : State) : Result := qcpRow dt (Op.ofCode opcode) f [] s

/-- The session idles out (R412). -/
def execSessionIdleExpiry (dt : When) (s : State) : Result := run dt (Chip.idleDue) (Chip.closeSession) s

/-- The Harbourmaster has hashed a weight set (R42). -/
def execSealComplete (dt : When) (set : Nat) (s : State) : Result :=
  run dt (fun c => c.sealing set) (Chip.sealDone set) s

/-- Validation ends (R50). -/
def execValidationEnd (dt : When) (bad : Option Nat) (s : State) : Result :=
  run dt (fun c => c.awake && c.cfg.state == .validating) (fun c => (c.endValidation bad).answerAdmit) s

/-- An event frame is sent (R380). -/
def execEventFrameSend (dt : When) (s : State) : Result := run dt (Chip.canSendEvent) (Chip.sendEvent) s

end Sys2Proof.Machine
end

