-- ==== Sys2Proof/Machine/IngestCommands.lean ====
section
/-! DEFINITION. The meanings of the commands of the ports, device time, MACsec keys, video packets and evidence copies: for each, when it can occur and what it does. -/

namespace Sys2Proof.Machine

/-- A port's link comes up (R65). -/
def execLinkUp (dt : When) (port : Nat) (partnerMaster : Bool) (s : State) : Result :=
  run dt (fun c => c.canLink port partnerMaster) (Chip.linkUp port) s

/-- A port's link goes down (R68). -/
def execLinkDown (dt : When) (port : Nat) (s : State) : Result :=
  run dt (fun c => c.receiving && (c.port port).link) (Chip.linkDrop port) s

/-- A received frame fails a check (R66, R69, R71, R88). -/
def execRxFrameDrop (dt : When) (rx : RxInfo) (overflow : Bool) (s : State) : Result :=
  run dt (fun c => c.hears rx) (Chip.rxDrop rx overflow) s

/-- An 802.1AS Sync (R74, R75). -/
def execSyncReceived (dt : When) (m : SyncMsg) (s : State) : Result := run dt (fun c => c.hears m.rx) (Chip.syncFrame m) s

/-- Three Sync intervals without a Sync (R74). -/
def execSyncLossHoldover (dt : When) (s : State) : Result := run dt (Chip.holdoverDue) (Chip.holdover) s

/-- Best-master selection chooses (R94). -/
def execBestMasterSelection (dt : When) (port : Option Nat) (s : State) : Result :=
  run dt (fun c => c.receiving && port.all (fun p => (c.port p).link)) (Chip.selectMaster port) s

/-- An MKA frame (R451). -/
def execMkaFrame (dt : When) (m : MkaFrame) (s : State) : Result := run dt (fun c => c.mkaRuns && c.hears m.rx) (Chip.mkaFrame m) s

/-- The MKA life time ends (R451). -/
def execMkaLifeExpiry (dt : When) (port : Nat) (s : State) : Result := run dt (fun c => c.mkaDead port) (Chip.mkaLost port) s

/-- The MKA hello time (R451). -/
def execMkaHelloTime (dt : When) (port : Nat) (s : State) : Result := run dt (fun c => c.mkaHelloDue port) (Chip.mkaHello port) s

/-- An RVF packet (R76 to R87). -/
def execRvfPacket (dt : When) (p : RvfPacket) (s : State) : Result :=
  run dt (fun c => c.hears p.rx) (Chip.rvf p) s

/-- The grace time of an open frame ends (R81). -/
def execGraceExpiry (dt : When) (stream : Nat) (s : State) : Result :=
  run dt (fun c => c.graceDue stream) (Chip.closeStream stream) s

/-- Device time reaches a capture time plus one input period (R81). -/
def execInputPeriodExpiry (dt : When) (stream : Nat) (s : State) : Result :=
  run dt (fun c => c.periodDue stream) (Chip.closeStream stream) s

/-- An evidence copy ends (R91). -/
def execEvidenceCopyDone (dt : When) (stream : Nat) (fails : List Sys2Proof.JobErr) (s : State) : Result :=
  run dt (fun c => c.awake && (c.evidCopy stream).isSome) (Chip.evidDone stream fails) s

end Sys2Proof.Machine
end

