-- ==== Sys2Proof/Machine/LinkCommands.lean ====
section
/-! DEFINITION. The meanings of the commands of display outputs and peers: for each, when it can occur and what it does. -/

namespace Sys2Proof.Machine

/-- An output that the grade has and whose domain is on. -/
def Chip.outputOn (c : Chip) (n : Nat) : Bool := c.awake && decide (n < c.id.grade.outputs) && !c.isOff (74 + n)

/-- VBLANK_START is due: an ACTIVE output, one output frame after its last. -/
def Chip.vblankDue (c : Chip) (n : Nat) : Bool :=
  c.outputOn n && (c.out n).st == .active &&
    (match c.str.output n with
    | none => false
    | some o => (c.out n).vbAt.all (fun t => decide (t + (dispMode o.mode).linesNs (dispMode o.mode).totalH ≤ c.clk.ref)))

/-- Vertical blanking begins (R395, R403). -/
def execVblankStart (dt : When) (output : Nat) (late : List (Nat × Nat × Nat)) (s : State) : Result :=
  run dt (fun c => c.vblankDue output) (Chip.vblank output late) s

/-- HPD is asserted (R391). -/
def execHpdAsserted (dt : When) (output : Nat) (s : State) : Result :=
  run dt (fun c => c.outputOn output && !(c.out output).hpd) (Chip.hpdUp output) s

/-- HPD is lost (R391). -/
def execHpdUnplug (dt : When) (output : Nat) (s : State) : Result :=
  run dt (fun c => c.outputOn output && (c.out output).hpd) (Chip.hpdDown output) s

/-- A short HPD pulse (R391). -/
def execIrqHpd (dt : When) (output : Nat) (lostLock : Bool) (s : State) : Result :=
  run dt (fun c => c.outputOn output && (c.out output).st == .active) (Chip.irqHpd output lostLock) s

/-- A training attempt ends (R390). -/
def execLinkTrainingDone (dt : When) (output : Nat) (ok : Bool) (s : State) : Result :=
  run dt (fun c => c.outputOn output && (c.out output).st == .training) (Chip.trained output ok) s

/-- A window's last source row has been fetched (R396). -/
def execTornCheck (dt : When) (window : Nat) (s : State) : Result :=
  run dt (fun c => c.awake && (c.win window).valid && (c.out (c.win window).output).st == .active) (Chip.tornCheck window) s

/-- The 10 ms heartbeat timer (R425). -/
def execHeartbeatTimer (dt : When) (s : State) : Result := run dt (Chip.heartbeatDue) (Chip.heartbeats) s

/-- A peer's heartbeat (R425). -/
def execPwpHeartbeat (dt : When) (f : PwpFrame) (s : State) : Result := run dt (fun c => c.awake && c.hears f.rx) (Chip.pwpHeartbeat f) s

/-- A peer's read (R428). -/
def execPwpRead (dt : When) (f : PwpFrame) (errs : List Sys2Proof.SectorErr) (s : State) : Result :=
  run dt (fun c => c.awake && c.hears f.rx) (Chip.pwpRead f errs) s

/-- A piece of read data (R429). -/
def execPwpReadData (dt : When) (f : PwpFrame) (s : State) : Result := run dt (fun c => c.awake && c.hears f.rx) (Chip.pwpReadData f) s

/-- A peer's signal (R430). -/
def execPwpSignal (dt : When) (f : PwpFrame) (s : State) : Result := run dt (fun c => c.awake && c.hears f.rx) (Chip.pwpSignal f) s

/-- The acknowledgement of a signal (R430). -/
def execPwpSignalAck (dt : When) (f : PwpFrame) (s : State) : Result := run dt (fun c => c.awake && c.hears f.rx) (Chip.pwpSignalAck f) s

/-- Half the request timeout passes (R429). -/
def execPeerReqResend (dt : When) (tag : Word) (s : State) : Result := run dt (fun c => c.awake && c.resendDue tag) (Chip.resendReq tag) s

/-- A request times out (R429, R431). -/
def execPeerReqTimeout (dt : When) (tag : Word) (s : State) : Result := run dt (fun c => c.awake && c.reqLate tag) (Chip.reqTimedOut tag) s

end Sys2Proof.Machine
end

