-- ==== Sys2Proof/Machine/MemoryCommands.lean ====
section
/-! DEFINITION. The meanings of the commands of the Basin and the DRAM channels: for each, when it can occur and what it does. -/

namespace Sys2Proof.Machine

/-- The Basin patrol scrub (R335). -/
def execBasinScrub (dt : When) (hits : List Sys2Proof.ScrubHit) (s : State) : Result := run dt (Chip.awake) (Chip.basinScrub hits) s

/-- The DRAM patrol scrub of a slot (R355). -/
def execDramScrub (dt : When) (channel : Nat) (slot : Nat) (errs : List Sys2Proof.SectorErr) (s : State) : Result :=
  run dt (fun c => c.chanOn channel && slot == (c.chan channel).scrubSlot) (Chip.dramScrub channel slot errs) s

/-- The DQS oscillator check (R341). -/
def execDqsCheck (dt : When) (channel : Nat) (drift64 : Nat) (retrained : Bool) (s : State) : Result :=
  run dt (fun c => c.chanOn channel) (Chip.dqsCheck channel drift64 retrained) s

/-- The poll of MR4 (R341). -/
def execMr4Poll (dt : When) (channel : Nat) (rate : BitVec 4) (s : State) : Result :=
  run dt (fun c => c.chanOn channel) (Chip.mr4Poll channel rate) s

/-- A channel enters power-down (R354). -/
def execChannelPowerDown (dt : When) (channel : Nat) (s : State) : Result :=
  run dt (fun c => c.canPowerDown channel) (Chip.setPower channel .powerDown) s

/-- A channel enters self-refresh (R354). -/
def execChannelSelfRefresh (dt : When) (channel : Nat) (s : State) : Result :=
  run dt (fun c => c.canSelfRefresh channel) (Chip.setPower channel .selfRefresh) s

/-- A channel leaves power-down or self-refresh (R354). -/
def execLowPowerExit (dt : When) (channel : Nat) (s : State) : Result :=
  run dt (fun c => c.canExit channel) (Chip.setPower channel .active) s

end Sys2Proof.Machine
end

