-- ==== Sys2Proof/Machine/PowerCommands.lean ====
section
/-! DEFINITION. The meanings of the commands of power, the Lighthouse, temperature, resets and SNAP_IN: for each, when it can occur and what it does. -/

namespace Sys2Proof.Machine

/-- An operating-point transition starts (R473). -/
def execOpTransition (dt : When) (acked : Bool) (s : State) : Result := run dt (Chip.canMove) (Chip.startMove acked) s

/-- The commanded voltage settles or fails to (R473). -/
def execVoltageSettled (dt : When) (good : Bool) (s : State) : Result := run dt (fun c => c.raisingTo.isSome) (Chip.settleVolt good) s

/-- The poll of READ_VOUT and READ_IOUT (R474). -/
def execPmbusPoll (dt : When) (vout : Option (BitVec 16)) (iout : Option (BitVec 16)) (ulinear16 : Option Bool) (s : State) : Result :=
  run dt (Chip.awake) (Chip.poll vout iout ulinear16) s

/-- A failed transition is retried (R474). -/
def execPmbusRetry (dt : When) (acked : Bool) (s : State) : Result := run dt (Chip.retryDue) (Chip.retryMove acked) s

/-- An averaging window of the power cap ends (R475). -/
def execPowerCapWindow (dt : When) (s : State) : Result := run dt (Chip.windowDue) (Chip.capWindow) s

/-- PMB_ALERT_N is asserted (R497). -/
def execPmbAlert (dt : When) (s : State) : Result := run dt (Chip.awake) (Chip.pmErr 3) s

/-- The temperature sensors are sampled (R476, R477). -/
def execThermalSample (dt : When) (readings : List Int) (s : State) : Result := run dt (fun c => !c.por) (Chip.thermal readings) s

/-- The device has cooled after a trip (R477). -/
def execTripRecovery (dt : When) (s : State) : Result := runState dt (fun s => s.chip.recoverDue) (State.recover) s

/-- A domain switches on (R479). -/
def execDomainSwitchOn (dt : When) (domain : Nat) (s : State) : Result := run dt (fun c => c.canSwitchOn domain) (Chip.switchOn domain) s

/-- WAKE_N is held low (R487). -/
def execWakeNAsserted (dt : When) (ticks : Nat) (s : State) : Result :=
  run dt (fun c => !c.por && decide (33 ≤ ticks)) (Chip.latchWake 2 0) s

/-- The I2C wake target matches (R489). -/
def execI2cAddressMatch (dt : When) (address : Nat) (s : State) : Result := run dt (fun c => c.i2cMatches address) (Chip.i2cMatch address) s

/-- The I2C wake target is read (R489). -/
def execI2cStatusRead (dt : When) (s : State) : Result := run dt (fun c => !c.por) (Chip.i2cRead) s

/-- A watch cycle starts (R488). -/
def execWatchCycleStart (dt : When) (s : State) : Result := run dt (Chip.cycleDue) (Chip.startCycle) s

/-- A watch frame is compared (R490). -/
def execWatchCompare (dt : When) (s : State) : Result := run dt (Chip.compareDue) (Chip.compare) s

/-- A watch cycle fails (R491). -/
def execWatchCycleTimeout (dt : When) (s : State) : Result := run dt (Chip.watchLate) (Chip.watchFail) s

/-- Sleep entry ends (R485, R486). -/
def execSleepEntryComplete (dt : When) (s : State) : Result := run dt (fun c => !c.por && c.lh.st == .entering) (Chip.asleep) s

/-- The wake sequence (R492, R493). -/
def execWake (dt : When) (power : CoreUp) (trained : List Sys2Proof.TrainResult) (s : State) : Result :=
  runState dt (fun s => s.chip.canWake) (State.wake power trained) s

/-- The wake sequence is retried (R492). -/
def execWakePgRetry (dt : When) (power : CoreUp) (trained : List Sys2Proof.TrainResult) (s : State) : Result :=
  runState dt (fun s => s.chip.canRetryWake) (State.wake power trained) s

/-- WARM_RST_N is low (R494, R495). -/
def execWarmResetPin (dt : When) (lowNs : Nat) (s : State) : Result := runState dt (fun s => s.chip.warmPin lowNs) (State.warmReset) s

/-- The internal reset is released (R535, R539), in the factory test state as well. -/
def execPowerOnReset (dt : When) (role : Byte) (i2cAddr : BitVec 2) (testMode : Bool) (s : State) : Result :=
  let s := { s with chip := s.chip.elapse dt.ns }
  .next (if s.chip.por then s.porReleased role i2cAddr testMode else s)

/-- POR_N falls (R494), in the factory test state as well. -/
def execPowerOnResetAsserted (dt : When) (s : State) : Result :=
  let s := { s with chip := s.chip.elapse dt.ns }
  .next (if s.chip.por then s else s.porAsserted)

/-- SNAP_IN is high (R524). -/
def execSnapInTrigger (dt : When) (highNs : Nat) (s : State) : Result := run dt (fun c => c.up && decide (100 ≤ highNs)) (Chip.askSnap 1 0) s

end Sys2Proof.Machine
end

