-- ==== Sys2Proof/Machine/RegisterCommands.lean ====
section
/-! DEFINITION. The meanings of the commands of writes and reads of registers by the control cores and the Harbourmaster: for each, when it can occur and what it does. -/

namespace Sys2Proof.Machine

/-- A write of CFG_IMG_CTL with ADMIT (R24, R44). -/
def execImgCtlAdmit (dt : When) (who : Master) (value : Word) (s : State) : Result :=
  run dt (fun c => c.reaches who) (Chip.busWrite who (0x00000100) value) s

/-- A write of CFG_IMG_CTL with ABORT (R55). -/
def execImgCtlAbort (dt : When) (who : Master) (value : Word) (s : State) : Result :=
  run dt (fun c => c.reaches who) (Chip.busWrite who (0x00000100) value) s

/-- A write of any register (R5 to R8, R14, R15, R384). -/
def execRegisterWrite (dt : When) (who : Master) (addr : Nat) (value : Word) (s : State) : Result :=
  run dt (fun c => c.reaches who) (Chip.busWrite who (addr) value) s

/-- A read of a register, which latches the upper half of a 64-bit count (R93). -/
def execLatchingLoRead (dt : When) (who : Master) (addr : Nat) (s : State) : Result := run dt (fun c => c.reaches who) (Chip.busRead addr) s

/-- A write of QY_PORT_CTL (R95). -/
def execPortRoleWrite (dt : When) (who : Master) (port : Nat) (value : Word) (s : State) : Result :=
  run dt (fun c => c.reaches who) (Chip.busWrite who (0x00011000 + 0x100 * port) value) s

/-- A write of QY_PORT_CTL (R95). -/
def execPortDownWrite (dt : When) (who : Master) (port : Nat) (value : Word) (s : State) : Result :=
  run dt (fun c => c.reaches who) (Chip.busWrite who (0x00011000 + 0x100 * port) value) s

/-- A write of TT_PART_RESET (R313, R314). -/
def execTtPartReset (dt : When) (who : Master) (value : Word) (s : State) : Result :=
  run dt (fun c => c.reaches who) (Chip.busWrite who (0x00070028) value) s

/-- A write of TT_CTX_RESTART (R312, R520). -/
def execTtCtxRestart (dt : When) (who : Master) (value : Word) (s : State) : Result :=
  run dt (fun c => c.reaches who) (Chip.busWrite who (0x0007002C) value) s

/-- A write of SV_CANCEL (R279). -/
def execSvCancel (dt : When) (who : Master) (value : Word) (s : State) : Result := run dt (fun c => c.reaches who) (Chip.busWrite who (0x00060010) value) s

/-- A write of SY_SIGNAL (R365). -/
def execSySignal (dt : When) (who : Master) (value : Word) (s : State) : Result := run dt (fun c => c.reaches who) (Chip.busWrite who (0x000A0010) value) s

/-- A write of SY_RESET (R366). -/
def execSyReset (dt : When) (who : Master) (value : Word) (s : State) : Result := run dt (fun c => c.reaches who) (Chip.busWrite who (0x000A0014) value) s

/-- A write of IC_SET (R385). -/
def execIcSet (dt : When) (who : Master) (value : Word) (s : State) : Result := run dt (fun c => c.reaches who) (Chip.busWrite who (0x000B000C) value) s

/-- A write of IC_CLAIM (R378). -/
def execIcClaim (dt : When) (who : Master) (target : Nat) (value : Word) (s : State) : Result :=
  run dt (fun c => c.reaches who) (Chip.busWrite who (0x000B0400 + 0x10 * target) value) s

/-- A write of IC_EOI (R378). -/
def execIcEoi (dt : When) (who : Master) (target : Nat) (value : Word) (s : State) : Result :=
  run dt (fun c => c.reaches who) (Chip.busWrite who (0x000B0408 + 0x10 * target) value) s

/-- A write of HM_CAK_CTL (R452). -/
def execHmCakCtl (dt : When) (who : Master) (value : Word) (s : State) : Result := run dt (fun c => c.reaches who) (Chip.busWrite who (0x000D0120) value) s

/-- A write of LH_SLEEP (R485). -/
def execLhSleepSleep (dt : When) (who : Master) (value : Word) (s : State) : Result :=
  run dt (fun c => c.reaches who) (Chip.busWrite who (0x00100008) value) s

/-- A write of LH_SLEEP (R485). -/
def execLhSleepWatch (dt : When) (who : Master) (value : Word) (s : State) : Result :=
  run dt (fun c => c.reaches who) (Chip.busWrite who (0x00100008) value) s

/-- A write of SN_RELEASE (R525). -/
def execSnRelease (dt : When) (who : Master) (value : Word) (s : State) : Result := run dt (fun c => c.reaches who) (Chip.busWrite who (0x0011000C) value) s

/-- A write of PL_PEER_CTL (R434). -/
def execPeerDisable (dt : When) (who : Master) (peer : Nat) (value : Word) (s : State) : Result :=
  run dt (fun c => c.reaches who) (Chip.busWrite who (0x00121008 + 0x10 * peer) value) s

end Sys2Proof.Machine
end

