-- ==== Sys2Proof/Machine/ScheduleCommands.lean ====
section
/-! DEFINITION. The meanings of the commands of boundaries, the tide table, kernels, swaps, residency and the control cores: for each, when it can occur and what it does. -/

namespace Sys2Proof.Machine

/-- A major-cycle boundary (R290). -/
def execMajorCycleBoundary (dt : When) (ready : Bool) (s : State) : Result :=
  run dt (Chip.boundaryDue) (fun c => (c.boundary ready).regate) s

/-- A kind-0 tide entry comes due (R228). -/
def execTideLiveInstant (dt : When) (entry : Nat) (bad : Bool) (s : State) : Result :=
  run dt (Chip.tideOk 0 entry bad) (Chip.tideRun entry bad) s

/-- A kind-1 tide entry comes due (R228). -/
def execTideSettledPeriod (dt : When) (entry : Nat) (bad : Bool) (s : State) : Result :=
  run dt (Chip.tideOk 1 entry bad) (Chip.tideRun entry bad) s

/-- A kind-2 tide entry comes due (R292). -/
def execTideContextStep (dt : When) (entry : Nat) (bad : Bool) (s : State) : Result :=
  run dt (Chip.tideOk 2 entry bad) (Chip.tideRun entry bad) s

/-- A marker tide entry comes due (R292). -/
def execTideMarker (dt : When) (entry : Nat) (bad : Bool) (s : State) : Result := run dt (Chip.tideOk 3 entry bad) (Chip.tideRun entry bad) s

/-- A budget runs out (R295). -/
def execStepOverrun (dt : When) (step : Word) (s : State) : Result := run dt (fun c => c.overrunDue step) (Chip.overrun step) s

/-- A kernel is placed (R299). -/
def execKernelPlace (dt : When) (part : Nat) (s : State) : Result :=
  run dt (fun c => c.awake && (c.nextPlacement part).isSome) (Chip.placeNext part) s

/-- A swap-out ends (R305). -/
def execSwapOutDone (dt : When) (berth : Nat) (s : State) : Result :=
  run dt (fun c => c.awake && (c.berth berth).xfer == 1) (Chip.swapOutDone berth dt.fails) s

/-- A swap-in ends (R305). -/
def execSwapInDone (dt : When) (berth : Nat) (s : State) : Result :=
  run dt (fun c => c.awake && (c.berth berth).xfer == 2) (Chip.swapInDone berth) s

/-- A resident context outstays the quantum (R308). -/
def execQuantumExpiry (dt : When) (ctx : Nat) (s : State) : Result :=
  run dt (fun c => c.quantumDue ctx) (fun c => (c.updCtx ctx (fun k => { k with quantum := true })).schedule) s

/-- 1 ms has passed since a swap-in (R308). -/
def execSwapInHoldExpiry (dt : When) (ctx : Nat) (s : State) : Result :=
  run dt (fun c => c.holdDue ctx) (fun c => (c.updCtx ctx (fun k => { k with progressed := true })).schedule) s

/-- A control core restarts (R519). -/
def execCoreWatchdog (dt : When) (core : Nat) (s : State) : Result :=
  run dt (fun c => c.up && decide (core < 4)) (Chip.updSn (fun n => { n with restarts := vupd 0 n.restarts core satInc })) s

end Sys2Proof.Machine
end

