-- ==== Sys2Proof/Machine/SecureCommands.lean ====
section
/-! DEFINITION. The meanings of the commands of the Harbourmaster and the Relty ledger: for each, when it can occur and what it does. -/

namespace Sys2Proof.Machine

/-- The boot ROM (R441 to R443). -/
def execBoot (dt : When) (ctrlErr : Bool) (trained : List Sys2Proof.TrainResult) (s : State) : Result :=
  runState dt (fun s => s.chip.canBoot) (State.bootUp ctrlErr trained) s

/-- The identity key is derived (R438). -/
def execIdKeyReady (dt : When) (s : State) : Result := run dt (Chip.canDerive) (Chip.derive) s

/-- A health test of the random source fails (R439). -/
def execRngHealthFail (dt : When) (s : State) : Result := run dt (Chip.up) (Chip.rngFail) s

/-- The random source passes (R439). -/
def execRandomSourcePassing (dt : When) (s : State) : Result := runState dt (fun s => s.chip.awake && !s.chip.hm.rngOk) (State.rngPass) s

/-- Verification of a firmware image ends (R447, R448). -/
def execFwVerificationEnd (dt : When) (s : State) : Result := runState dt (fun s => s.chip.fwVerifying) (State.fwVerified) s

/-- The flash has been rewritten (R449). -/
def execFlashRewriteDone (dt : When) (verified : Bool) (s : State) : Result :=
  runState dt (fun s => s.chip.fwRewriting) (State.fwRewritten verified) s

/-- A debugger answers the challenge (R453). -/
def execDebugUnlock (dt : When) (signature : Rsa) (s : State) : Result := run dt (Chip.canUnlock) (Chip.unlock signature) s

/-- A checkpoint closes (R460). -/
def execCheckpointClose (dt : When) (s : State) : Result := run dt (Chip.ckptDue) (fun c => c.closeCkpt c.lg.flags) s

/-- A checkpoint is signed and written (R460). -/
def execCheckpointWritten (dt : When) (failed : Bool) (s : State) : Result :=
  run dt (fun c => c.awake && c.hm.idReady && !c.lg.signing.isEmpty) (Chip.writeCkpt failed) s

/-- Refused or failed ledger items are written again (R463). -/
def execLedgerRewrite (dt : When) (failed : Bool) (s : State) : Result :=
  run dt (fun c => c.awake && !c.lg.rewrite.isEmpty) (Chip.lgRewrite failed) s

end Sys2Proof.Machine
end

