-- ==== Sys2Proof/Machine/ServeCommands.lean ====
section
/-! DEFINITION. The meanings of the commands of the serving step unit: for each, when it can occur and what it does. -/

namespace Sys2Proof.Machine

/-- Issue a batch step of a serving context. -/
def Chip.startBatch (x : Nat) (c : Chip) : Chip := match c.svHdr x with | some h => c.issueBatch x h | none => c

/-- Issue a vision step of a serving context. -/
def Chip.startVision (x : Nat) (c : Chip) : Chip := match c.svHdr x with | some h => c.issueVision x h | none => c

/-- The head of the admission queue is considered (R263). -/
def execQueryAdmitHead (dt : When) (s : State) : Result :=
  run dt (fun c => c.awake && !c.sv.queue.isEmpty) (Chip.admitHead) s

/-- A batch step is issued (R271). -/
def execBatchStepAssemble (dt : When) (ctx : Nat) (s : State) : Result := run dt (fun c => c.awake && c.canBatch ctx) (Chip.startBatch ctx) s

/-- A vision step is issued (R272). -/
def execVisionStep (dt : When) (ctx : Nat) (s : State) : Result :=
  run dt (fun c => c.awake && c.canVision ctx) (Chip.startVision ctx) s

end Sys2Proof.Machine
end

