-- ==== Sys2Proof/Machine/Dispatch.lean ====
section
/-! DEFINITION. What each command does: one arm per command, each one direct call of its meaning. -/

namespace Sys2Proof.Machine

def exec (i : Instr) (s : State) : Host.Outcome State Fault Refusal :=
  match i with
  | .qcpHello dt f => Sys2Proof.Machine.execQcpHello dt f s
  | .qcpOpen dt f => Sys2Proof.Machine.execQcpOpen dt f s
  | .qcpClose dt f => Sys2Proof.Machine.execQcpClose dt f s
  | .qcpNop dt f => Sys2Proof.Machine.execQcpNop dt f s
  | .qcpRegRead dt f => Sys2Proof.Machine.execQcpRegRead dt f s
  | .qcpRegWrite dt f => Sys2Proof.Machine.execQcpRegWrite dt f s
  | .qcpBulkRead dt f errs => Sys2Proof.Machine.execQcpBulkRead dt f errs s
  | .qcpBulkWrite dt f => Sys2Proof.Machine.execQcpBulkWrite dt f s
  | .qcpImageLoad dt f => Sys2Proof.Machine.execQcpImageLoad dt f s
  | .qcpAdmit dt f => Sys2Proof.Machine.execQcpAdmit dt f s
  | .qcpAbort dt f => Sys2Proof.Machine.execQcpAbort dt f s
  | .qcpWeightLoad dt f => Sys2Proof.Machine.execQcpWeightLoad dt f s
  | .qcpSeal dt f => Sys2Proof.Machine.execQcpSeal dt f s
  | .sealComplete dt set => Sys2Proof.Machine.execSealComplete dt set s
  | .qcpQuery dt f => Sys2Proof.Machine.execQcpQuery dt f s
  | .qcpQueryTokens dt f => Sys2Proof.Machine.execQcpQueryTokens dt f s
  | .qcpCancel dt f => Sys2Proof.Machine.execQcpCancel dt f s
  | .qcpResend dt f => Sys2Proof.Machine.execQcpResend dt f s
  | .qcpSnapshot dt f => Sys2Proof.Machine.execQcpSnapshot dt f s
  | .qcpWarmReset dt f => Sys2Proof.Machine.execQcpWarmReset dt f s
  | .qcpSleep dt f => Sys2Proof.Machine.execQcpSleep dt f s
  | .qcpAttest dt f => Sys2Proof.Machine.execQcpAttest dt f s
  | .qcpFwLoad dt f => Sys2Proof.Machine.execQcpFwLoad dt f s
  | .qcpFwUpdate dt f => Sys2Proof.Machine.execQcpFwUpdate dt f s
  | .qcpOwnerKey dt f => Sys2Proof.Machine.execQcpOwnerKey dt f s
  | .unknownOpcode dt opcode f => Sys2Proof.Machine.execUnknownOpcode dt opcode f s
  | .qcpFrameDrop dt f => Sys2Proof.Machine.execQcpFrameDrop dt f s
  | .sessionIdleExpiry dt => Sys2Proof.Machine.execSessionIdleExpiry dt s
  | .imgCtlAdmit dt who value => Sys2Proof.Machine.execImgCtlAdmit dt who value s
  | .imgCtlAbort dt who value => Sys2Proof.Machine.execImgCtlAbort dt who value s
  | .validationEnd dt bad => Sys2Proof.Machine.execValidationEnd dt bad s
  | .registerWrite dt who addr value => Sys2Proof.Machine.execRegisterWrite dt who addr value s
  | .latchingLoRead dt who addr => Sys2Proof.Machine.execLatchingLoRead dt who addr s
  | .portRoleWrite dt who port value => Sys2Proof.Machine.execPortRoleWrite dt who port value s
  | .portDownWrite dt who port value => Sys2Proof.Machine.execPortDownWrite dt who port value s
  | .ttPartReset dt who value => Sys2Proof.Machine.execTtPartReset dt who value s
  | .ttCtxRestart dt who value => Sys2Proof.Machine.execTtCtxRestart dt who value s
  | .svCancel dt who value => Sys2Proof.Machine.execSvCancel dt who value s
  | .sySignal dt who value => Sys2Proof.Machine.execSySignal dt who value s
  | .syReset dt who value => Sys2Proof.Machine.execSyReset dt who value s
  | .icSet dt who value => Sys2Proof.Machine.execIcSet dt who value s
  | .icClaim dt who target value => Sys2Proof.Machine.execIcClaim dt who target value s
  | .icEoi dt who target value => Sys2Proof.Machine.execIcEoi dt who target value s
  | .hmCakCtl dt who value => Sys2Proof.Machine.execHmCakCtl dt who value s
  | .lhSleepSleep dt who value => Sys2Proof.Machine.execLhSleepSleep dt who value s
  | .lhSleepWatch dt who value => Sys2Proof.Machine.execLhSleepWatch dt who value s
  | .snRelease dt who value => Sys2Proof.Machine.execSnRelease dt who value s
  | .peerDisable dt who peer value => Sys2Proof.Machine.execPeerDisable dt who peer value s
  | .linkUp dt port partnerMaster => Sys2Proof.Machine.execLinkUp dt port partnerMaster s
  | .linkDown dt port => Sys2Proof.Machine.execLinkDown dt port s
  | .rxFrameDrop dt rx overflow => Sys2Proof.Machine.execRxFrameDrop dt rx overflow s
  | .syncReceived dt m => Sys2Proof.Machine.execSyncReceived dt m s
  | .syncLossHoldover dt => Sys2Proof.Machine.execSyncLossHoldover dt s
  | .mkaFrame dt m => Sys2Proof.Machine.execMkaFrame dt m s
  | .mkaLifeExpiry dt port => Sys2Proof.Machine.execMkaLifeExpiry dt port s
  | .rvfPacket dt p => Sys2Proof.Machine.execRvfPacket dt p s
  | .graceExpiry dt stream => Sys2Proof.Machine.execGraceExpiry dt stream s
  | .inputPeriodExpiry dt stream => Sys2Proof.Machine.execInputPeriodExpiry dt stream s
  | .evidenceCopyDone dt stream fails => Sys2Proof.Machine.execEvidenceCopyDone dt stream fails s
  | .motionJobStart dt fails => Sys2Proof.Machine.execMotionJobStart dt fails s
  | .motionJobDone dt => Sys2Proof.Machine.execMotionJobDone dt s
  | .disparityPairTimeout dt stream => Sys2Proof.Machine.execDisparityPairTimeout dt stream s
  | .disparityJobStart dt fails => Sys2Proof.Machine.execDisparityJobStart dt fails s
  | .disparityJobDone dt => Sys2Proof.Machine.execDisparityJobDone dt s
  | .matmul dt array errs => Sys2Proof.Machine.execMatmul dt array errs s
  | .conv dt array errs => Sys2Proof.Machine.execConv dt array errs s
  | .deconv dt array errs => Sys2Proof.Machine.execDeconv dt array errs s
  | .pool dt array errs => Sys2Proof.Machine.execPool dt array errs s
  | .warp dt array errs => Sys2Proof.Machine.execWarp dt array errs s
  | .vector dt array errs => Sys2Proof.Machine.execVector dt array errs s
  | .norm dt array errs => Sys2Proof.Machine.execNorm dt array errs s
  | .attend dt array errs => Sys2Proof.Machine.execAttend dt array errs s
  | .expand dt array errs => Sys2Proof.Machine.execExpand dt array errs s
  | .copy dt array errs => Sys2Proof.Machine.execCopy dt array errs s
  | .wait dt array => Sys2Proof.Machine.execWait dt array s
  | .signal dt array => Sys2Proof.Machine.execSignal dt array s
  | .invalidDescriptor dt array => Sys2Proof.Machine.execInvalidDescriptor dt array s
  | .waitSatisfied dt array ctx object => Sys2Proof.Machine.execWaitSatisfied dt array ctx object s
  | .waitTimeout dt array ctx object => Sys2Proof.Machine.execWaitTimeout dt array ctx object s
  | .descriptorComplete dt array => Sys2Proof.Machine.execDescriptorComplete dt array s
  | .preemptSaveDone dt array pass => Sys2Proof.Machine.execPreemptSaveDone dt array pass s
  | .restoreDone dt array => Sys2Proof.Machine.execRestoreDone dt array s
  | .stepReplay dt step => Sys2Proof.Machine.execStepReplay dt step s
  | .majorCycleBoundary dt ready => Sys2Proof.Machine.execMajorCycleBoundary dt ready s
  | .tideLiveInstant dt entry bad => Sys2Proof.Machine.execTideLiveInstant dt entry bad s
  | .tideSettledPeriod dt entry bad => Sys2Proof.Machine.execTideSettledPeriod dt entry bad s
  | .tideContextStep dt entry bad => Sys2Proof.Machine.execTideContextStep dt entry bad s
  | .tideMarker dt entry bad => Sys2Proof.Machine.execTideMarker dt entry bad s
  | .stepOverrun dt step => Sys2Proof.Machine.execStepOverrun dt step s
  | .kernelPlace dt part => Sys2Proof.Machine.execKernelPlace dt part s
  | .swapOutDone dt berth => Sys2Proof.Machine.execSwapOutDone dt berth s
  | .swapInDone dt berth => Sys2Proof.Machine.execSwapInDone dt berth s
  | .quantumExpiry dt ctx => Sys2Proof.Machine.execQuantumExpiry dt ctx s
  | .fgInputsReady dt step fails => Sys2Proof.Machine.execFgInputsReady dt step fails s
  | .liveGate dt stream => Sys2Proof.Machine.execLiveGate dt stream s
  | .liveDeadlineMiss dt stream => Sys2Proof.Machine.execLiveDeadlineMiss dt stream s
  | .packDone dt step => Sys2Proof.Machine.execPackDone dt step s
  | .queryAdmitHead dt => Sys2Proof.Machine.execQueryAdmitHead dt s
  | .batchStepAssemble dt ctx => Sys2Proof.Machine.execBatchStepAssemble dt ctx s
  | .visionStep dt ctx => Sys2Proof.Machine.execVisionStep dt ctx s
  | .basinScrub dt hits => Sys2Proof.Machine.execBasinScrub dt hits s
  | .dramScrub dt channel slot errs => Sys2Proof.Machine.execDramScrub dt channel slot errs s
  | .dqsCheck dt channel drift64 retrained => Sys2Proof.Machine.execDqsCheck dt channel drift64 retrained s
  | .mr4Poll dt channel rate => Sys2Proof.Machine.execMr4Poll dt channel rate s
  | .channelPowerDown dt channel => Sys2Proof.Machine.execChannelPowerDown dt channel s
  | .channelSelfRefresh dt channel => Sys2Proof.Machine.execChannelSelfRefresh dt channel s
  | .eventFrameSend dt => Sys2Proof.Machine.execEventFrameSend dt s
  | .vblankStart dt output late => Sys2Proof.Machine.execVblankStart dt output late s
  | .hpdAsserted dt output => Sys2Proof.Machine.execHpdAsserted dt output s
  | .hpdUnplug dt output => Sys2Proof.Machine.execHpdUnplug dt output s
  | .irqHpd dt output lostLock => Sys2Proof.Machine.execIrqHpd dt output lostLock s
  | .linkTrainingDone dt output ok => Sys2Proof.Machine.execLinkTrainingDone dt output ok s
  | .tornCheck dt window => Sys2Proof.Machine.execTornCheck dt window s
  | .heartbeatTimer dt => Sys2Proof.Machine.execHeartbeatTimer dt s
  | .pwpHeartbeat dt f => Sys2Proof.Machine.execPwpHeartbeat dt f s
  | .pwpRead dt f errs => Sys2Proof.Machine.execPwpRead dt f errs s
  | .pwpReadData dt f => Sys2Proof.Machine.execPwpReadData dt f s
  | .pwpSignal dt f => Sys2Proof.Machine.execPwpSignal dt f s
  | .pwpSignalAck dt f => Sys2Proof.Machine.execPwpSignalAck dt f s
  | .peerReqResend dt tag => Sys2Proof.Machine.execPeerReqResend dt tag s
  | .peerReqTimeout dt tag => Sys2Proof.Machine.execPeerReqTimeout dt tag s
  | .boot dt ctrlErr trained => Sys2Proof.Machine.execBoot dt ctrlErr trained s
  | .idKeyReady dt => Sys2Proof.Machine.execIdKeyReady dt s
  | .rngHealthFail dt => Sys2Proof.Machine.execRngHealthFail dt s
  | .flashRewriteDone dt verified => Sys2Proof.Machine.execFlashRewriteDone dt verified s
  | .debugUnlock dt signature => Sys2Proof.Machine.execDebugUnlock dt signature s
  | .checkpointClose dt => Sys2Proof.Machine.execCheckpointClose dt s
  | .checkpointWritten dt failed => Sys2Proof.Machine.execCheckpointWritten dt failed s
  | .ledgerRewrite dt failed => Sys2Proof.Machine.execLedgerRewrite dt failed s
  | .opTransition dt acked => Sys2Proof.Machine.execOpTransition dt acked s
  | .pmbusPoll dt vout iout ulinear16 => Sys2Proof.Machine.execPmbusPoll dt vout iout ulinear16 s
  | .pmbusRetry dt acked => Sys2Proof.Machine.execPmbusRetry dt acked s
  | .powerCapWindow dt => Sys2Proof.Machine.execPowerCapWindow dt s
  | .pmbAlert dt => Sys2Proof.Machine.execPmbAlert dt s
  | .thermalSample dt readings => Sys2Proof.Machine.execThermalSample dt readings s
  | .tripRecovery dt => Sys2Proof.Machine.execTripRecovery dt s
  | .domainSwitchOn dt domain => Sys2Proof.Machine.execDomainSwitchOn dt domain s
  | .wakeNAsserted dt ticks => Sys2Proof.Machine.execWakeNAsserted dt ticks s
  | .i2cAddressMatch dt address => Sys2Proof.Machine.execI2cAddressMatch dt address s
  | .i2cStatusRead dt => Sys2Proof.Machine.execI2cStatusRead dt s
  | .watchCycleStart dt => Sys2Proof.Machine.execWatchCycleStart dt s
  | .watchCompare dt => Sys2Proof.Machine.execWatchCompare dt s
  | .watchCycleTimeout dt => Sys2Proof.Machine.execWatchCycleTimeout dt s
  | .wake dt power trained => Sys2Proof.Machine.execWake dt power trained s
  | .wakePgRetry dt power trained => Sys2Proof.Machine.execWakePgRetry dt power trained s
  | .powerOnReset dt role i2cAddr testMode => Sys2Proof.Machine.execPowerOnReset dt role i2cAddr testMode s
  | .warmResetPin dt lowNs => Sys2Proof.Machine.execWarmResetPin dt lowNs s
  | .coreWatchdog dt core => Sys2Proof.Machine.execCoreWatchdog dt core s
  | .snapInTrigger dt highNs => Sys2Proof.Machine.execSnapInTrigger dt highNs s
  | .bestMasterSelection dt port => Sys2Proof.Machine.execBestMasterSelection dt port s
  | .fwVerificationEnd dt => Sys2Proof.Machine.execFwVerificationEnd dt s
  | .swapInHoldExpiry dt ctx => Sys2Proof.Machine.execSwapInHoldExpiry dt ctx s
  | .lowPowerExit dt channel => Sys2Proof.Machine.execLowPowerExit dt channel s
  | .sleepEntryComplete dt => Sys2Proof.Machine.execSleepEntryComplete dt s
  | .randomSourcePassing dt => Sys2Proof.Machine.execRandomSourcePassing dt s
  | .mkaHelloTime dt port => Sys2Proof.Machine.execMkaHelloTime dt port s
  | .voltageSettled dt good => Sys2Proof.Machine.execVoltageSettled dt good s
  | .powerOnResetAsserted dt => Sys2Proof.Machine.execPowerOnResetAsserted dt s

end Sys2Proof.Machine
end

