-- ==== Sys2Proof/Safety.lean ====
section
/-! DEFINITION. The terms in which the statements speak of a run: when a state is sound, when a command completes, what a change leaves
alone, and when the host's command is taken up. -/

namespace Sys2Proof.Machine

/-- The four memories are in canonical form. -/
def State.memWf (s : State) : Bool := s.chip.dram.wf && s.chip.basin.wf && s.chip.sram.wf && s.flash.mem.wf

/-- The flash is in canonical form, at most four owner slots are written (R445), the epoch is at most 64 (R446), and between commands no error
of one waits to be met (log 2). -/
def State.sound (s : State) : Prop :=
  s.flash.mem.wf = true ∧ s.fuses.ownerSlots.length ≤ 4 ∧ s.fuses.epoch ≤ 64 ∧ s.chip.met = []

/-- Every fuse written in f is written alike in g (R436: fuses are written once and never cleared). -/
def Fuses.keeps (f g : Fuses) : Prop :=
  g.grade = f.grade ∧ g.rootHash = f.rootHash ∧ g.baseMac = f.baseMac ∧ g.arrayFused = f.arrayFused ∧
    (f.idSeed ≠ none → g.idSeed = f.idSeed) ∧ f.ownerSlots <+: g.ownerSlots ∧ f.epoch ≤ g.epoch ∧ g.provCak = f.provCak

end Sys2Proof.Machine

namespace Sys2Proof

/-- The commands that may reach the fuses or the flash: a command of QCP (it may carry an owner key), the boot ROM after any reset, the
random source, and the firmware update. -/
def Instr.reachesStore : Instr → Bool
  | .qcpHello .. | .qcpOpen .. | .qcpClose .. | .qcpNop .. | .qcpRegRead .. | .qcpRegWrite .. | .qcpBulkRead .. | .qcpBulkWrite ..
  | .qcpImageLoad .. | .qcpAdmit .. | .qcpAbort .. | .qcpWeightLoad .. | .qcpSeal .. | .qcpQuery .. | .qcpQueryTokens .. | .qcpCancel ..
  | .qcpResend .. | .qcpSnapshot .. | .qcpWarmReset .. | .qcpSleep .. | .qcpAttest .. | .qcpFwLoad .. | .qcpFwUpdate .. | .qcpOwnerKey ..
  | .unknownOpcode .. | .boot .. | .randomSourcePassing .. | .fwVerificationEnd .. | .flashRewriteDone .. | .tripRecovery .. | .wake ..
  | .wakePgRetry .. | .warmResetPin .. | .powerOnReset .. | .powerOnResetAsserted .. => true
  | _ => false

end Sys2Proof

namespace Sys2Proof.Machine

/-! ### What a change leaves alone -/

/-- The parts of the chip. -/
inductive Blk where
  | clk
  | por
  | id
  | draws
  | cfg
  | qy
  | me
  | sd
  | oc
  | fg
  | sv
  | tt
  | mc
  | bs
  | sy
  | ic
  | so
  | pl
  | hm
  | lg
  | pm
  | lh
  | tm
  | sn
  | dram
  | basin
  | sram
  | tx
  | bus
  deriving DecidableEq, Repr

/-- A part is the same in two chips. -/
def Blk.same : Blk → Chip → Chip → Prop
  | .clk, c, d => d.clk = c.clk
  | .por, c, d => d.por = c.por
  | .id, c, d => d.id = c.id
  | .draws, c, d => d.draws = c.draws
  | .cfg, c, d => d.cfg = c.cfg
  | .qy, c, d => d.qy = c.qy
  | .me, c, d => d.me = c.me
  | .sd, c, d => d.sd = c.sd
  | .oc, c, d => d.oc = c.oc
  | .fg, c, d => d.fg = c.fg
  | .sv, c, d => d.sv = c.sv
  | .tt, c, d => d.tt = c.tt
  | .mc, c, d => d.mc = c.mc
  | .bs, c, d => d.bs = c.bs
  | .sy, c, d => d.sy = c.sy
  | .ic, c, d => d.ic = c.ic
  | .so, c, d => d.so = c.so
  | .pl, c, d => d.pl = c.pl
  | .hm, c, d => d.hm = c.hm
  | .lg, c, d => d.lg = c.lg
  | .pm, c, d => d.pm = c.pm
  | .lh, c, d => d.lh = c.lh
  | .tm, c, d => d.tm = c.tm
  | .sn, c, d => d.sn = c.sn
  | .dram, c, d => d.dram = c.dram
  | .basin, c, d => d.basin = c.basin
  | .sram, c, d => d.sram = c.sram
  | .tx, c, d => d.tx = c.tx
  | .bus, c, d => d.bus = c.bus

/-- From c to d nothing changes but the parts named. -/
def Chip.frame (c d : Chip) (but : List Blk) : Prop := ∀ b, b ∉ but → b.same c d

/-! ### Completion -/

/-- The command completes: outside the factory test state, at every state whose chip at the command's time satisfies the hypothesis, it answers
a next state that differs in the chip alone (not in the fuses, the flash or the queue); the two chips, before and after its effect, satisfy
the conclusion, and what follows every effect then follows (R306, R509, R524). -/
def Does (i : Instr) (dt : When) (hyp : Chip → Prop) (concl : Chip → Chip → Prop) : Prop :=
  ∀ s : State, s.chip.id.straps.testMode = false → hyp (s.chip.arrive dt) →
    ∃ e, exec i s = .next { s with chip := e.follow } ∧ concl (s.chip.arrive dt) e

/-- The same for a command that may reach the fuses or the flash. -/
def DoesState (i : Instr) (dt : When) (hyp : State → Prop) (concl : State → State → Prop) : Prop :=
  ∀ s : State, s.chip.id.straps.testMode = false → hyp { s with chip := s.chip.arrive dt } →
    ∃ e : State, exec i s = .next { e with chip := e.chip.follow } ∧ e.pending = s.pending ∧ concl { s with chip := s.chip.arrive dt } e

/-- The registers of a block window answer: its domain is on (R15). -/
def Chip.windowOn (c : Chip) (w : Nat) : Bool := !(windowDomain w).any c.isOff

/-- A write of a register of a block window has the effect, whoever writes it and whatever the value, and is answered without an error. -/
def Writes (addr window : Nat) (effect : Word → Chip → Chip) : Prop :=
  ∀ dt who v, Does (.registerWrite dt who addr v) dt (fun b => b.up = true ∧ b.windowOn window = true)
    (fun b e => e = (effect v b).answer .done)

/-- A read of the low word of a 64-bit count answers it and latches the upper word, which the high register then reads (R93). -/
def Latches (low window : Nat) (count : Chip → Nat) (hold : Word → Chip → Chip) : Prop :=
  ∀ dt who, Does (.latchingLoRead dt who low) dt (fun b => b.up = true ∧ b.windowOn window = true)
    (fun b e => e = (hold (hiOf (count b)) b).answer (.value (loOf (count b))) ∧ e.regRead (low + 4) = some (hiOf (count b)))

/-- No two region-table entries hold the same slot of DRAM in a copy that remains. -/
def Chip.slotsApart (c : Chip) : Prop :=
  ∀ i j e f, c.entry i = some e → c.entry j = some f → i ≠ j → ∀ x ∈ e.writeAt 0, x ∉ f.writeAt 0

/-- One more raising of a source was counted (R375): its arrival counter rose by one, saturating at 255. -/
def Chip.counted (b e : Chip) (src : Nat) : Prop := vget 0 e.ic.count src = min 255 (vget 0 b.ic.count src + 1)

/-- The source of a target that a claim takes (R378): it qualifies, and no other that qualifies has a higher priority, or the same and a lower
number. -/
def IntCtl.wins (ic : IntCtl) (t n : Nat) : Prop :=
  n < 1024 ∧ ic.qualifies t n = true ∧ ∀ m < 1024, ic.qualifies t m = true →
    (ic.routeOf m).prio < (ic.routeOf n).prio ∨ (ic.routeOf m).prio = (ic.routeOf n).prio ∧ n ≤ m

/-- A context that is neither absent nor already faulted ends faulted with a code (R150, R311). -/
def Chip.faults (b e : Chip) (x code : Nat) : Prop :=
  x < 256 → (b.ctx x).st ≠ .absent → (b.ctx x).st ≠ .faulted → (e.ctx x).st = .faulted ∧ (e.ctx x).fault = code

/-! ### Commands of QCP -/

/-- The frame that answers a command (R407, R408): to the port and address it came from, with its tag, opcode, sequence and session. -/
def responseFrame (f : QcpFrame) (etype : Word) (op : BitVec 16) (status flags : Nat) (payload : Bytes) : TxFrame :=
  { port := f.rx.port, dst := f.rx.src, tag := rxTag f.rx, etype := BitVec.ofNat 16 etype.toNat,
    bytes := qcpFrame 1 op.toNat f.seq f.session status flags payload }

/-- A frame of QCP comes through R66 to R71 while the device receives it, and its payload is no longer than a frame's may be. -/
def Chip.takesQcp (b : Chip) (f : QcpFrame) : Prop :=
  b.hearsQcp f.rx = true ∧ (b.ingress f.rx).2 = some .qcp ∧ f.payload.length ≤ 8256

/-- The open session is the frame's. -/
def Chip.ofSession (b : Chip) (f : QcpFrame) : Prop := ∃ x, b.pl.session = some x ∧ x.id = f.session

/-- The frame is the next command of its session, and the one after it is not waiting (R413). -/
def Chip.inTurn (b : Chip) (f : QcpFrame) : Prop :=
  b.takesQcp f ∧ b.ofSession f ∧ f.seq = b.pl.next ∧ ∀ r ∈ b.pl.held, r.f.seq ≠ f.seq ∧ r.f.seq ≠ f.seq + 1

/-- The same, and the device runs firmware and has room for one more command of class M, V or S (R424, R442). -/
def Chip.inTurnRunning (b : Chip) (f : QcpFrame) : Prop := b.inTurn f ∧ b.hm.stage = .running ∧ b.pl.deferred.length < 8

/-- The chip once it has accepted the command: the next sequence is due, and the session has heard from its host at the frame's port. -/
def Chip.accepted (b : Chip) (f : QcpFrame) : Chip :=
  (b.ingress f.rx).1.updPl (fun p => { p with
    next := p.next + 1
    session := p.session.map (fun s => { s with lastAt := b.clk.ref, port := f.rx.port, tag := rxTag f.rx }) })

/-- The commands that a session's window orders (R413), with their operations. -/
def qcpRows (dt : When) (f : QcpFrame) (errs : List SectorErr) (code : BitVec 16) : List (Instr × Op) :=
  [(.qcpClose dt f, .close), (.qcpNop dt f, .nop), (.qcpRegRead dt f, .regRead), (.qcpRegWrite dt f, .regWrite),
    (.qcpBulkRead dt f errs, .bulkRead), (.qcpBulkWrite dt f, .bulkWrite), (.qcpImageLoad dt f, .imageLoad), (.qcpAdmit dt f, .admitImg),
    (.qcpAbort dt f, .abortImg), (.qcpWeightLoad dt f, .weightLoad), (.qcpSeal dt f, .sealSet), (.qcpQuery dt f, .query),
    (.qcpQueryTokens dt f, .queryTokens), (.qcpCancel dt f, .cancel), (.qcpResend dt f, .resend), (.qcpSnapshot dt f, .snapshot),
    (.qcpWarmReset dt f, .warmReset), (.qcpSleep dt f, .sleep), (.qcpAttest dt f, .attest), (.qcpFwLoad dt f, .fwLoad),
    (.qcpFwUpdate dt f, .fwUpdate), (.qcpOwnerKey dt f, .ownerKey), (.unknownOpcode dt code f, Op.ofCode code)]

end Sys2Proof.Machine
end

