-- ==== Sys2Proof/Certificates/Slice0/Obligations.lean ====
section
/-! DEFINITION. The statements for the provers, by family of commands. In each, b is the chip (or the state) at the command's time and e the one
after the command's effect, before what follows every effect (Does and DoesState, in Safety.lean). -/

open Sys2Proof Sys2Proof.Machine

/-! ### The machine -/

/-- A step takes the command at the front of the queue and runs it with the queue's rest; an empty queue idles (log 1, the model's
choice). -/
def Obligations.StepRunsTheFrontCommand : Prop :=
  (∀ (i : Instr) (rest : List Instr) (s : State), step { s with pending := i :: rest } = exec i { s with pending := rest }) ∧
    ∀ s : State, s.pending = [] → step s = .next s

/-- The registers whose reset value the register tables give as a number other than 0, in windows whose domain is on at reset. The
state after reset is sound. -/
def Obligations.ResetState : Prop :=
  ((∀ r ∈ [(0x40000, 0), (0x0000, 0xA6A0), (0x0004, 0x64300A01), (0x0010, 0x220), (0x0014, 0x410), (0x0018, 0x1E000), (0x001C, 0x4048),
       (0x10100, 0xF00), (0x11020, 0x14), (0x11024, 0x20), (0x60008, 0x800), (0x6000C, 0x200), (0x70014, 0x32), (0x71000, 0xFF000000),
       (0x80008, 6), (0x8000C, 0x18), (0x80010, 0xFFFFFFFF), (0x8004C, 0xFFFFFFFF), (0x9000C, 0x258), (0x90018, 0xFFFFFFFF),
       (0xB0404, 0xFFFF), (0xB040C, 0x100), (0x120008, 0x88B5), (0x12000C, 0x88B6), (0x120010, 0xBB8), (0x120014, 0x7D0),
       (0x120028, 0xFFFFFFFF), (0x12400C, 0x100), (0xD0008, 1), (0xF0000, 0x30033), (0xF000C, 0x73), (0xF0010, 0x10040),
       (0x100020, 0x1F0000), (0x100024, 0xA), (0x100028, 0x100000), (0x130008, 3), (0x110008, 7)],
       State.reset.chip.regRead r.1 = some (w32 r.2)) ∧
     (∀ k < 256, State.reset.chip.regRead (0x18000 + 0x40 * k) = some 6 ∧ State.reset.chip.regRead (0x18030 + 0x40 * k) = some 0x1F4 ∧
       State.reset.chip.regRead (0x18034 + 0x40 * k) = some 0xFFFFFFFF ∧ State.reset.chip.regRead (0x51000 + 0x40 * k) = some 7 ∧
       State.reset.chip.regRead (0x51008 + 0x40 * k) = some 0xFFFFFFFF ∧ State.reset.chip.regRead (0x5100C + 0x40 * k) = some 0xFFFFFFFF) ∧
     State.reset.pending = [] ∧ State.reset.chip.dram = [] ∧ State.reset.chip.basin = [] ∧ State.reset.chip.sram = []) ∧
  (State.reset.sound ∧ State.reset.memWf = true)

/-- In the factory test state every command is refused but power-on reset and its release; outside it every command answers a next
state. -/
def Obligations.OnlyFactoryTestRefuses : Prop :=
  ∀ (i : Instr) (s : State),
    (s.chip.id.straps.testMode = true →
      (∀ dt role addr mode, i ≠ .powerOnReset dt role addr mode) → (∀ dt, i ≠ .powerOnResetAsserted dt) →
      exec i s = .refused .factoryTestState) ∧
    (s.chip.id.straps.testMode = false → ∃ t, exec i s = .next t)

/-- No command changes the queue behind it. Every other command leaves the fuses and the flash as they are. -/
def Obligations.CommandsLeaveTheRest : Prop :=
  (∀ (i : Instr) (s t : State), exec i s = .next t → t.pending = s.pending) ∧
  (∀ (i : Instr) (s t : State), i.reachesStore = false → exec i s = .next t → t.fuses = s.fuses ∧ t.flash = s.flash)

/-- Every command of the table has its own effect, whatever its operands, whenever the state is one in which it can occur: a command
of QCP in its turn while the device runs firmware (R413, R418), HELLO and OPEN when they are received (R410), a register access that
no error answers (R5, R15), and each event when the condition of its rule holds (log 3). -/
def Obligations.EveryCommandHasItsEffect : Prop :=
  ∀ dt : When,
    (∀ (f : QcpFrame) code errs,
      Does (.qcpHello dt f) dt (fun b => b.takesQcp f) (fun b e => e = (b.ingress f.rx).1.doHello f) ∧
      Does (.qcpOpen dt f) dt (fun b => b.takesQcp f) (fun b e => e = (b.ingress f.rx).1.doOpen f) ∧
      ∀ r ∈ qcpRows dt f errs code, r.2 ≠ .hello → r.2 ≠ .opn → r.2 = .bulkRead ∨ errs = [] →
        DoesState r.1 dt (fun b => b.chip.inTurnRunning f)
          (fun b e => e = { b with chip := b.chip.accepted f }.start { op := r.2, f := f, errs := errs })) ∧
    (∀ who value (port target peer : Nat), ∀ r ∈ (show List (Instr × Nat) from
        [(.imgCtlAdmit dt who value, 0x100), (.imgCtlAbort dt who value, 0x100), (.portRoleWrite dt who port value, 0x11000 + 0x100 * port),
         (.portDownWrite dt who port value, 0x11000 + 0x100 * port), (.ttPartReset dt who value, 0x70028), (.ttCtxRestart dt who value, 0x7002C),
         (.svCancel dt who value, 0x60010), (.sySignal dt who value, 0xA0010), (.syReset dt who value, 0xA0014), (.icSet dt who value, 0xB000C),
         (.icClaim dt who target value, 0xB0400 + 0x10 * target), (.icEoi dt who target value, 0xB0408 + 0x10 * target),
         (.hmCakCtl dt who value, 0xD0120), (.lhSleepSleep dt who value, 0x100008), (.lhSleepWatch dt who value, 0x100008),
         (.snRelease dt who value, 0x11000C), (.peerDisable dt who peer value, 0x121008 + 0x10 * peer)]),
      Does r.1 dt (fun b => b.reaches who = true ∧ (b.regWrite who r.2 value).2 = none)
        (fun b e => e = (b.regWrite who r.2 value).1.answer .done)) ∧
    (∀ who addr value, Does (.registerWrite dt who addr value) dt (fun b => b.reaches who = true ∧ (b.regWrite who addr value).2 = none)
      (fun b e => e = (b.regWrite who addr value).1.answer .done)) ∧
    (∀ who addr w, Does (.latchingLoRead dt who addr) dt (fun b => b.reaches who = true ∧ b.regRead addr = some w)
      (fun b e => e = (b.regTouch addr).answer (.value w))) ∧
    (∀ (g : RawQcp) (set : Nat) (bad : Option Nat), ∀ r ∈ (show List (Instr × (Chip → Bool) × (Chip → Chip)) from
        [(.qcpFrameDrop dt g, fun c => c.hearsQcp g.rx, Chip.rawQcp g), (.sessionIdleExpiry dt, Chip.idleDue, Chip.closeSession),
         (.sealComplete dt set, fun c => c.sealing set, Chip.sealDone set),
         (.validationEnd dt bad, fun c => c.awake && c.cfg.state == .validating, fun c => (c.endValidation bad).answerAdmit),
         (.eventFrameSend dt, Chip.canSendEvent, Chip.sendEvent)]),
      Does r.1 dt (fun b => r.2.1 b = true) (fun b e => e = r.2.2 b)) ∧
    (∀ (port stream : Nat) (partnerMaster overflow : Bool) (rx : RxInfo) (m : SyncMsg) (source : Option Nat) (k : MkaFrame) (p : RvfPacket)
      (fails : List JobErr), ∀ r ∈ (show List (Instr × (Chip → Bool) × (Chip → Chip)) from
        [(.linkUp dt port partnerMaster, fun c => c.canLink port partnerMaster, Chip.linkUp port),
         (.linkDown dt port, fun c => c.receiving && (c.port port).link, Chip.linkDrop port),
         (.rxFrameDrop dt rx overflow, fun c => c.hears rx, Chip.rxDrop rx overflow), (.syncReceived dt m, fun c => c.hears m.rx, Chip.syncFrame m),
         (.syncLossHoldover dt, Chip.holdoverDue, Chip.holdover),
         (.bestMasterSelection dt source, fun c => c.receiving && source.all (fun q => (c.port q).link), Chip.selectMaster source),
         (.mkaFrame dt k, fun c => c.mkaRuns && c.hears k.rx, Chip.mkaFrame k),
         (.mkaLifeExpiry dt port, fun c => c.mkaDead port, Chip.mkaLost port),
         (.mkaHelloTime dt port, fun c => c.mkaHelloDue port, Chip.mkaHello port), (.rvfPacket dt p, fun c => c.hears p.rx, Chip.rvf p),
         (.graceExpiry dt stream, fun c => c.graceDue stream, Chip.closeStream stream),
         (.inputPeriodExpiry dt stream, fun c => c.periodDue stream, Chip.closeStream stream),
         (.evidenceCopyDone dt stream fails, fun c => c.awake && (c.evidCopy stream).isSome, Chip.evidDone stream fails)]),
      Does r.1 dt (fun b => r.2.1 b = true) (fun b e => e = r.2.2 b)) ∧
    (∀ (fails : List JobErr) (stream : Nat), ∀ r ∈ (show List (Instr × (Chip → Bool) × (Chip → Chip)) from
        [(.motionJobStart dt fails, Chip.motionReady, Chip.motionStart fails),
         (.motionJobDone dt, fun c => c.awake && c.me.eng.run.isSome, Chip.motionDone),
         (.disparityPairTimeout dt stream, fun c => c.awake && (c.pairLate stream).isSome, Chip.pairTimeout stream),
         (.disparityJobStart dt fails, Chip.dispReady, Chip.dispStart fails),
         (.disparityJobDone dt, fun c => c.awake && c.sd.eng.run.isSome, Chip.dispDone)]),
      Does r.1 dt (fun b => r.2.1 b = true) (fun b e => e = r.2.2 b)) ∧
    (∀ (array ctx object pass : Nat) (errs : List HwErr) (step : Word), ∀ r ∈ (show List (Instr × (Chip → Bool) × (Chip → Chip)) from
        [(.matmul dt array errs, fun c => c.descReady array 1, Chip.execute array errs),
         (.conv dt array errs, fun c => c.descReady array 2, Chip.execute array errs),
         (.deconv dt array errs, fun c => c.descReady array 3, Chip.execute array errs),
         (.pool dt array errs, fun c => c.descReady array 4, Chip.execute array errs),
         (.warp dt array errs, fun c => c.descReady array 5, Chip.execute array errs),
         (.vector dt array errs, fun c => c.descReady array 6, Chip.execute array errs),
         (.norm dt array errs, fun c => c.descReady array 7, Chip.execute array errs),
         (.attend dt array errs, fun c => c.descReady array 8, Chip.execute array errs),
         (.expand dt array errs, fun c => c.descReady array 9, Chip.execute array errs),
         (.copy dt array errs, fun c => c.descReady array 10, Chip.execute array errs),
         (.wait dt array, fun c => c.descReady array 11, Chip.takeWait array),
         (.signal dt array, fun c => c.descReady array 12, Chip.takeSignal array),
         (.invalidDescriptor dt array, fun c => c.invalidOk array, Chip.invalid array),
         (.waitSatisfied dt array ctx object, fun c => c.satOk array ctx object, Chip.waitDone array ctx object),
         (.waitTimeout dt array ctx object, fun c => c.timeoutOk array ctx object, Chip.waitTimeout array ctx object),
         (.descriptorComplete dt array, fun c => c.completeOk array, Chip.complete array),
         (.preemptSaveDone dt array pass, fun c => c.awake && (c.arr array).st == .save, Chip.saveDone array pass),
         (.restoreDone dt array, fun c => c.awake && (c.arr array).st == .restore, Chip.restoreDone array),
         (.stepReplay dt step, fun c => c.replayOk step, Chip.replayStep step)]),
      Does r.1 dt (fun b => r.2.1 b = true) (fun b e => e = r.2.2 b)) ∧
    (∀ (ready bad : Bool) (entry part berth ctx core : Nat) (step : Word), ∀ r ∈ (show List (Instr × (Chip → Bool) × (Chip → Chip)) from
        [(.majorCycleBoundary dt ready, Chip.boundaryDue, fun c => (c.boundary ready).regate),
         (.tideLiveInstant dt entry bad, Chip.tideOk 0 entry bad, Chip.tideRun entry bad),
         (.tideSettledPeriod dt entry bad, Chip.tideOk 1 entry bad, Chip.tideRun entry bad),
         (.tideContextStep dt entry bad, Chip.tideOk 2 entry bad, Chip.tideRun entry bad),
         (.tideMarker dt entry bad, Chip.tideOk 3 entry bad, Chip.tideRun entry bad),
         (.stepOverrun dt step, fun c => c.overrunDue step, Chip.overrun step),
         (.kernelPlace dt part, fun c => c.awake && (c.nextPlacement part).isSome, Chip.placeNext part),
         (.swapOutDone dt berth, fun c => c.awake && (c.berth berth).xfer == 1, Chip.swapOutDone berth dt.fails),
         (.swapInDone dt berth, fun c => c.awake && (c.berth berth).xfer == 2, Chip.swapInDone berth),
         (.quantumExpiry dt ctx, fun c => c.quantumDue ctx, fun c => (c.updCtx ctx (fun k => { k with quantum := true })).schedule),
         (.swapInHoldExpiry dt ctx, fun c => c.holdDue ctx, fun c => (c.updCtx ctx (fun k => { k with progressed := true })).schedule),
         (.coreWatchdog dt core, fun c => c.up && decide (core < 4), Chip.updSn (fun n => { n with restarts := vupd 0 n.restarts core satInc }))]),
      Does r.1 dt (fun b => r.2.1 b = true) (fun b e => e = r.2.2 b)) ∧
    (∀ (step : Word) (fails : List JobErr) (stream : Nat), ∀ r ∈ (show List (Instr × (Chip → Bool) × (Chip → Chip)) from
        [(.fgInputsReady dt step fails, fun c => c.awake && (c.step? step).any c.canBind, Chip.fgInputs step fails),
         (.liveGate dt stream, fun c => c.awake && (c.gateOf stream).isSome, Chip.closeGate stream),
         (.liveDeadlineMiss dt stream, fun c => c.awake && (c.missOf stream).isSome, Chip.missLive stream),
         (.packDone dt step, fun c => c.awake && (c.packOf step).isSome, Chip.endPack step dt.fails)]),
      Does r.1 dt (fun b => r.2.1 b = true) (fun b e => e = r.2.2 b)) ∧
    (∀ (ctx : Nat), ∀ r ∈ (show List (Instr × (Chip → Bool) × (Chip → Chip)) from
        [(.queryAdmitHead dt, fun c => c.awake && !c.sv.queue.isEmpty, Chip.admitHead),
         (.batchStepAssemble dt ctx, fun c => c.awake && c.canBatch ctx, Chip.startBatch ctx),
         (.visionStep dt ctx, fun c => c.awake && c.canVision ctx, Chip.startVision ctx)]),
      Does r.1 dt (fun b => r.2.1 b = true) (fun b e => e = r.2.2 b)) ∧
    (∀ (hits : List ScrubHit) (channel slot drift64 : Nat) (errs : List SectorErr) (retrained : Bool) (rate : BitVec 4), ∀ r ∈ (show List (Instr
      × (Chip → Bool) × (Chip → Chip)) from
        [(.basinScrub dt hits, Chip.awake, Chip.basinScrub hits),
         (.dramScrub dt channel slot errs, fun c => c.chanOn channel && slot == (c.chan channel).scrubSlot, Chip.dramScrub channel slot errs),
         (.dqsCheck dt channel drift64 retrained, fun c => c.chanOn channel, Chip.dqsCheck channel drift64 retrained),
         (.mr4Poll dt channel rate, fun c => c.chanOn channel, Chip.mr4Poll channel rate),
         (.channelPowerDown dt channel, fun c => c.canPowerDown channel, Chip.setPower channel .powerDown),
         (.channelSelfRefresh dt channel, fun c => c.canSelfRefresh channel, Chip.setPower channel .selfRefresh),
         (.lowPowerExit dt channel, fun c => c.canExit channel, Chip.setPower channel .active)]),
      Does r.1 dt (fun b => r.2.1 b = true) (fun b e => e = r.2.2 b)) ∧
    (∀ (output window : Nat) (late : List (Nat × Nat × Nat)) (lostLock ok : Bool) (f : PwpFrame) (errs : List SectorErr) (tag : Word), ∀ r ∈
      (show List (Instr × (Chip → Bool) × (Chip → Chip)) from
        [(.vblankStart dt output late, fun c => c.vblankDue output, Chip.vblank output late),
         (.hpdAsserted dt output, fun c => c.outputOn output && !(c.out output).hpd, Chip.hpdUp output),
         (.hpdUnplug dt output, fun c => c.outputOn output && (c.out output).hpd, Chip.hpdDown output),
         (.irqHpd dt output lostLock, fun c => c.outputOn output && (c.out output).st == .active, Chip.irqHpd output lostLock),
         (.linkTrainingDone dt output ok, fun c => c.outputOn output && (c.out output).st == .training, Chip.trained output ok),
         (.tornCheck dt window, fun c => c.awake && (c.win window).valid && (c.out (c.win window).output).st == .active, Chip.tornCheck window),
         (.heartbeatTimer dt, Chip.heartbeatDue, Chip.heartbeats), (.pwpHeartbeat dt f, fun c => c.awake && c.hears f.rx, Chip.pwpHeartbeat f),
         (.pwpRead dt f errs, fun c => c.awake && c.hears f.rx, Chip.pwpRead f errs),
         (.pwpReadData dt f, fun c => c.awake && c.hears f.rx, Chip.pwpReadData f),
         (.pwpSignal dt f, fun c => c.awake && c.hears f.rx, Chip.pwpSignal f),
         (.pwpSignalAck dt f, fun c => c.awake && c.hears f.rx, Chip.pwpSignalAck f),
         (.peerReqResend dt tag, fun c => c.awake && c.resendDue tag, Chip.resendReq tag),
         (.peerReqTimeout dt tag, fun c => c.awake && c.reqLate tag, Chip.reqTimedOut tag)]),
      Does r.1 dt (fun b => r.2.1 b = true) (fun b e => e = r.2.2 b)) ∧
    (∀ (signature : Rsa) (failed : Bool), ∀ r ∈ (show List (Instr × (Chip → Bool) × (Chip → Chip)) from
        [(.idKeyReady dt, Chip.canDerive, Chip.derive), (.rngHealthFail dt, Chip.up, Chip.rngFail),
         (.debugUnlock dt signature, Chip.canUnlock, Chip.unlock signature), (.checkpointClose dt, Chip.ckptDue, fun c => c.closeCkpt c.lg.flags),
         (.checkpointWritten dt failed, fun c => c.awake && c.hm.idReady && !c.lg.signing.isEmpty, Chip.writeCkpt failed),
         (.ledgerRewrite dt failed, fun c => c.awake && !c.lg.rewrite.isEmpty, Chip.lgRewrite failed)]),
      Does r.1 dt (fun b => r.2.1 b = true) (fun b e => e = r.2.2 b)) ∧
    (∀ (acked good : Bool) (vout iout : Option (BitVec 16)) (ulinear16 : Option Bool) (readings : List Int) (domain ticks address highNs : Nat),
      ∀ r ∈ (show List (Instr × (Chip → Bool) × (Chip → Chip)) from
        [(.opTransition dt acked, Chip.canMove, Chip.startMove acked), (.voltageSettled dt good, fun c => c.raisingTo.isSome, Chip.settleVolt good),
         (.pmbusPoll dt vout iout ulinear16, Chip.awake, Chip.poll vout iout ulinear16),
         (.pmbusRetry dt acked, Chip.retryDue, Chip.retryMove acked), (.powerCapWindow dt, Chip.windowDue, Chip.capWindow),
         (.pmbAlert dt, Chip.awake, Chip.pmErr 3), (.thermalSample dt readings, fun c => !c.por, Chip.thermal readings),
         (.domainSwitchOn dt domain, fun c => c.canSwitchOn domain, Chip.switchOn domain),
         (.wakeNAsserted dt ticks, fun c => !c.por && decide (33 ≤ ticks), Chip.latchWake 2 0),
         (.i2cAddressMatch dt address, fun c => c.i2cMatches address, Chip.i2cMatch address), (.i2cStatusRead dt, fun c => !c.por, Chip.i2cRead),
         (.watchCycleStart dt, Chip.cycleDue, Chip.startCycle), (.watchCompare dt, Chip.compareDue, Chip.compare),
         (.watchCycleTimeout dt, Chip.watchLate, Chip.watchFail), (.sleepEntryComplete dt, fun c => !c.por && c.lh.st == .entering, Chip.asleep),
         (.snapInTrigger dt highNs, fun c => c.up && decide (100 ≤ highNs), Chip.askSnap 1 0)]),
      Does r.1 dt (fun b => r.2.1 b = true) (fun b e => e = r.2.2 b)) ∧
    (∀ (ctrlErr verified : Bool) (trained : List TrainResult) (power : CoreUp) (lowNs : Nat), ∀ r ∈ (show List (Instr × (State → Bool) × (State
      → State)) from
        [(.boot dt ctrlErr trained, fun s => s.chip.canBoot, State.bootUp ctrlErr trained),
         (.randomSourcePassing dt, fun s => s.chip.awake && !s.chip.hm.rngOk, State.rngPass),
         (.fwVerificationEnd dt, fun s => s.chip.fwVerifying, State.fwVerified),
         (.flashRewriteDone dt verified, fun s => s.chip.fwRewriting, State.fwRewritten verified),
         (.tripRecovery dt, fun s => s.chip.recoverDue, State.recover), (.wake dt power trained, fun s => s.chip.canWake, State.wake power trained),
         (.wakePgRetry dt power trained, fun s => s.chip.canRetryWake, State.wake power trained),
         (.warmResetPin dt lowNs, fun s => s.chip.warmPin lowNs, State.warmReset)]),
      DoesState r.1 dt (fun b => r.2.1 b = true) (fun b e => e = r.2.2 b)) ∧
    (∀ role addr mode (s : State), s.chip.por = true →
      exec (.powerOnReset dt role addr mode) s = .next ({ s with chip := s.chip.elapse dt.ns }.porReleased role addr mode)) ∧
    (∀ s : State, s.chip.por = false → exec (.powerOnResetAsserted dt) s = .next { s with chip := s.chip.elapse dt.ns }.porAsserted)

/-- Every step from a sound state ends in a sound state. -/
def Obligations.StepsKeepSound : Prop := ∀ s t : State, s.sound → step s = .next t → t.sound

/-- No step clears a fuse (R436): what is written in one stays as it is, and the epoch never falls. -/
def Obligations.FusesAreNeverCleared : Prop := ∀ s t : State, step s = .next t → s.fuses.keeps t.fuses

/-- While power-on reset is asserted nothing but its release has any effect (R494; log 3): no time passes and no event occurs. -/
def Obligations.PowerOnResetHoldsEverything : Prop :=
  ∀ (i : Instr) (s : State), s.chip.por = true → s.chip.met = [] → s.chip.id.straps.testMode = false →
    (∀ dt role addr mode, i ≠ .powerOnReset dt role addr mode) → exec i s = .next s

/-! ### The memories -/

/-- A byte of DRAM reads what was last written to it through its region-table entry, in every copy that remains, and every other byte
reads as before (R344, R350): for any run of bytes, over any number of entries. A byte of a partition's Basin space reads what was
last written to it, and every other byte reads as before (R327). -/
def Obligations.MemoriesReadWhatWasWritten : Prop :=
  (∀ (c : Chip) (a : Nat) (bs : Bytes) (x : Nat) (e : Entry), c.dram.wf = true → c.slotsApart →
     c.entry (x / 2 ^ 20) = some e → e.withdrawn = false →
     (c.dramWrite a bs).dramRead x 1 = if a ≤ x ∧ x < a + bs.length then [bs.getD (x - a) 0] else c.dramRead x 1) ∧
  (∀ (c : Chip) (banks : List Nat) (a : Nat) (bs : Bytes) (x : Nat), c.basin.wf = true → banks.Nodup →
     a + bs.length ≤ banks.length * 2 ^ 24 → x < banks.length * 2 ^ 24 →
     (c.basinWrite banks a bs).basinRead banks x 1 =
       if a ≤ x ∧ x < a + bs.length then [bs.getD (x - a) 0] else c.basinRead banks x 1)

/-! ### Registers -/

/-- Writes of read-write fields with a legal range store the nearest legal value (R7), and bits above the field are ignored (R6). A 1
written to a bit of a W1C register clears it and a 0 leaves it (R5); HM_ERR_STATUS[4] stays set while a health test of the random
source fails (R439). The region table reads as applied, and a write to it has no effect but an error response with its address (R14).
Reads of 64-bit counts latch their upper words. -/
def Obligations.RegisterAccesses : Prop :=
  (Writes 0x60008 6 (fun v => Chip.updSv (fun q => { q with budget := w32 (clampNat 64 4096 (v.toNat % 2 ^ 13)) })) ∧
   Writes 0x6000C 6 (fun v => Chip.updSv (fun q => { q with chunk := w32 (clampNat 128 1024 (v.toNat % 2 ^ 11)) })) ∧
   Writes 0x70014 7 (fun v => Chip.updTt (fun q => { q with quantum := w32 (clampNat 1 1000 (v.toNat % 2 ^ 10)) })) ∧
   Writes 0x8000C 8 (fun v => Chip.updMc (fun q => { q with scrubPeriod := w32 (clampNat 1 168 (v.toNat % 2 ^ 8)) })) ∧
   Writes 0x9000C 9 (fun v => Chip.updBs (fun q => { q with scrubPeriod := w32 (clampNat 1 3600 (v.toNat % 2 ^ 12)) })) ∧
   Writes 0x120010 0x12 (fun v => Chip.updPl (fun q => { q with idle := w32 (clampNat 100 60000 (v.toNat % 2 ^ 16)) })) ∧
   Writes 0x120014 0x12 (fun v => Chip.updPl (fun q => { q with reqTimeout := w32 (clampNat 100 100000 (v.toNat % 2 ^ 17)) })) ∧
   Writes 0xF000C 0xF (fun v => Chip.updPm (fun q => { q with cap := w32 (clampNat 20 115 (v.toNat % 2 ^ 7)) })) ∧
   Writes 0x100024 0x10 (fun v => Chip.updLh (fun q => { q with watchPeriod := w32 (clampNat 1 600 (v.toNat % 2 ^ 10)) })) ∧
   Writes 0x130008 0x13 (fun v => Chip.updTm (fun q => { q with hyst := w32 (clampNat 1 10 (v.toNat % 2 ^ 4)) })) ∧
   (∀ s < 256, Writes (0x18030 + 0x40 * s) 1
     (fun v => Chip.updStream s (fun q => { q with grace := w32 (clampNat 0 10000 (v.toNat % 2 ^ 14)) }))) ∧
   (∀ w < 256, Writes (0x12400C + 0x10 * w) 0x12
     (fun v => Chip.setPub w (fun p => { p with rate := w32 (clampNat 1 4096 (v.toNat % 2 ^ 13)) })))) ∧
  (Writes 0x10004 1 (fun v => Chip.updQy (fun q => { q with err := q.err &&& ~~~v })) ∧
   Writes 0x40024 4 (fun v => Chip.updOc (fun q => { q with err := q.err &&& ~~~v })) ∧
   Writes 0x50004 5 (fun v => Chip.updFg (fun q => { q with err := q.err &&& ~~~v })) ∧
   Writes 0x60004 6 (fun v => Chip.updSv (fun q => { q with err := q.err &&& ~~~v })) ∧
   Writes 0x70004 7 (fun v => Chip.updTt (fun q => { q with err := q.err &&& ~~~v })) ∧
   Writes 0x80004 8 (fun v => Chip.updMc (fun q => { q with err := q.err &&& ~~~v })) ∧
   Writes 0x90004 9 (fun v => Chip.updBs (fun q => { q with err := q.err &&& ~~~v })) ∧
   Writes 0xA0004 0xA (fun v => Chip.updSy (fun q => { q with err := q.err &&& ~~~v })) ∧
   Writes 0xB0004 0xB (fun v => Chip.updIc (fun q => { q with err := q.err &&& ~~~v })) ∧
   Writes 0xD0004 0xD (fun v => Chip.updHm (fun q => { q with
     err := if q.rngOk then q.err &&& ~~~v else q.err &&& ~~~(v &&& 0xFFFFFFEF) })) ∧
   Writes 0xE0004 0xE (fun v => Chip.updLg (fun q => { q with err := q.err &&& ~~~v })) ∧
   Writes 0xF0004 0xF (fun v => Chip.updPm (fun q => { q with err := q.err &&& ~~~v })) ∧
   Writes 0x100004 0x10 (fun v => Chip.updLh (fun q => { q with err := q.err &&& ~~~v })) ∧
   Writes 0x110004 0x11 (fun v => Chip.updSn (fun q => { q with evt := q.evt &&& ~~~v })) ∧
   Writes 0x120004 0x12 (fun v => Chip.updPl (fun q => { q with err := q.err &&& ~~~v })) ∧
   Writes 0x130004 0x13 (fun v => Chip.updTm (fun q => { q with err := q.err &&& ~~~v }))) ∧
  (∀ dt who v k,  k < 131072 → ∀ half < 2,
     Does (.latchingLoRead dt who (0x03000000 + 8 * k + 4 * half)) dt (fun b => b.up = true) (fun b e =>
       e = b.answer (.value (let w := match b.entry k with | some x => x.word | none => 0
         if half = 0 then loOf w else hiOf w))) ∧
     Does (.registerWrite dt who (0x03000000 + 8 * k + 4 * half) v) dt (fun b => b.up = true)
       (fun b e => e = b.answer (.error (0x03000000 + 8 * k + 4 * half)))) ∧
  (Latches 0x10104 1 (fun c => c.clk.dev) (fun w => Chip.updQy (fun q => { q with nowHi := w })) ∧
   Latches 0x50008 5 (fun c => c.fg.px) (fun w => Chip.updFg (fun q => { q with pxHi := w })) ∧
   Latches 0x60020 6 (fun c => c.sv.steps) (fun w => Chip.updSv (fun q => { q with stepsHi := w })) ∧
   Latches 0x60028 6 (fun c => c.sv.tokens) (fun w => Chip.updSv (fun q => { q with tokensHi := w })) ∧
   Latches 0x7000C 7 (fun c => c.tt.cycles) (fun w => Chip.updTt (fun q => { q with cyclesHi := w })) ∧
   Latches 0x100018 0x10 (fun c => c.ticks) (fun w => Chip.updLh (fun q => { q with ticksHi := w })) ∧
   ∀ dt who n, n < 32 → Does (.latchingLoRead dt who (0x01000020 + 2 ^ 16 * n)) dt
     (fun b => b.up = true ∧ n < b.id.grade.arrays ∧ b.arrayOff n = false)
     (fun b e => e = (b.updArr n (fun a => { a with busyHi := hiOf (b.arr n).busy })).answer (.value (loOf (b.arr n).busy))))

/-- A write of a read-only register is ignored (R5), and an access that no register answers (misaligned, outside the ranges of R11, of
a logical array that the grade lacks, or in a window whose domain is off) has no effect but an error response with its address (R8,
R12, R15). -/
def Obligations.OtherAccesses : Prop :=
  (∀ a ∈ [(0x0, 0), (0x4, 0), (0x10, 0), (0x14, 0), (0x18, 0), (0x1C, 0), (0x108, 0), (0x10C, 0), (0x110, 0), (0x114, 0), (0x118, 0),
      (0x10000, 1), (0x10100, 1), (0x40000, 4), (0x50000, 5), (0x60000, 6), (0x70000, 7), (0x80000, 8), (0x80010, 8), (0x90000, 9),
      (0xA0000, 0xA), (0xA0008, 0xA), (0xA000C, 0xA), (0xA0018, 0xA), (0xB0000, 0xB), (0xB0008, 0xB), (0xD0000, 0xD), (0xD0008, 0xD),
      (0xD000C, 0xD), (0xF0000, 0xF), (0xF0020, 0xF), (0x100000, 0x10), (0x110000, 0x11), (0x110030, 0x11), (0x120000, 0x12)],
      Writes a.1 a.2 (fun _ c => c)) ∧
  ∀ dt who addr v, ∀ hyp ∈ [fun (b : Chip) => b.up = true ∧ (addr % 4 ≠ 0 ∨ 0x00140000 ≤ addr ∧ addr < 0x01000000 ∨
        0x01200000 ≤ addr ∧ addr < 0x02000000 ∨ 0x02080000 ≤ addr ∧ addr < 0x03000000 ∨ 0x03100000 ≤ addr),
      fun b => b.up = true ∧ b.id.grade = .dx3230 ∧ 0x01100000 ≤ addr ∧ addr < 0x01200000,
      fun b => b.up = true ∧ addr < 0x00140000 ∧ b.windowOn (addr / 2 ^ 16) = false,
      fun b => b.por = false ∧ b.lh.st = .watchCycle ∧ who = .harbourmaster ∧ addr < 0x00140000 ∧ b.windowOn (addr / 2 ^ 16) = false,
      fun b => b.up = true ∧ 0x01000000 ≤ addr ∧ addr < 0x01200000 ∧ b.arrayOff (addr / 2 ^ 16 % 2 ^ 8) = true],
    Does (.registerWrite dt who addr v) dt hyp (fun b e => e = b.answer (.error addr)) ∧
      Does (.latchingLoRead dt who addr) dt hyp (fun b e => e = b.answer (.error addr))

/-! ### Commands that are writes of one register -/

/-- ADMIT while an image is being validated or is pending (R24). An ADMIT of a length above 8 MiB, or not a multiple of 16, ends
rejected with code 0x01 at offset 8 (R23). -/
def Obligations.AdmitsAreRejected : Prop :=
  (∀ dt who (v : Word), v.toNat.testBit 0 = true → v.toNat.testBit 1 = false →
     Does (.imgCtlAdmit dt who v) dt
       (fun b => b.up = true ∧ b.windowOn 0 = true ∧ (b.cfg.state = .validating ∨ b.cfg.state = .pending))
       (fun b e => e = (b.updCfg (fun g => { g with errCode := 0x10, errOff := 0 })).answer .done)) ∧
  (∀ dt, Does (.validationEnd dt none) dt
     (fun b => b.awake = true ∧ b.cfg.state = .validating ∧ (8 * 2 ^ 20 < b.cfg.admitLen ∨ b.cfg.admitLen % 16 ≠ 0))
     (fun _ e => e.cfg.state = .rejected ∧ e.cfg.errCode = 0x01 ∧ e.cfg.errOff = 0x00000008 ∧ e.cfg.pend = none))

/-- ADMIT otherwise starts validation of the image whose length CFG_IMG_LEN gives; ABORT discards a pending image, and one under
validation, whose waiting ADMIT is answered with the same code (the latter the model's reading, log 17), and does nothing else (R24,
R55). -/
def Obligations.ImageControlWrites : Prop :=
  ∀ dt who (v : Word),
    (v.toNat.testBit 0 = true → v.toNat.testBit 1 = false → Does (.imgCtlAdmit dt who v) dt
      (fun b => b.up = true ∧ b.windowOn 0 = true ∧ b.cfg.state ≠ .validating ∧ b.cfg.state ≠ .pending)
      (fun b e => e = (b.updCfg (fun g => { g with state := .validating, admitLen := g.imgLen.toNat })).answer .done)) ∧
    (v.toNat.testBit 0 = false → v.toNat.testBit 1 = true →
      Does (.imgCtlAbort dt who v) dt (fun b => b.up = true ∧ b.windowOn 0 = true ∧ b.cfg.state = .pending)
        (fun b e => e = (b.updCfg (fun g => { g with state := .discarded, errCode := 0x12, errOff := 0, pend := none })).answer .done) ∧
      Does (.imgCtlAbort dt who v) dt (fun b => b.up = true ∧ b.windowOn 0 = true ∧ b.cfg.state = .validating)
        (fun b e => e.cfg = { b.cfg with state := .discarded, errCode := 0x12, errOff := 0 } ∧ e.bus = .done ∧
          b.frame e [.cfg, .pl, .tx, .bus]) ∧
      Does (.imgCtlAbort dt who v) dt
        (fun b => b.up = true ∧ b.windowOn 0 = true ∧ b.cfg.state ≠ .pending ∧ b.cfg.state ≠ .validating)
        (fun b e => e = b.answer .done))

/-- Validation ends with STATE set to PENDING or REJECTED, whatever the image (R50), an intake word that cannot be read rejecting with
code 0x01 at its offset (R333), a word of the Basin's intake with its address recorded (R332); source 788 is raised once (R374), and
nothing else changes but the image state, the answer to a waiting ADMIT and the interrupt controller. -/
def Obligations.ValidationEnds : Prop :=
  ∀ dt bad, Does (.validationEnd dt bad) dt (fun b => b.awake = true ∧ b.cfg.state = .validating)
    (fun b e => (e.cfg.state = .pending ∧ e.cfg.pend.isSome = true ∨ e.cfg.state = .rejected ∧ e.cfg.pend = none) ∧
      (∀ o, bad = some o → e.cfg.state = .rejected ∧ e.cfg.errCode = 0x01 ∧ e.cfg.errOff = w32 o) ∧
      b.counted e 788 ∧ e.cfg.applied = b.cfg.applied ∧
      (bad = none → b.frame e [.cfg, .pl, .tx, .ic, .lh, .sn]) ∧
      (b.cfg.applied = none → b.frame e [.cfg, .pl, .tx, .ic, .lh, .sn, .draws, .bs] ∧
        ∀ o, bad = some o → e.bs.errAddr = (31 * 2 ^ 24 + o) / 8 * 8 ∧ e.bs.err = setBit b.bs.err 1))

/-- TT_PART_RESET with GO, naming a declared partition: the partition is in RESET until the next boundary, TT_ERR_STATUS[3] is set,
and none of its contexts holds a berth, none of its berths an occupant (R313, R314). A write without GO, or naming no declared
partition, has no effect. TT_CTX_RESTART (R312, R520): a context that is not FAULTED is left as it is; the host restarts any FAULTED
one; a control core one that faulted with code 0x07, 0x08 or 0x09 or by R517 and that it has not restarted within 10 s, and no other.
Restarted, it waits for the boundary. -/
def Obligations.SchedulerWrites : Prop :=
  (∀ dt who (v : Word),
     Does (.ttPartReset dt who v) dt
       (fun b => b.up = true ∧ b.windowOn 7 = true ∧ v.toNat.testBit 8 = true ∧ (b.str.part (v.toNat % 8)).isSome = true)
       (fun b e => vget .absent e.tt.pst (v.toNat % 8) = .reset ∧ e.tt.err.toNat.testBit 3 = true ∧ e.bus = .done ∧
         (∀ d ∈ b.str.ctxs, d.part = v.toNat % 8 → d.id < 256 → (e.ctx d.id).berth = none) ∧
         (∀ d ∈ b.str.berths, d.part = v.toNat % 8 → d.id < 16 → (e.berth d.id).occ = none)) ∧
     Does (.ttPartReset dt who v) dt
       (fun b => b.up = true ∧ b.windowOn 7 = true ∧ (v.toNat.testBit 8 = false ∨ (b.str.part (v.toNat % 8)).isSome = false))
       (fun b e => e = b.answer .done)) ∧
  (∀ dt (v : Word),
     (∀ who, Does (.ttCtxRestart dt who v) dt
       (fun b => b.up = true ∧ b.windowOn 7 = true ∧ (b.ctx (v.toNat % 256)).st ≠ .faulted) (fun b e => e = b.answer .done)) ∧
     Does (.ttCtxRestart dt .host v) dt (fun b => b.up = true ∧ b.windowOn 7 = true ∧ (b.ctx (v.toNat % 256)).st = .faulted)
       (fun b e => e = (b.updCtx (v.toNat % 256) (fun k => { k with st := .restarting })).answer .done) ∧
     (∀ k, Does (.ttCtxRestart dt (.core k) v) dt
       (fun b => b.up = true ∧ b.windowOn 7 = true ∧ (b.ctx (v.toNat % 256)).st = .faulted ∧
         (b.ctx (v.toNat % 256)).fault ∈ [0x07, 0x08, 0x09, 0x105] ∧
         ∀ r ∈ b.tt.fwRestarts, r.1 = v.toNat % 256 → r.2 + 10000000000 ≤ b.clk.ref)
       (fun b e => e.ctx (v.toNat % 256) = { b.ctx (v.toNat % 256) with st := .restarting } ∧ e.bus = .done ∧
         (v.toNat % 256, b.clk.ref) ∈ e.tt.fwRestarts ∧ (∀ y, y ≠ v.toNat % 256 → e.ctx y = b.ctx y) ∧ b.frame e [.tt, .bus]) ∧
       Does (.ttCtxRestart dt (.core k) v) dt
       (fun b => b.up = true ∧ b.windowOn 7 = true ∧ ((b.ctx (v.toNat % 256)).fault ∉ [0x07, 0x08, 0x09, 0x105] ∨
         ∃ r ∈ b.tt.fwRestarts, r.1 = v.toNat % 256 ∧ b.clk.ref < r.2 + 10000000000))
       (fun b e => e = b.answer .done)))

/-- SV_CANCEL (R279): a queued query leaves the queue at once and ends with reason CANCELLED, and so does a sequence of which no step
is in issue; one with a step in issue is marked and ends with that step; a query that is not there is no error. -/
def Obligations.CancelWrites : Prop :=
  ∀ dt who (v : Word),
    Does (.svCancel dt who v) dt
      (fun b => b.up = true ∧ b.windowOn 6 = true ∧ (∀ s ∈ b.sv.seqs, s.q.id ≠ v) ∧ ∃ q ∈ b.sv.queue, q.id = v)
      (fun b e => e.sv.queue = b.sv.queue.filter (fun q => q.id != v) ∧ e.sv.seqs = b.sv.seqs ∧ e.pl.tokNext = b.pl.tokNext + 1 ∧
        e.bus = .done ∧ b.frame e [.sv, .pl, .ic, .lh, .sn, .tx, .bus, .draws]) ∧
    Does (.svCancel dt who v) dt
      (fun b => b.up = true ∧ b.windowOn 6 = true ∧ ∃ s, b.sv.seqs.find? (fun s => s.q.id == v) = some s ∧ b.seqBusy s = true)
      (fun b e => b.frame e [.sv, .bus] ∧ e.sv.queue = b.sv.queue ∧ e.bus = .done ∧
        ∀ s ∈ b.sv.seqs, s.q.id = v → (∀ t ∈ b.sv.seqs, t.q.id = v → t.entry = s.entry) →
          { s with cancel := true, st := .ending } ∈ e.sv.seqs) ∧
    (∀ s : Seq, Does (.svCancel dt who v) dt
      (fun b => b.up = true ∧ b.windowOn 6 = true ∧ b.sv.seqs.find? (fun s => s.q.id == v) = some s ∧ b.seqBusy s = false)
      (fun b e => e.sv.seqs = b.sv.seqs.filter (fun t => t.entry != s.entry) ∧ e.sv.queue = b.sv.queue ∧ e.pl.tokNext = b.pl.tokNext + 1 ∧
        e.bus = .done ∧ b.frame e [.sv, .pl, .ic, .lh, .sn, .tx, .bus, .draws])) ∧
    Does (.svCancel dt who v) dt
      (fun b => b.up = true ∧ b.windowOn 6 = true ∧ (∀ s ∈ b.sv.seqs, s.q.id ≠ v) ∧ ∀ q ∈ b.sv.queue, q.id ≠ v)
      (fun b e => e = b.answer .done)

/-- SY_SIGNAL (R363 to R365, R368): an allowed amount is added to the object modulo 2^32; every waiter that it satisfies is marked, in
the order in which they registered, and advances its context's mark to its target; no other object's value changes. A refused write
has no effect but SY_REFUSED, SY_ERR_STATUS[1], source 776 and an error response. SY_RESET (R366): the object's value becomes 0 and so
does the mark that every context holds for it; its waiters stay registered and are judged again, against marks of 0, which those it
satisfies then advance (R368); no other object's value or mark changes. -/
def Obligations.ObjectWrites : Prop :=
  (∀ dt who (v : Word),
     Does (.sySignal dt who v) dt
       (fun b => b.up = true ∧ b.windowOn 0xA = true ∧ v.toNat / 65536 ≠ 0 ∧ ∃ x, b.obj (v.toNat % 65536) = some x ∧ syAllowed who x = true)
       (fun b e => (∀ x, b.obj (v.toNat % 65536) = some x →
           e.obj (v.toNat % 65536) = some { x with value := x.value + BitVec.ofNat 32 (v.toNat / 65536) } ∧
           e.sy.waiters = (judgeWaiters (v.toNat % 65536) (x.value + BitVec.ofNat 32 (v.toNat / 65536)) b.sy.waiters b.sy).1 ∧
           e.sy.marks = (judgeWaiters (v.toNat % 65536) (x.value + BitVec.ofNat 32 (v.toNat / 65536)) b.sy.waiters b.sy).2.marks) ∧
         (∀ o, o ≠ v.toNat % 65536 → e.obj o = b.obj o) ∧ e.bus = .done ∧
         b.frame e [.sy, .ic, .lh, .sn, .bus]) ∧
     Does (.sySignal dt who v) dt
       (fun b => b.up = true ∧ b.windowOn 0xA = true ∧ v.toNat / 65536 = 0 ∧ ∃ x, b.obj (v.toNat % 65536) = some x ∧ syAllowed who x = true)
       (fun b e => e = b.answer .done) ∧
     ∀ i ∈ [(Instr.sySignal dt who v, 0xA0010), (Instr.syReset dt who v, 0xA0014)], Does i.1 dt
       (fun b => b.up = true ∧ b.windowOn 0xA = true ∧ ∀ x, b.obj (v.toNat % 65536) = some x → syAllowed who x = false)
       (fun b e => e.sy = { b.sy with refused := satInc b.sy.refused, err := b.sy.err ||| 2 } ∧ b.counted e 776 ∧
         e.bus = .error i.2 ∧ b.frame e [.sy, .ic, .lh, .sn, .bus])) ∧
  (∀ dt who (v : Word), Does (.syReset dt who v) dt
     (fun b => b.up = true ∧ b.windowOn 0xA = true ∧ ∃ x, b.obj (v.toNat % 65536) = some x ∧ syAllowed who x = true)
     (fun b e => (∀ x, b.obj (v.toNat % 65536) = some x → e.obj (v.toNat % 65536) = some { x with value := 0 }) ∧
       (∀ ctx, (∀ w ∈ b.sy.waiters, w.ctx = ctx → w.obj = v.toNat % 65536 → w.sat = true ∨ reached 0 w.value = false) →
         e.mark ctx (v.toNat % 65536) = 0) ∧
       e.sy.waiters = (judgeWaiters (v.toNat % 65536) 0 b.sy.waiters (b.sy.clearMarks (v.toNat % 65536))).1 ∧
       e.sy.marks = (judgeWaiters (v.toNat % 65536) 0 b.sy.waiters (b.sy.clearMarks (v.toNat % 65536))).2.marks ∧
       (∀ o, o ≠ v.toNat % 65536 → e.obj o = b.obj o ∧ ∀ ctx, o < 65536 → e.mark ctx o = b.mark ctx o) ∧ e.bus = .done ∧
       b.frame e [.sy, .ic, .lh, .sn, .bus]))

/-- IC_CLAIM (R378): the qualifying source of the highest priority, ties going to the lower number, is placed with its arrival count,
its count is cleared and its priority pushed; with none, IC_CLAIMED reads 0xFFFF and nothing is pushed. IC_EOI pops the target's
stack, and with an empty stack has no effect but IC_ERR_STATUS[1] (R378); IC_SET raises a doorbell, and naming any other source only
sets IC_ERR_STATUS[2] (R385). -/
def Obligations.InterruptWrites : Prop :=
  (∀ dt who t (v : Word), t < 5 →
     (∀ n, Does (.icClaim dt who t v) dt (fun b => b.up = true ∧ b.windowOn 0xB = true ∧ b.ic.wins t n)
       (fun b e => e = (b.updIc (fun ic => { ic with
         claimed := vset ic.claimed t (w32 (vget 0 ic.count n * 2 ^ 24 + n))
         count := vset ic.count n 0
         stack := vset ic.stack t ((ic.routeOf n).prio :: vget [] ic.stack t) })).answer .done)) ∧
     Does (.icClaim dt who t v) dt (fun b => b.up = true ∧ b.windowOn 0xB = true ∧ ∀ n < 1024, b.ic.qualifies t n = false)
       (fun b e => e = (b.updIc (fun ic => { ic with claimed := vset ic.claimed t 0xFFFF })).answer .done)) ∧
  (∀ dt who (v : Word),
     (∀ t, t < 5 →
       (∀ top rest, Does (.icEoi dt who t v) dt
         (fun b => b.up = true ∧ b.windowOn 0xB = true ∧ vget [] b.ic.stack t = top :: rest)
         (fun b e => e = (b.updIc (fun ic => { ic with stack := vset ic.stack t rest })).answer .done)) ∧
       Does (.icEoi dt who t v) dt (fun b => b.up = true ∧ b.windowOn 0xB = true ∧ vget [] b.ic.stack t = [])
         (fun b e => e.ic.stack = b.ic.stack ∧ e.ic.claimed = b.ic.claimed ∧ e.ic.err.toNat.testBit 1 = true ∧ b.counted e 798 ∧
           e.bus = .done ∧ b.frame e [.ic, .lh, .sn, .bus])) ∧
     Does (.icSet dt who v) dt (fun b => b.up = true ∧ b.windowOn 0xB = true ∧ 800 ≤ v.toNat % 1024 ∧ v.toNat % 1024 < 832)
       (fun b e => b.counted e (v.toNat % 1024) ∧ e.ic.stack = b.ic.stack ∧ e.ic.mask = b.ic.mask ∧ e.bus = .done ∧
         b.frame e [.ic, .lh, .sn, .bus]) ∧
     Does (.icSet dt who v) dt
       (fun b => b.up = true ∧ b.windowOn 0xB = true ∧ (v.toNat % 1024 < 800 ∨ 832 ≤ v.toNat % 1024))
       (fun b e => e.ic.err.toNat.testBit 2 = true ∧ (∀ n, n ≠ 798 → vget 0 e.ic.count n = vget 0 b.ic.count n) ∧ b.counted e 798 ∧
         e.ic.stack = b.ic.stack ∧ e.bus = .done ∧ b.frame e [.ic, .lh, .sn, .bus]))

/-- HM_CAK_CTL (R452): in a session opened with an owner-key signature the host's slot number loads a slot from the data words, 0
clears them; once a debug unlock has cleared slots 1 to 3 they stay cleared (R453; log 135, the model's choice); from any other
master, or in any other session, it has no effect but an error response. LH_SLEEP with GO (R485): sleep entry begins from AWAKE, with
the live queries ended, the session closed, a pending image discarded and no snapshot held; watch mode on a stream that is not active
is refused with an error response; without GO, when entry has begun, or during a warm reset (R495; that it lasts until its boot has
ended is log 142's reading), nothing happens. SN_RELEASE (R525, R529): the held snapshot is discarded, HELD and CAUSE read 0. -/
def Obligations.KeySleepAndReleaseWrites : Prop :=
  (∀ dt who (v : Word),
     (∀ slot < 4, v.toNat % 4 = slot → Does (.hmCakCtl dt .host v) dt
       (fun b => b.up = true ∧ b.windowOn 0xD = true ∧ ∃ x, b.pl.session = some x ∧ x.owned = true)
       (fun b e => b.frame e [.hm, .bus] ∧ e.bus = .done ∧
         (slot = 0 → e.hm = { b.hm with cakData := Vector.replicate 12 0 }) ∧
         (slot ≠ 0 → b.hm.debug = true → e.hm = b.hm) ∧
         (slot ≠ 0 → b.hm.debug = false → ∃ k, e.hm = { b.hm with cak := vset b.hm.cak slot (some k) } ∧
           toBe 32 k.key.toNat ++ toBe 16 k.name.toNat = b.hm.cakData.toList.flatMap (fun w => toLe 4 w.toNat)))) ∧
     Does (.hmCakCtl dt who v) dt
       (fun b => b.up = true ∧ b.windowOn 0xD = true ∧ (who ≠ .host ∨ ∀ x, b.pl.session = some x → x.owned = false))
       (fun b e => e = b.answer (.error 0xD0120))) ∧
  (∀ dt who (v : Word), ∀ i ∈ [Instr.lhSleepSleep dt who v, Instr.lhSleepWatch dt who v],
     Does i dt (fun b => b.awake = true ∧ b.warmResetting = false ∧ v.toNat.testBit 8 = true ∧ (v.toNat.testBit 0 = true → b.watchStream.isSome = true))
       (fun b e => e.lh.st = .entering ∧ e.lh.watch = v.toNat.testBit 0 ∧ e.pl.session = none ∧ e.sv.queue = [] ∧ e.sv.staged = [] ∧
         e.cfg.state ≠ .pending ∧ e.cfg.state ≠ .validating ∧ e.cfg.pend = (if b.cfg.state = .pending ∨ b.cfg.state = .validating
           then none else b.cfg.pend) ∧ e.sn.held = false ∧ e.bus = .done) ∧
     Does i dt (fun b => b.up = true ∧ v.toNat.testBit 8 = true ∧ v.toNat.testBit 0 = true ∧ b.watchStream = none)
       (fun b e => e = b.answer (.error 0x100008)) ∧
     Does i dt (fun b => b.up = true ∧ (v.toNat.testBit 8 = false ∨
         (b.lh.st = .entering ∨ b.warmResetting = true) ∧ (v.toNat.testBit 0 = true → b.watchStream.isSome = true)))
       (fun b e => e = b.answer .done)) ∧
  (∀ dt who v, Does (.snRelease dt who v) dt (fun b => b.up = true ∧ b.windowOn 0x11 = true)
     (fun b e => e = (b.updSn (fun s => { s with held := false, cause := 0, detail := 0, latched := [] })).answer .done ∧
       e.regRead 0x110000 = some 0))

/-- A write of PL_PEER_CTL (R434) stores its fields; one that clears ENABLE fails the peer's outstanding requests at once, each in
turn, those that an earlier failure has not taken away; any other leaves every request as it is. -/
def Obligations.PeerControlWrites : Prop :=
  ∀ dt who i (v : Word), i < 255 →
    Does (.peerDisable dt who i v) dt
      (fun b => b.up = true ∧ b.windowOn 0x12 = true ∧ (b.peer i).ctl.toNat.testBit 31 = true ∧ v.toNat.testBit 31 = false)
      (fun b e => e = (((b.pl.reqs ++ b.pl.waitReqs).filter (fun r => r.peer == i)).foldl (fun c r =>
        if (c.pl.reqs ++ c.pl.waitReqs).any (fun x => x.id == r.id) then c.failReq r else c)
          (b.updPeer i (fun p => { p with ctl := v &&& 0x80010007 }))).answer .done) ∧
    Does (.peerDisable dt who i v) dt
      (fun b => b.up = true ∧ b.windowOn 0x12 = true ∧ ((b.peer i).ctl.toNat.testBit 31 = false ∨ v.toNat.testBit 31 = true))
      (fun b e => e = (b.updPeer i (fun p => { p with ctl := v &&& 0x80010007 })).answer .done)

/-! ### The Quay -/

/-- QY_PORT_CTL: ROLE and DOWN are stored; a changed ROLE, or DOWN, takes a link that was up down with its associations (R95, R68);
otherwise the link stays. LINK_UP (R65, R96): the port's LINK reads 1 and its count of links rises, saturating at 255; nothing else of
the port and no other port changes. LINK_DOWN (R68, R94): LINK and SECURED read 0, the stream frames being assembled from the port
close, and SLAVE_PORT is none if it was the port. -/
def Obligations.LinksGoUpAndDown : Prop :=
  (∀ dt who p (v : Word), p < 8 → ∀ i ∈ [Instr.portRoleWrite dt who p v, Instr.portDownWrite dt who p v],
     Does i dt (fun b => b.up = true ∧ b.windowOn 1 = true ∧ p < b.id.grade.ports)
       (fun b e => (e.port p).role = v.toNat.testBit 0 ∧ (e.port p).down = v.toNat.testBit 1 ∧ e.bus = .done ∧
         ((v.toNat.testBit 0 ≠ (b.port p).role ∨ v.toNat.testBit 1 = true) → (b.port p).link = true →
           (e.port p).link = false ∧ (e.port p).secured = false) ∧
         ((v.toNat.testBit 0 = (b.port p).role ∧ v.toNat.testBit 1 = false ∨ (b.port p).link = false) →
           e.port p = { b.port p with role := v.toNat.testBit 0, down := v.toNat.testBit 1 }) ∧
         ∀ q, q ≠ p → e.port q = b.port q)) ∧
  (∀ dt p,
     (∀ m, Does (.linkUp dt p m) dt
       (fun b => b.receiving = true ∧ b.portOn p = true ∧ (b.port p).link = false ∧ (b.port p).role ≠ m)
       (fun b e => e.port p = { b.port p with link := true, linkUps := min 255 ((b.port p).linkUps + 1) } ∧
         (∀ q, q ≠ p → e.port q = b.port q) ∧ e.qy.st = b.qy.st ∧ b.frame e [.qy, .ic, .lh, .sn])) ∧
     Does (.linkDown dt p) dt (fun b => b.receiving = true ∧ (b.port p).link = true)
       (fun b e => (e.port p).link = false ∧ (e.port p).secured = false ∧
         e.qy.slave = (if b.qy.slave = some p then none else b.qy.slave) ∧ (∀ q, q ≠ p → e.port q = b.port q) ∧
         ∀ d ∈ b.ingesting, d.port = p → (e.stream d.idx).cur = none))

/-- A received frame that fails a check is dropped and counted at its port: a malformed one (R66) and one that no handler takes (R67)
in QY_PORT_DROP_FMT, one that MACsec refuses (R69, R71), EAPOL outside the replay window included, in QY_PORT_DROP_SEC, a video frame
without room in the receive buffer (R88) in QY_PORT_DROP_OVF; each sets its bit of QY_ERR_STATUS. -/
def Obligations.DroppedFramesAreCounted : Prop :=
  ∀ dt rx ovf,
    Does (.rxFrameDrop dt rx ovf) dt (fun b => b.hears rx = true ∧ malformed rx = true)
      (fun b e => (e.port rx.port).dropFmt = satInc (b.port rx.port).dropFmt ∧ e.qy.err = setBit b.qy.err 0 ∧ b.frame e [.qy, .ic, .lh, .sn]) ∧
    Does (.rxFrameDrop dt rx ovf) dt (fun b => b.hears rx = true ∧ malformed rx = false ∧
        (rx.etype ≠ 0x888E ∧ (b.port rx.port).admits rx.sec = false ∨ (b.port rx.port).replayed rx.sec = true))
      (fun b e => e.port rx.port = { b.port rx.port with dropSec := satInc (b.port rx.port).dropSec, fill := rx.fill } ∧ e.qy.err = setBit b.qy.err 5 ∧
        b.frame e [.qy, .ic, .lh, .sn]) ∧
    Does (.rxFrameDrop dt rx ovf) dt (fun b => b.hears rx = true ∧ malformed rx = false ∧
        (rx.etype = 0x888E ∨ (b.port rx.port).admits rx.sec = true) ∧ (b.port rx.port).replayed rx.sec = false ∧ b.classify rx = none)
      (fun b e => (e.port rx.port).dropFmt = satInc (b.port rx.port).dropFmt ∧ e.qy.err = setBit b.qy.err 0 ∧ b.frame e [.qy, .ic, .lh, .sn]) ∧
    Does (.rxFrameDrop dt rx true) dt (fun b => b.hears rx = true ∧ malformed rx = false ∧
        (b.port rx.port).admits rx.sec = true ∧ rx.etype = 0x22F0)
      (fun b e => (e.port rx.port).dropOvf = satInc (b.port rx.port).dropOvf ∧ e.qy.err = setBit b.qy.err 4 ∧ e.qy.st = b.qy.st ∧
        b.frame e [.qy, .ic, .lh, .sn])

/-- A Sync of gPTP domain 0 on the selected port (R72, R75): within 1 µs it never steps device time but sets its rate to the one
measured since the last Sync that was not discarded, counts a good interval in FREE until the eighth gives SYNC, and ends HOLDOVER;
beyond, the first two in a row in SYNC are discarded and counted, and any other steps device time to the grandmaster's and gives FREE
with the count at 0. A Sync of another port or domain gives no time. Three Sync intervals without a Sync in SYNC give HOLDOVER (R74),
which is a change of state and raises source 789 (R374); best-master selection sets SLAVE_PORT (R94), and the rate is measured afresh
over the Syncs of another port (log 126). -/
def Obligations.DeviceTimeIsSteered : Prop :=
  (∀ dt (m : SyncMsg),
     (∀ r ∈ [(fun b : Chip => ((b.clk.dev : Int) - m.gmTime).natAbs ≤ 1000 ∧ b.qy.tst = .free,
           fun b e : Chip => e.clk = { b.clk with rate := e.clk.rate } ∧ e.qy.good = b.qy.good + 1 ∧
             e.qy.tst = (if 8 ≤ b.qy.good + 1 then .sync else .free) ∧ e.qy.steps = b.qy.steps ∧ e.qy.outliers = b.qy.outliers),
         (fun b => ((b.clk.dev : Int) - m.gmTime).natAbs ≤ 1000 ∧ b.qy.tst = .sync,
           fun b e => e.clk = { b.clk with rate := e.clk.rate } ∧ e.qy.tst = .sync ∧ e.qy.outRun = 0 ∧ e.qy.steps = b.qy.steps ∧
             e.qy.outliers = b.qy.outliers),
         (fun b => ((b.clk.dev : Int) - m.gmTime).natAbs ≤ 1000 ∧ b.qy.tst = .holdover,
           fun b e => e.clk = { b.clk with rate := e.clk.rate } ∧ e.qy.tst = .sync ∧ e.qy.steps = b.qy.steps ∧
             e.qy.outliers = b.qy.outliers),
         (fun b => 1000 < ((b.clk.dev : Int) - m.gmTime).natAbs ∧ b.qy.tst = .sync ∧ b.qy.outRun < 2,
           fun b e => e.clk = b.clk ∧ e.qy.tst = .sync ∧ e.qy.outRun = b.qy.outRun + 1 ∧ e.qy.outliers = satInc b.qy.outliers ∧
             e.qy.steps = b.qy.steps),
         (fun b => 1000 < ((b.clk.dev : Int) - m.gmTime).natAbs ∧ (b.qy.tst ≠ .sync ∨ 2 ≤ b.qy.outRun),
           fun b e => e.clk = { b.clk with dev := m.gmTime } ∧ e.qy.tst = .free ∧ e.qy.good = 0 ∧ e.qy.steps = satInc b.qy.steps ∧
             e.qy.outliers = b.qy.outliers)],
       Does (.syncReceived dt m) dt
         (fun b => (b.ingress m.rx).2 = some .time ∧ m.domain = 0 ∧ b.qy.slave = some m.rx.port ∧ r.1 b)
         (fun b e => r.2 b e ∧ e.qy.slave = some m.rx.port ∧ e.qy.lastSync = b.clk.ref)) ∧
     (∀ g at_, Does (.syncReceived dt m) dt
       (fun b => (b.ingress m.rx).2 = some .time ∧ m.domain = 0 ∧ b.qy.slave = some m.rx.port ∧
         ((b.clk.dev : Int) - m.gmTime).natAbs ≤ 1000 ∧ b.qy.lastGm = some (g, at_) ∧ g < m.gmTime ∧ at_ < b.clk.ref)
       (fun b e => e.clk = { b.clk with rate := { num := m.gmTime - g, den := b.clk.ref - at_ } } ∧
         e.qy.lastGm = some (m.gmTime, b.clk.ref))) ∧
     Does (.syncReceived dt m) dt
       (fun b => (b.ingress m.rx).2 = some .time ∧ (m.domain ≠ 0 ∨ b.qy.slave ≠ some m.rx.port))
       (fun b e => e = (b.ingress m.rx).1)) ∧
  (∀ dt,
     Does (.syncLossHoldover dt) dt
       (fun b => b.receiving = true ∧ b.qy.tst = .sync ∧ b.qy.lastSync + 3 * b.qy.interval ≤ b.clk.ref)
       (fun b e => e.qy = { b.qy with tst := .holdover } ∧ (b.up = true → b.counted e 789) ∧ b.frame e [.qy, .ic, .lh, .sn]) ∧
     ∀ p, Does (.bestMasterSelection dt p) dt (fun b => b.receiving = true ∧ ∀ x, p = some x → (b.port x).link = true)
       (fun b e => e = b.updQy (fun q => { q with slave := p, lastGm := if b.qy.slave = p then b.qy.lastGm else none })))

/-- MKA (R451): a frame whose key name is a live slot's and whose check holds keeps the partner alive and installs the key it
distributes, but a key of another cipher suite installs nothing and sets HM_ERR_STATUS[3]; any other frame does nothing. At the life
time the port loses its associations, and at the hello time it sends a frame for every live slot, with key server priority 255 and the
slot's key name. -/
def Obligations.KeyAgreement : Prop :=
  ∀ dt,
    (∀ m : MkaFrame,
      Does (.mkaFrame dt m) dt (fun b => b.mkaRuns = true ∧ (b.ingress m.rx).2 = some .eapol ∧ m.icvOk = true ∧
          ∃ k ∈ b.hm.cak.toList, ∃ x, k = some x ∧ x.name = m.ckn)
        (fun b e => (e.port m.rx.port).mkaAt = some b.clk.ref ∧
          (∀ o, m.sak = some o → o.xpn256 = true → (e.port m.rx.port).tx = some (o.an % 4)) ∧
          ((∀ o, m.sak = some o → o.xpn256 = false) → (e.port m.rx.port).tx = (b.port m.rx.port).tx ∧
            (e.port m.rx.port).rx = ((b.ingress m.rx).1.port m.rx.port).rx) ∧
          e.hm = (if m.sak.any (fun o => !o.xpn256) then { b.hm with err := setBit b.hm.err 3 } else b.hm) ∧
          b.frame e [.qy, .hm, .ic, .lh, .sn]) ∧
      Does (.mkaFrame dt m) dt (fun b => b.mkaRuns = true ∧ (b.ingress m.rx).2 = some .eapol ∧
          (m.icvOk = false ∨ ∀ k ∈ b.hm.cak.toList, ∀ x, k = some x → x.name ≠ m.ckn))
        (fun b e => e = (b.ingress m.rx).1)) ∧
    ∀ p,
      Does (.mkaLifeExpiry dt p) dt
        (fun b => b.mkaRuns = true ∧ ∃ t, (b.port p).mkaAt = some t ∧ t + 6000000000 ≤ b.clk.ref)
        (fun b e => e.port p = { b.port p with rx := [], tx := none, mkaAt := none } ∧ e.hm = { b.hm with err := setBit b.hm.err 3 } ∧
          (∀ q, q ≠ p → e.port q = b.port q) ∧ b.frame e [.qy, .hm, .ic, .lh, .sn]) ∧
      Does (.mkaHelloTime dt p) dt
        (fun b => b.mkaRuns = true ∧ b.portOn p = true ∧ (b.port p).link = true ∧
          ∀ t, (b.port p).mkaSent = some t → t + 2000000000 ≤ b.clk.ref)
        (fun b e => e.tx.length = b.tx.length + (b.hm.cak.toList.filter Option.isSome).length ∧ b.tx <+: e.tx ∧
          (∀ t ∈ e.tx.drop b.tx.length, t.port = p ∧ t.dst = 0x0180C2000003 ∧ t.etype = 0x888E ∧ t.bytes.getD 5 0 = 255 ∧
            ∃ k, some k ∈ b.hm.cak.toList ∧ toBe 16 k.name.toNat <:+: t.bytes) ∧
          (e.port p).mkaSent = some b.clk.ref ∧ (e.port p).mn = (b.port p).mn + (b.hm.cak.toList.filter Option.isSome).length ∧
          (∀ q, q ≠ p → e.port q = b.port q) ∧ b.frame e [.qy, .tx, .draws])

/-- A video packet (R76 to R82): of no active stream, outside the subset, of another port, or of a frame not newer than the one last
opened, it is dropped and counted; one of the open frame adds its line units to it; otherwise, where a slot holds no frame and none is
open, it opens its frame with them. Its capture time is the frame's (R86; log 121). -/
def Obligations.VideoPackets : Prop :=
  ∀ dt (k : RvfPacket),
    Does (.rvfPacket dt k) dt (fun b => (b.ingress k.rx).2 = some .video ∧ ∀ d ∈ b.ingesting, d.sid ≠ k.streamId)
      (fun b e => e = (b.ingress k.rx).1.dropFmt k.rx.port) ∧
    ∀ d : StreamDecl, d.idx < 256 →
      Does (.rvfPacket dt k) dt (fun b => (b.ingress k.rx).2 = some .video ∧ b.ingesting.find? (fun d => d.sid == k.streamId) = some d ∧
          packetFits k d = false)
        (fun b e => e.stream d.idx = { b.stream d.idx with fmtErr := satInc (b.stream d.idx).fmtErr } ∧
          e.qy.err.toNat.testBit 0 = true ∧ b.frame e [.qy, .ic, .lh, .sn]) ∧
      Does (.rvfPacket dt k) dt (fun b => (b.ingress k.rx).2 = some .video ∧ b.ingesting.find? (fun d => d.sid == k.streamId) = some d ∧
          packetFits k d = true ∧ d.port ≠ k.rx.port)
        (fun b e => e.stream d.idx = { b.stream d.idx with wrongPort := satInc (b.stream d.idx).wrongPort } ∧
          e.qy.err.toNat.testBit 1 = true ∧ b.frame e [.qy, .ic, .lh, .sn]) ∧
      Does (.rvfPacket dt k) dt (fun b => (b.ingress k.rx).2 = some .video ∧ b.ingesting.find? (fun d => d.sid == k.streamId) = some d ∧
          packetFits k d = true ∧ d.port = k.rx.port ∧ (b.stream d.idx).ctl.toNat.testBit 0 = false ∧ b.lh.st ≠ .watchCycle ∧
          (b.stream d.idx).cur = none ∧ (b.stream d.idx).busy ≠ some (b.captureOf (b.stream d.idx) k.timestamp) ∧
          ∃ o, (b.stream d.idx).opened = some o ∧ b.captureOf (b.stream d.idx) k.timestamp ≤ o)
        (fun b e => e.stream d.idx = { b.stream d.idx with latePkt := satInc (b.stream d.idx).latePkt } ∧
          e.qy.err.toNat.testBit 2 = true ∧ b.frame e [.qy, .ic, .lh, .sn]) ∧
      Does (.rvfPacket dt k) dt (fun b => (b.ingress k.rx).2 = some .video ∧ b.ingesting.find? (fun d => d.sid == k.streamId) = some d ∧
          packetFits k d = true ∧ d.port = k.rx.port ∧ (b.stream d.idx).ctl.toNat.testBit 0 = false ∧ b.lh.st ≠ .watchCycle ∧
          (b.stream d.idx).cur = none ∧ (b.stream d.idx).busy ≠ some (b.captureOf (b.stream d.idx) k.timestamp) ∧
          (∀ o, (b.stream d.idx).opened = some o → o < b.captureOf (b.stream d.idx) k.timestamp) ∧
          (∃ slot < 3, ∀ f ∈ (b.stream d.idx).left ++ (b.stream d.idx).frames, f.slot ≠ slot) ∧
          k.lines / (if d.fmt = 1 then 1 else 2) < d.units)
        (fun b e => (e.stream d.idx).opened = some (b.captureOf (b.stream d.idx) k.timestamp) ∧
          (∃ o, (e.stream d.idx).cur = some o ∧ o.capture = b.captureOf (b.stream d.idx) k.timestamp ∧ o.slot < 3 ∧
            (∀ f ∈ (b.stream d.idx).frames, f.slot ≠ o.slot) ∧
            ∀ u, u ∈ o.got ↔ k.firstLine ≤ u * (if d.fmt = 1 then 1 else 2) ∧
              u * (if d.fmt = 1 then 1 else 2) < k.firstLine + k.lines) ∧
          (e.stream d.idx).frames = (b.stream d.idx).frames ∧ e.dram = b.dram ∧ e.tt = b.tt) ∧
      Does (.rvfPacket dt k) dt (fun b => (b.ingress k.rx).2 = some .video ∧ b.ingesting.find? (fun d => d.sid == k.streamId) = some d ∧
          packetFits k d = true ∧ d.port = k.rx.port ∧ (b.stream d.idx).ctl.toNat.testBit 0 = false ∧ b.lh.st ≠ .watchCycle ∧
          ∃ o, (b.stream d.idx).cur = some o ∧ o.capture = b.captureOf (b.stream d.idx) k.timestamp ∧
            o.got.length + k.lines / (if d.fmt = 1 then 1 else 2) < d.units)
        (fun b e => (∃ o p, (b.stream d.idx).cur = some o ∧ (e.stream d.idx).cur = some p ∧ p.capture = o.capture ∧ p.slot = o.slot ∧
            ∀ u, u ∈ p.got ↔ u ∈ o.got ∨ k.firstLine ≤ u * (if d.fmt = 1 then 1 else 2) ∧
              u * (if d.fmt = 1 then 1 else 2) < k.firstLine + k.lines) ∧
          (e.stream d.idx).frames = (b.stream d.idx).frames ∧ e.dram = b.dram ∧ e.tt = b.tt)

/-- An open frame closes at the end of its grace time and one input period after its capture time (R81 b, d): no frame of the stream
is open, the registers hold its capture and close times and the units it lost are counted (R83, R97). An evidence copy that ends
leaves the list of copies in progress; its entry is written with the header and the frame and QY_EVID_HEAD names it, or after reads
that failed three times the head stays (R90, R91, R333). The loss map (R84): bit k of byte k / 8 says whether unit k was lost; its
length is the units' bits in whole bytes, and the bits beyond read 0. The capture time is extended to the 64-bit value that equals it
modulo 2^32 and lies nearest device time (R86). -/
def Obligations.FramesClose : Prop :=
  (∀ dt s (d : StreamDecl) (o : OpenFrame), s < 256 →
     ∀ i ∈ [(Instr.graceExpiry dt s, fun b : Chip => ∃ t, o.finalAt = some t ∧
           t + clampNat 0 10000 ((b.stream s).grace.toNat % 2 ^ 14) * 1000 ≤ b.clk.ref),
         (Instr.inputPeriodExpiry dt s, fun b => o.capture * d.fps + 1000000000 ≤ b.clk.dev * d.fps)],
       Does i.1 dt (fun b => b.receiving = true ∧ b.ingesting.find? (fun d => d.idx == s) = some d ∧ (b.stream s).cur = some o ∧ i.2 b)
         (fun b e => (e.stream s).cur = none ∧ (e.stream s).cold = false ∧ (e.stream s).capt = o.capture ∧ (e.stream s).close = b.clk.dev ∧
           (e.stream s).nclosed = (b.stream s).nclosed + 1 ∧
           (e.stream s).lossUnits = satAdd (b.stream s).lossUnits ((List.range d.units).filter (fun u => !o.got.contains u)).length ∧
           e.qy.ports = b.qy.ports ∧ e.clk = b.clk)) ∧
  (∀ dt s fails (d : StreamDecl) (k : EvidCopy), s < 256 →
     Does (.evidenceCopyDone dt s fails) dt (fun b => b.awake = true ∧ b.evidCopy s = some k ∧ b.str.stream s = some d)
       (fun b e => e.qy.copies = b.qy.copies.filter (fun x => x != k) ∧
         ((e.stream s).evidHead = (b.stream s).evidHead ∨ (e.stream s).evidHead = BitVec.ofNat 32 k.entry) ∧
         (e.stream s).evNext = (b.stream s).evNext ∧ e.clk = b.clk ∧ e.qy.ports = b.qy.ports) ∧
     Does (.evidenceCopyDone dt s []) dt (fun b => b.awake = true ∧ b.evidCopy s = some k ∧ b.str.stream s = some d ∧
         b.refusal (.ctx d.ctx) true (b.evidAt d k.entry) (b.evidEntry d k.frame).length = none)
       (fun b e => (e.stream s).evidHead = BitVec.ofNat 32 k.entry ∧
         e.dram = (b.dramWrite (b.evidAt d k.entry) (b.evidEntry d k.frame)).dram ∧
         (∀ f ∈ (e.stream s).frames, f.same k.frame = true → f.evidDone = true) ∧ b.frame e [.qy, .mc, .dram])) ∧
  (∀ (units : Nat) (lost : List Nat), (∀ u ∈ lost, u < units) →
     (lossBytes units lost).length = (units + 7) / 8 ∧
       ∀ k, ((lossBytes units lost).getD (k / 8) 0).getLsbD (k % 8) = decide (k ∈ lost)) ∧
  (∀ (ts : Word) (now : Nat), extendCapture ts now % 2 ^ 32 = ts.toNat ∧
     ∀ x : Nat, x % 2 ^ 32 = ts.toNat → ((extendCapture ts now : Int) - now).natAbs ≤ ((x : Int) - now).natAbs)

/-! ### The engines, arithmetic and arrays -/

/-- An engine takes its next job and works on it, its result waiting for the job's end; up to two failed checks are retried, and the
third abandons the job, which ends with the engine free, its status word's ABANDONED set, source 769 or 770 raised, and the stream's
context faulted (R100, R106, R112, R125, R517). A motion job reads the field of the frame before its own, where that has been written.
An engine's job ends: its entry is written to its ring in DRAM and the job's frame is listed as written (R106, R119, R121). A left
frame whose right view does not come in two input periods is enqueued unpaired (R112). -/
def Obligations.EngineJobsRun : Prop :=
  (∀ dt (j : Job) (d : StreamDecl),
     (∀ fails ∈ [[], [JobErr.check], [.check, .check]],
       Does (.motionJobStart dt fails) dt
         (fun b => b.awake = true ∧ b.me.eng.run = none ∧ nextJob b.me.eng.q = some j ∧ b.str.stream j.stream = some d ∧
           (j.frame.closeIdx = 0 ∨ ∀ w ∈ b.me.written, w.stream = d.idx → w.closeIdx ≠ j.frame.closeIdx - 1))
         (fun b e => e.me.eng.run = some j ∧ e.me.eng.q = b.me.eng.q.erase j ∧ e.me.eng.out = b.motionOut d j none ∧
           e.me.eng.at_ = b.motionAt d j.frame.closeIdx ∧ e.me.written = b.me.written ∧ b.frame e [.me]) ∧
       (dt.errs = [] → Does (.motionJobStart dt fails) dt
         (fun b => b.awake = true ∧ b.me.eng.run = none ∧ nextJob b.me.eng.q = some j ∧ b.str.stream j.stream = some d ∧
           j.frame.closeIdx ≠ 0 ∧ (∃ w ∈ b.me.written, w.stream = d.idx ∧ w.closeIdx = j.frame.closeIdx - 1) ∧
           b.refusal (.ctx d.ctx) false (b.motionAt d (j.frame.closeIdx - 1) + 64) (4 * (d.motionDims.1 * d.motionDims.2)) = none)
         (fun b e => e.me.eng.run = some j ∧ e.me.eng.q = b.me.eng.q.erase j ∧
           e.me.eng.out = b.motionOut d j (some (fieldVectors d
             (b.dramRead (b.motionAt d (j.frame.closeIdx - 1) + 64) (4 * (d.motionDims.1 * d.motionDims.2))))) ∧
           e.me.written = b.me.written ∧ b.frame e [.me, .mc])) ∧
       Does (.disparityJobStart dt fails) dt
         (fun b => b.awake = true ∧ b.sd.eng.run = none ∧ nextJob b.sd.eng.q = some j ∧ b.str.stream j.stream = some d)
         (fun b e => e.sd.eng.run = some j ∧ e.sd.eng.q = b.sd.eng.q.erase j ∧ e.sd.eng.out = b.dispOut d j.frame (b.pairOf d j) ∧
           e.sd.maps = b.sd.maps ∧ e.sd.await = b.sd.await ∧ b.frame e [.sd])) ∧
     Does (.motionJobStart dt [.check, .check, .check]) dt
       (fun b => b.awake = true ∧ b.me.eng.run = none ∧ nextJob b.me.eng.q = some j ∧ b.str.stream j.stream = some d)
       (fun b e => e.me.eng.run = none ∧ e.me.eng.abandoned = true ∧ b.counted e 769 ∧ b.faults e d.ctx 0x105) ∧
     Does (.disparityJobStart dt [.check, .check, .check]) dt
       (fun b => b.awake = true ∧ b.sd.eng.run = none ∧ nextJob b.sd.eng.q = some j ∧ b.str.stream j.stream = some d)
       (fun b e => e.sd.eng.run = none ∧ e.sd.eng.abandoned = true ∧ b.counted e 770 ∧ b.faults e d.ctx 0x105)) ∧
  (∀ dt (j : Job) (d : StreamDecl),
     Does (.motionJobDone dt) dt
       (fun b => b.awake = true ∧ b.me.eng.run = some j ∧ j.stale = false ∧ b.str.stream j.stream = some d ∧
         b.refusal (.ctx d.ctx) true b.me.eng.at_ b.me.eng.out.length = none)
       (fun b e => e.me.eng.run = none ∧ e.me.eng.q = b.me.eng.q ∧
         ({ stream := j.stream, closeIdx := j.frame.closeIdx, at_ := b.clk.dev } : FieldRec) ∈ e.me.written ∧
         e.dram = (b.dramWrite b.me.eng.at_ b.me.eng.out).dram) ∧
     Does (.disparityJobDone dt) dt
       (fun b => b.awake = true ∧ b.sd.eng.run = some j ∧ j.stale = false ∧ b.str.stream j.stream = some d ∧
         b.refusal (.ctx d.ctx) true b.sd.eng.at_ b.sd.eng.out.length = none)
       (fun b e => e.sd.eng.run = none ∧ e.sd.eng.q = b.sd.eng.q ∧ (∀ m, b.sd.next = some m → { m with at_ := b.clk.dev } ∈ e.sd.maps) ∧
         e.dram = (b.dramWrite b.sd.eng.at_ b.sd.eng.out).dram) ∧
     ∀ s (f : ClosedFrame),
       Does (.disparityPairTimeout dt s) dt (fun b => b.awake = true ∧ b.pairLate s = some (d, f))
         (fun b e => (∃ k, e.sd.eng.q = b.sd.eng.q ++ [k] ∧ k.stream = s ∧ k.frame = f ∧ k.right = none) ∧
           (s, f.closeIdx) ∉ e.sd.await ∧ b.frame e [.sd]) ∧
       ∀ b : Chip, b.pairLate s = some (d, f) → f.capture * d.fps + 2 * 1000000000 ≤ b.clk.dev * d.fps)

/-- No A16 word that a descriptor writes is 0x8000, and one that it reads is taken as -32,767 (R159); rounding gives a zero or a
normal finite FP32 or FP16 number, never a subnormal, an infinity or a NaN (R160). -/
def Obligations.WrittenNumbersAreNormal : Prop :=
  a16 0x8000 = -32767 ∧ (∀ w, -32767 ≤ a16 w ∧ a16 w ≤ 32767) ∧
    (∀ fout y, leNat (outBytes 0 fout y) ≠ 0x8000 ∧ leNat (outBytes 0 fout y) < 65536) ∧
    ∀ neg num den e, 0 < den →
      ((rna32 neg num den e).toNat / 2 ^ 23 % 256 ≠ 255 ∧
        ((rna32 neg num den e).toNat / 2 ^ 23 % 256 = 0 → (rna32 neg num den e).toNat % 2 ^ 23 = 0)) ∧
      ((rna16 neg num den e).toNat / 2 ^ 10 % 32 ≠ 31 ∧
        ((rna16 neg num den e).toNat / 2 ^ 10 % 32 = 0 → (rna16 neg num den e).toNat % 2 ^ 10 = 0))

/-- A loaded generator state is never zero, and no draw makes it so (R188). -/
def Obligations.GeneratorStatesAreNeverZero : Prop :=
  seedState 0 = 0x9E3779B97F4A7C15 ∧ (∀ s, seedState s ≠ 0) ∧ ∀ s, s ≠ 0 → (xs64 s).2 ≠ 0

/-- The ten compute descriptors on an array: placed for another context they fault theirs (R144); with a zero count they complete
without touching a memory (R146); with an operand that R138 refuses they fault with its code; otherwise, where nothing strikes them,
their results stand in the memories (of one that was pre-empted, those of its passes that are left), the accumulators in the working
area (R135), and nothing else of the device changes (R131, R182, R183, R197, R201, R203, R209, R210, R214, R275). A COPY from a peer's
window asks the peer for its bytes, or faults with code 0x09 where the peer is absent or disabled (R429). -/
def Obligations.ComputeDescriptorsRun : Prop :=
  ∀ dt a errs (k : Cur), a < 32 →
    (∀ p ∈ [(1, Instr.matmul dt a errs), (2, .conv dt a errs), (3, .deconv dt a errs), (4, .pool dt a errs), (5, .warp dt a errs),
        (6, .vector dt a errs), (7, .norm dt a errs), (8, .attend dt a errs), (9, .expand dt a errs), (10, .copy dt a errs)],
      Does p.2 dt (fun b => b.descReady a p.1 = true ∧ (b.arr a).cur = some k ∧ k.misplaced = true)
        (fun b e => b.faults e k.d.ctx 3) ∧
      Does p.2 dt (fun b => b.descReady a p.1 = true ∧ (b.arr a).cur = some k ∧ k.misplaced = false ∧ descNop k.d.bytes = true)
        (fun b e => e.arr a = { b.arr a with cur := some { k with executed := true, pass := descPasses k.d.bytes - 1 } } ∧
          (∀ n, n ≠ a → e.arr n = b.arr n) ∧ b.frame e [.oc]) ∧
      Does p.2 dt
        (fun b => b.descReady a p.1 = true ∧ (b.arr a).cur = some k ∧ k.misplaced = false ∧ descNop k.d.bytes = false ∧
          (b.badOperand (b.env a k.d) k.d.bytes).isSome = true)
        (fun b e => ∀ x, b.badOperand (b.env a k.d) k.d.bytes = some x → b.faults e k.d.ctx x.code) ∧
      Does p.2 dt
        (fun b => b.descReady a p.1 = true ∧ (b.arr a).cur = some k ∧ k.misplaced = false ∧ descNop k.d.bytes = false ∧
          b.badOperand (b.env a k.d) k.d.bytes = none ∧ fromPeer k.d.bytes = false ∧
          ((b.refreshExp a k).touchOperands k.d.bytes k.d.bound).events (b.env a k.d) k.d.bytes errs = [])
        (fun b e => (e.arr a).cur = some { k with executed := true, pass := descPasses k.d.bytes - 1 } ∧
          (let c := (b.refreshExp a k).touchOperands k.d.bytes k.d.bound
           let r := (c.accumulate (b.env a k.d) k.d.bytes (descPasses k.d.bytes)).writePieces (b.env a k.d) (dOut k.d.bytes)
             (k.rest.getD (c.opPieces (b.env a k.d) k.d.bytes))
           e.dram = r.dram ∧ e.basin = r.basin ∧ e.sram = r.sram) ∧
          (∀ n, n ≠ a → e.arr n = b.arr n) ∧ b.frame e [.oc, .mc, .bs, .dram, .basin, .sram, .draws])) ∧
    Does (.copy dt a errs) dt
      (fun b => b.descReady a 10 = true ∧ (b.arr a).cur = some k ∧ k.misplaced = false ∧ descNop k.d.bytes = false ∧
        b.badOperand (b.env a k.d) k.d.bytes = none ∧ fromPeer k.d.bytes = true ∧ b.peerUp (opOff (dA k.d.bytes) / 2 ^ 32) = true)
      (fun b e => e.pl.made = b.pl.made + (copyGeo k.d.bytes).chunks.length ∧ (e.arr a).descDone = (b.arr a).descDone ∧
        e.dram = b.dram ∧ e.basin = b.basin ∧ e.sram = b.sram) ∧
    Does (.copy dt a errs) dt
      (fun b => b.descReady a 10 = true ∧ (b.arr a).cur = some k ∧ k.misplaced = false ∧ descNop k.d.bytes = false ∧
        b.badOperand (b.env a k.d) k.d.bytes = none ∧ fromPeer k.d.bytes = true ∧ b.peerUp (opOff (dA k.d.bytes) / 2 ^ 32) = false)
      (fun b e => b.faults e k.d.ctx 9 ∧ e.pl.reqFails = satInc b.pl.reqFails)

/-- A WAIT (R149, R368 to R370): on an object outside the manifest it faults with code 0x04; of value 0 it is satisfied with its mark
unchanged; where the object has reached mark plus value it completes and the mark becomes that; otherwise it registers, or with no
time to wait faults with code 0x05. A blocked WAIT (R364, R368): where its object reaches its context's mark plus its amount it is
satisfied, and the mark becomes that. Satisfied, it completes when its context runs, and its array counts it (R371); out of time, its
context faults with code 0x05 and SY_ERR_STATUS[2] is set (R370). -/
def Obligations.WaitsRegisterAndEnd : Prop :=
  (∀ dt a (k : Cur) (o : Nat) (v : Word) (limit : Nat), a < 32 → k.misplaced = false → o < 65536 → o = fieldAt k.d.bytes 0x20 4 →
     v = BitVec.ofNat 32 (fieldAt k.d.bytes 0x24 4) → limit = fieldAt k.d.bytes 0x28 4 →
     Does (.wait dt a) dt (fun b => b.descReady a 11 = true ∧ (b.arr a).cur = some k ∧ o ∉ (b.manifest k.d.ctx).1)
       (fun b e => b.faults e k.d.ctx 4) ∧
     Does (.wait dt a) dt (fun b => b.descReady a 11 = true ∧ (b.arr a).cur = some k ∧ o ∈ (b.manifest k.d.ctx).1 ∧ v = 0)
       (fun b e => e = b.markDone a) ∧
     Does (.wait dt a) dt
       (fun b => b.descReady a 11 = true ∧ (b.arr a).cur = some k ∧ o ∈ (b.manifest k.d.ctx).1 ∧ v ≠ 0 ∧
         ∃ x, b.obj o = some x ∧ (x.value - (b.mark k.d.ctx o + v)).toNat < 2 ^ 31)
       (fun b e => e.mark k.d.ctx o = b.mark k.d.ctx o + v ∧ (∀ y q, q < 65536 → (y, q) ≠ (k.d.ctx, o) → e.mark y q = b.mark y q) ∧
         e.sy.objs = b.sy.objs ∧ e.sy.waiters = b.sy.waiters ∧ (e.arr a).cur.any (·.executed) = true ∧ b.frame e [.sy, .oc]) ∧
     Does (.wait dt a) dt
       (fun b => b.descReady a 11 = true ∧ (b.arr a).cur = some k ∧ o ∈ (b.manifest k.d.ctx).1 ∧ v ≠ 0 ∧ limit = 0 ∧
         ∀ x, b.obj o = some x → 2 ^ 31 ≤ (x.value - (b.mark k.d.ctx o + v)).toNat)
       (fun b e => b.faults e k.d.ctx 5 ∧ e.sy.err.toNat.testBit 2 = true) ∧
     Does (.wait dt a) dt
       (fun b => b.descReady a 11 = true ∧ (b.arr a).cur = some k ∧ o ∈ (b.manifest k.d.ctx).1 ∧ v ≠ 0 ∧ limit ≠ 0 ∧
         ∀ x, b.obj o = some x → 2 ^ 31 ≤ (x.value - (b.mark k.d.ctx o + v)).toNat)
       (fun b e => (∃ w ∈ e.sy.waiters ++ e.sy.retry, w.array = a ∧ w.ctx = k.d.ctx ∧ w.obj = o ∧ w.step = k.d.step ∧
           w.value = v ∧ w.sat = false) ∧ e.sy.marks = b.sy.marks ∧ e.sy.objs = b.sy.objs)) ∧
  ((∀ (c : Chip) (w : Waiter) (x : SyncObj), w.obj < 65536 → c.sy.waiters = [w] → c.obj w.obj = some x →
     ((c.judge w.obj).sy.waiters = [if w.sat = false ∧ reached x.value (c.mark w.ctx w.obj + w.value) = true then { w with sat := true } else w] ∧
       (w.sat = false → reached x.value (c.mark w.ctx w.obj + w.value) = true →
         (c.judge w.obj).mark w.ctx w.obj = c.mark w.ctx w.obj + w.value) ∧
       ((w.sat = true ∨ reached x.value (c.mark w.ctx w.obj + w.value) = false) → (c.judge w.obj).sy.marks = c.sy.marks))) ∧
   ∀ dt a x o (w : Waiter) (d : QDesc), a < 32 →
     Does (.waitSatisfied dt a x o) dt (fun b => b.satOk a x o = true ∧ b.waiter a x o = some w ∧ b.waitDesc w = some d)
       (fun b e => (e.arr a).descDone = satInc (b.arr a).descDone) ∧
     Does (.waitTimeout dt a x o) dt (fun b => b.timeoutOk a x o = true ∧ b.waiter a x o = some w)
       (fun b e => b.faults e x 5 ∧ e.sy.err.toNat.testBit 2 = true))

/-- A SIGNAL (R149, R365, R371, R372): on an object outside the manifest, or a local one that is not the context's own, it faults with
code 0x04; a local one adds its amount modulo 2^32 once per step, other objects keeping their values; a remote one sends its request,
changes no object here, and faults with code 0x09 where the peer is absent or disabled. A reserved opcode faults with code 0x01
(R145). -/
def Obligations.SignalDescriptors : Prop :=
  ∀ dt a (k : Cur) (o : Nat) (n : Word) (peer : Nat), a < 32 → k.misplaced = false → o = fieldAt k.d.bytes 0x20 4 →
    n = BitVec.ofNat 32 (fieldAt k.d.bytes 0x24 4) → peer = fieldAt k.d.bytes 0x28 1 →
    Does (.signal dt a) dt (fun b => b.descReady a 12 = true ∧ (b.arr a).cur = some k ∧ (o ∉ (b.manifest k.d.ctx).2 ∨
        peer = 255 ∧ ∀ x, b.obj o = some x → x.signaller ≠ 0 ∨ x.owner ≠ k.d.ctx))
      (fun b e => b.faults e k.d.ctx 4) ∧
    Does (.signal dt a) dt (fun b => b.descReady a 12 = true ∧ (b.arr a).cur = some k ∧ o ∈ (b.manifest k.d.ctx).2 ∧ peer = 255 ∧
        (∃ x, b.obj o = some x ∧ x.signaller = 0 ∧ x.owner = k.d.ctx) ∧ ∀ t, b.step? k.d.step = some t → k.d.sig ∉ t.sigs)
      (fun b e => (∀ x, b.obj o = some x → e.obj o = some { x with value := x.value + n }) ∧ (∀ q, q ≠ o → e.obj q = b.obj q) ∧
        (∀ t, e.step? k.d.step = some t → k.d.sig ∈ t.sigs) ∧ ((∀ w ∈ b.sy.waiters, w.obj ≠ o) → e.sy.marks = b.sy.marks) ∧
        (e.arr a).cur.any (·.executed) = true) ∧
    Does (.signal dt a) dt (fun b => b.descReady a 12 = true ∧ (b.arr a).cur = some k ∧ o ∈ (b.manifest k.d.ctx).2 ∧
        (peer = 255 → ∃ x, b.obj o = some x ∧ x.signaller = 0 ∧ x.owner = k.d.ctx) ∧
        ∃ t, b.step? k.d.step = some t ∧ k.d.sig ∈ t.sigs)
      (fun b e => e = b.markDone a) ∧
    Does (.signal dt a) dt (fun b => b.descReady a 12 = true ∧ (b.arr a).cur = some k ∧ o ∈ (b.manifest k.d.ctx).2 ∧ peer ≠ 255 ∧ n ≠ 0 ∧
        b.peerUp peer = true ∧ (∀ q ∈ b.pl.waitReqs, q.id ≠ b.pl.made) ∧ ∀ t, b.step? k.d.step = some t → k.d.sig ∉ t.sigs)
      (fun b e => e.sy = b.sy ∧ (∃ r ∈ e.pl.reqs ++ e.pl.waitReqs, r.id = b.pl.made ∧ r.isSignal = true ∧ r.peer = peer ∧
          r.ctx = k.d.ctx ∧ r.target = BitVec.ofNat 32 o ∧ r.value = n) ∧ (e.arr a).cur.any (·.executed) = true) ∧
    Does (.signal dt a) dt (fun b => b.descReady a 12 = true ∧ (b.arr a).cur = some k ∧ o ∈ (b.manifest k.d.ctx).2 ∧ peer ≠ 255 ∧ n = 0 ∧
        ∀ t, b.step? k.d.step = some t → k.d.sig ∉ t.sigs)
      (fun b e => e.sy = b.sy ∧ e.pl = b.pl ∧ (∀ t, e.step? k.d.step = some t → k.d.sig ∈ t.sigs) ∧
        (e.arr a).cur.any (·.executed) = true) ∧
    Does (.signal dt a) dt (fun b => b.descReady a 12 = true ∧ (b.arr a).cur = some k ∧ o ∈ (b.manifest k.d.ctx).2 ∧ peer ≠ 255 ∧ n ≠ 0 ∧
        b.peerUp peer = false ∧ ∀ t, b.step? k.d.step = some t → k.d.sig ∉ t.sigs)
      (fun b e => b.faults e k.d.ctx 9 ∧ e.pl.reqFails = satInc b.pl.reqFails) ∧
    Does (.invalidDescriptor dt a) dt
      (fun b => (b.arr a).cur = some k ∧ reservedOp (dOpcode k.d.bytes) = true ∧ b.descReady a (dOpcode k.d.bytes) = true)
      (fun b e => b.faults e k.d.ctx 1)

/-- A descriptor completes (R140, R157): it is counted and leaves the array. A save ends (R151, R152): the passes that have run have
written, the 48 KiB of its image stand in the working area, and the descriptor is set aside with its next pass and counted; a restore
ends: the descriptor is in execution again, or has left the array meanwhile (log 113). A replay (R186, R513 to R515): a step that has
run at most twice, and whose journal can be read, runs once more; one at the limit faults its context with the cause's code, as R150
records it. -/
def Obligations.DescriptorsAndStepsEnd : Prop :=
  (∀ dt a (k : Cur), a < 32 →
     Does (.descriptorComplete dt a) dt (fun b => b.completeOk a = true ∧ (b.arr a).cur = some k)
       (fun b e => (e.arr a).descDone = satInc (b.arr a).descDone ∧ (e.arr a).cur ≠ some k ∧
         ∀ n, n ≠ a → (e.arr n).descDone = (b.arr n).descDone) ∧
     (∀ pass, Does (.preemptSaveDone dt a pass) dt (fun b => b.awake = true ∧ (b.arr a).st = .save ∧ (b.arr a).cur = some k)
       (fun b e => (b.leavePasses a pass k).2 ∈ (e.arr a).saved ∧ (b.leavePasses a pass k).2.d = k.d ∧ k.pass ≤ (b.leavePasses a pass k).2.pass ∧
         (e.arr a).preempts = satInc (b.arr a).preempts ∧ e.dram = (b.leavePasses a pass k).1.dram ∧
         e.basin = (b.leavePasses a pass k).1.basin ∧
         ∀ p, ((b.leavePasses a pass k).1.env a k.d).astore = some p →
           e.sram = (b.leavePasses a pass k).1.sram.write (b.sramAt a (p.1 + p.2 - 48 * 1024))
             ((b.leavePasses a pass k).1.saveImage ((b.leavePasses a pass k).1.env a k.d) k.d.bytes (b.leavePasses a pass k).2.pass)) ∧
       Does (.preemptSaveDone dt a pass) dt (fun b => b.awake = true ∧ (b.arr a).st = .save ∧ (b.arr a).cur = none)
         (fun b e => (e.arr a).preempts = satInc (b.arr a).preempts ∧ (e.arr a).saved = (b.arr a).saved)) ∧
     Does (.restoreDone dt a) dt (fun b => b.awake = true ∧ (b.arr a).st = .restore ∧ (b.arr a).transfer = some k ∧ k ∈ (b.arr a).saved ∧
         b.resident k.d.ctx = true)
       (fun b e => (e.arr a).cur = some k ∧ (e.arr a).saved = (b.arr a).saved.erase k) ∧
     Does (.restoreDone dt a) dt (fun b => b.awake = true ∧ (b.arr a).st = .restore ∧
         ∀ y, (b.arr a).transfer = some y → y ∉ (b.arr a).saved ∨ b.resident y.d.ctx = false)
       (fun b e => e = ((b.updArr a (fun r => { r with transfer := none, st := .idle })).takeNext a).schedule)) ∧
  (∀ dt no (t : Step) (r : Replay),
     Does (.stepReplay dt no) dt
       (fun b => b.awake = true ∧ b.step? no = some t ∧ t.replay = some r ∧ t.runs < 3 ∧ b.journals t.part ≠ [])
       (fun _ e => ∃ u, e.step? no = some u ∧ u.runs = t.runs + 1 ∧ u.replay = none ∧ u.sigs = t.sigs) ∧
     Does (.stepReplay dt no) dt
       (fun b => b.awake = true ∧ b.step? no = some t ∧ t.replay = some r ∧ (3 ≤ t.runs ∨ b.journals t.part = []) ∧ r.basin = false)
       (fun b e => b.faults e t.ctx r.code ∧ (r.array < 32 →
         (e.arr r.array).errInfo = BitVec.ofNat 32 (r.code * 2 ^ 24 + r.opcode * 2 ^ 16 + t.ctx))) ∧
     Does (.stepReplay dt no) dt
       (fun b => b.awake = true ∧ b.step? no = some t ∧ t.replay = some r ∧ (3 ≤ t.runs ∨ b.journals t.part = []) ∧ r.basin = true)
       (fun b e => e = b.basinOutcome r.addr))

/-! ### Scheduling -/

/-- A major-cycle boundary (R288, R290, R310, R314): the cycle starts at this moment, TT_CYCLE counts it, partitions in reset return
to service and contexts that were restarting do too. -/
def Obligations.BoundariesStartTheCycle : Prop :=
  ∀ dt ready,
    Does (.majorCycleBoundary dt ready) dt (fun b => b.boundaryDue = true ∧ b.cfg.applied.isSome = true)
      (fun b e => e.tt.start = b.clk.dev ∧ e.tt.inCycle = true ∧ e.cfg.applied.isSome = true) ∧
    Does (.majorCycleBoundary dt ready) dt (fun b => b.boundaryDue = true ∧ b.cfg.applied.isSome = true ∧ b.imageDue = none)
      (fun b e => e.tt.cycles = (if b.cfg.everApplied then b.tt.cycles + 1 else b.tt.cycles) ∧ e.cfg.applied = b.cfg.applied ∧
        (∀ p < 8, vget .absent e.tt.pst p ≠ .reset) ∧
        ∀ d ∈ b.str.ctxs, d.id < 256 → (b.ctx d.id).st = .restarting → (e.ctx d.id).st ≠ .restarting ∧ (e.ctx d.id).left = none)

/-- A tide entry comes due (R228, R291 to R294): the table's pointer moves past it and its SNAP flag asks for a snapshot; a marker
does nothing more; a context step is issued with the next step number, or skipped and counted while the entry's last step, of the same
tide table, is incomplete; a LIVE entry issues the earliest instant to be presented, but of a degraded stream only an anchor, any
other instant passing the entry by (R318; log 129, the model's reading); a SETTLED entry issues the instants of the earliest period
formed, or stays owed. An entry of the tide table that meets an uncorrectable error resets its partition instead, and TT_ERR_STATUS[6]
is set (R297). -/
def Obligations.TideEntriesIssue : Prop :=
  (∀ dt k (t : TideDecl),
     (∀ r ∈ [(0, Instr.tideLiveInstant dt k false), (1, .tideSettledPeriod dt k false), (2, .tideContextStep dt k false),
         (3, .tideMarker dt k false)],
       Does r.2 dt (fun b => b.entryDue r.1 k = some t)
         (fun b e => e.tt.next = k + 1 ∧ (t.snap = true → (3, k) ∈ e.sn.ask) ∧ e.clk = b.clk ∧ e.tt.cycles = b.tt.cycles ∧
           (r.1 = 3 → e.tt.steps = b.tt.steps ∧ e.tt.stepNo = b.tt.stepNo))) ∧
     Does (.tideContextStep dt k false) dt
       (fun b => b.entryDue 2 k = some t ∧ ∃ s ∈ b.tt.steps, s.oldTable = false ∧ ∃ n, s.subj = .context k n)
       (fun b e => e.tt.steps = b.tt.steps ∧ e.tt.stepNo = b.tt.stepNo ∧ e.tt.skipped = satInc b.tt.skipped ∧
         e.tt.err.toNat.testBit 1 = true) ∧
     Does (.tideContextStep dt k false) dt
       (fun b => b.entryDue 2 k = some t ∧ b.ctxRunnable t.target = true ∧ ∀ s ∈ b.tt.steps, s.oldTable = true ∨ ∀ n, s.subj ≠ .context k n)
       (fun b e => e.tt.stepNo = b.tt.stepNo + 1 ∧ e.tt.skipped = b.tt.skipped ∧
         ∃ s ∈ e.tt.steps, s.no = b.tt.stepNo ∧ s.ctx = t.target ∧ s.subj = .context k b.tt.cycles ∧ s.runs = 1) ∧
     ∀ (d : StreamDecl) (ref : Nat × Nat) j p rest,
       Does (.tideLiveInstant dt k false) dt
         (fun b => b.entryDue 0 k = some t ∧ b.str.stream t.target = some d ∧ b.streamRuns d = true ∧
           (b.mode d.idx false).ref = some ref ∧ b.liveNext d ref (b.tt.start + t.offset * 10000) = some j ∧
           (b.degraded d.idx = true → d.anchor (b.fgHdr d) ref.1 j = true))
         (fun b e => e.tt.stepNo = b.tt.stepNo + 1 ∧ ∃ s ∈ e.tt.steps, s.no = b.tt.stepNo ∧ s.ctx = d.ctx ∧ s.subj = .frame d.idx false j) ∧
       Does (.tideLiveInstant dt k false) dt
         (fun b => b.entryDue 0 k = some t ∧ b.str.stream t.target = some d ∧ b.streamRuns d = true ∧ d.idx < 256 ∧
           (b.mode d.idx false).ref = some ref ∧ b.liveNext d ref (b.tt.start + t.offset * 10000) = some j ∧
           b.degraded d.idx = true ∧ d.anchor (b.fgHdr d) ref.1 j = false)
         (fun b e => e.tt.stepNo = b.tt.stepNo ∧ e.tt.steps = b.tt.steps ∧ (e.mode d.idx false).issued = (b.mode d.idx false).issued ++ [j]) ∧
       Does (.tideSettledPeriod dt k false) dt
         (fun b => b.entryDue 1 k = some t ∧ b.str.stream t.target = some d ∧ b.streamRuns d = true ∧ b.degraded d.idx = false ∧
           d.idx < 256 ∧ (b.mode d.idx true).periods = p :: rest)
         (fun b e => e.tt.stepNo = b.tt.stepNo + BitVec.ofNat 32 (d.periodInstants p).length ∧
           e.tt.steps.length = b.tt.steps.length + (d.periodInstants p).length ∧ (e.mode d.idx true).periods = rest) ∧
       Does (.tideSettledPeriod dt k false) dt
         (fun b => b.entryDue 1 k = some t ∧ b.str.stream t.target = some d ∧ b.streamRuns d = true ∧ d.idx < 256 ∧
           (b.mode d.idx true).periods = [])
         (fun b e => (e.mode d.idx true).owed.isSome = true ∧ e.tt.steps = b.tt.steps)) ∧
  (∀ dt k (t : TideDecl), t.part < 8 →
     ∀ r ∈ [(0, Instr.tideLiveInstant dt k true), (1, .tideSettledPeriod dt k true), (2, .tideContextStep dt k true),
         (3, .tideMarker dt k true)],
       Does r.2 dt (fun b => b.awake = true ∧ b.str.tide[k]? = some t ∧ min t.kind 3 = r.1 ∧ (b.str.part t.part).isSome = true)
         (fun b e => vget .absent e.tt.pst t.part = .reset ∧ e.tt.err.toNat.testBit 6 = true ∧ e.tt.stepNo = b.tt.stepNo))

/-- A step that outruns its budget is counted once and nothing else of it changes (R295). A control core that restarts is counted
(R519). A kernel is placed on the lowest-numbered array of its partition's effective mask that is open and takes its class (R299,
R300), a serving step's inputs being written before its first. A partition's kernels are those of its number, a removed one's among
them (log 106, the model's reading). Swaps (R304, R305, R308, R310): a swap-out ends with the share in the swap area and its context
swapped out, and so it does, with the berth's share zero-filled, where the context was torn down meanwhile; a swap-in ends with its
context resident, its share zero-filled or read from the swap area, and protected from eviction until it progresses; a context that
outstays the quantum, or 1 ms after its swap-in, is marked so. -/
def Obligations.KernelsArePlacedAndSwapped : Prop :=
  (∀ dt,
     (∀ no (t : Step) fin, Does (.stepOverrun dt no) dt
       (fun b => b.awake = true ∧ b.step? no = some t ∧ t.budgetEnd = some fin ∧ fin ≤ b.clk.dev)
       (fun b e => e.tt.overruns = satInc b.tt.overruns ∧ e.tt.err.toNat.testBit 0 = true ∧
         e.step? no = some { t with budgetEnd := none } ∧ b.frame e [.tt, .ic, .lh, .sn])) ∧
     ∀ n < 4, Does (.coreWatchdog dt n) dt (fun b => b.up = true)
       (fun b e => vget 0 e.sn.restarts n = satInc (vget 0 b.sn.restarts n) ∧ b.frame e [.sn])) ∧
  ((∀ dt p (k : Kernel) a, Does (.kernelPlace dt p) dt
     (fun b => b.awake = true ∧ b.nextPlacement p = some (k, a))
     (fun b e => e = (if (b.stage k.step).tt.waiting.any (fun x => x.step == k.step) then (b.stage k.step).place k a else b.stage k.step).schedule)) ∧
   ∀ (b : Chip) p (k : Kernel) a, b.nextPlacement p = some (k, a) →
     k ∈ b.tt.waiting ∧ k.part % 8 = p ∧ (b.partArrays k.part).toNat.testBit a = true ∧ b.arrayRetired a = false ∧ b.takesKernel k.be a = true ∧
       (k.be = true → b.resident k.ctx = true) ∧ ∀ x ∈ b.openArrays k.part, b.takesKernel k.be x = true → a ≤ x) ∧
  (∀ (dt : When) n x, n < 16 → x < 256 →
     (dt.fails = [] →
       Does (.swapOutDone dt n) dt (fun b => b.awake = true ∧ (b.berth n).xfer = 1 ∧ (b.shareOut n x).transferee n .swapOut = some x)
         (fun b e => (e.ctx x).st ≠ .swapOut ∧ (e.berth n).xfer ≠ 1 ∧ e.dram = (b.shareOut n x).dram) ∧
       Does (.swapOutDone dt n) dt
         (fun b => b.awake = true ∧ (b.berth n).xfer = 1 ∧ (b.berth n).occ = some x ∧ (b.ctx x).st ≠ .swapOut)
         (fun b e => (e.berth n).xfer ≠ 1 ∧ e.dram = (b.shareOut n x).dram ∧ e.basin = ((b.shareOut n x).zeroShare n).basin ∧
           e.sram = ((b.shareOut n x).zeroShare n).sram)) ∧
     Does (.swapInDone dt n) dt (fun b => b.awake = true ∧ (b.berth n).xfer = 2 ∧ b.transferee n .swapIn = some x ∧ (b.ctx x).fresh = true)
       (fun b e => (e.ctx x).residentAt = b.clk.ref ∧ (e.ctx x).progressed = false ∧ (e.ctx x).fresh = false ∧
         (e.ctx x).berth = some n ∧ e.tt.swaps = satInc b.tt.swaps ∧ e.basin = (b.zeroShare n).basin ∧ e.sram = (b.zeroShare n).sram) ∧
     Does (.swapInDone dt n) dt
       (fun b => b.awake = true ∧ (b.berth n).xfer = 2 ∧ (b.berth n).occ = some x ∧ (b.ctx x).fresh = false ∧
         (b.shareIn n x).transferee n .swapIn = some x)
       (fun b e => (e.ctx x).residentAt = b.clk.ref ∧ (e.ctx x).progressed = false ∧ (e.ctx x).berth = some n ∧
         e.tt.swaps = satInc b.tt.swaps ∧ e.basin = (b.shareIn n x).basin ∧ e.sram = (b.shareIn n x).sram) ∧
     Does (.quantumExpiry dt x) dt (fun b => b.quantumDue x = true) (fun _ e => (e.ctx x).quantum = true) ∧
     Does (.swapInHoldExpiry dt x) dt (fun b => b.holdDue x = true) (fun _ e => (e.ctx x).progressed = true))

/-! ### Frame generation -/

/-- A frame step whose inputs are signalled binds its nine objects, on a replay the ones it had, and its list becomes eligible (R224
to R226, R229, R235); one whose unpack read fails is replayed (R333, R514). A LIVE instant that its gate ends, or that misses its
presentation, is written as a repeat of the slot last written, black where the mode has written none since its cold start: the instant
counts as written, FG_REP_INPUT or FG_REP_DEADLINE counts it, and FG_ERR_STATUS says which (R230 to R232, R245, R250). A degraded
stream's instant that is no anchor has cause 1 at the gate too (R318). A pack ends (R244): it leaves the list, its pixels are counted
and the output object of its stream and mode is signalled. One whose read of the staging buffer failed leaves the list and counts none
(R333; log 124, the model's reading). -/
def Obligations.FrameStepsBindAndPack : Prop :=
  (∀ dt no (t : Step) s settled j,
     Does (.fgInputsReady dt no []) dt
       (fun b => b.awake = true ∧ b.step? no = some t ∧ t.subj = .frame s settled j ∧ b.canBind t = true ∧ (t.binds = [] ∨ t.binds.length = 9))
       (fun b e => (∃ u, e.step? no = some u ∧ u.binds.length = 9 ∧ (t.binds ≠ [] → u.binds = t.binds) ∧ u.phase = .running ∧ u.runs = t.runs) ∧
         e.qy = b.qy ∧ e.clk = b.clk ∧ e.tt.stepNo = b.tt.stepNo) ∧
     ∀ a, Does (.fgInputsReady dt no [.word a false]) dt
       (fun b => b.awake = true ∧ b.step? no = some t ∧ t.subj = .frame s settled j ∧ b.canBind t = true ∧ t.runs < 3)
       (fun _ e => e.step? no = some { t with replay := some { code := 0, addr := a, basin := true } })) ∧
  (∀ dt s (d : StreamDecl) j (ref : Nat × Nat), s < 256 → d.idx = s →
     Does (.liveGate dt s) dt
       (fun b => b.awake = true ∧ b.str.stream s = some d ∧ b.streamAlive d = true ∧ b.gated d = some (j, ref) ∧
         (b.repeatSource d false).2.isSome = true ∧ ((b.repeatSource d false).1.openSlot d false j noStep).2 = true ∧
         (b.degraded s = false ∨ d.anchor (b.fgHdr d) ref.1 j = true ∨ (b.mode s false).src = none))
       (fun b e => (e.fgs s).live.written j = true ∧ (e.fgs s).repInput = satInc (b.fgs s).repInput ∧
         (e.fgs s).repDeadline = (b.fgs s).repDeadline ∧ e.fg.err.toNat.testBit 1 = true) ∧
     Does (.liveGate dt s) dt
       (fun b => b.awake = true ∧ b.str.stream s = some d ∧ b.streamAlive d = true ∧ b.gated d = some (j, ref) ∧
         (b.repeatSource d false).2.isSome = true ∧ ((b.repeatSource d false).1.openSlot d false j noStep).2 = true ∧
         b.degraded s = true ∧ d.anchor (b.fgHdr d) ref.1 j = false ∧ (b.mode s false).src.isSome = true)
       (fun b e => (e.fgs s).live.written j = true ∧ (e.fgs s).repDeadline = satInc (b.fgs s).repDeadline ∧
         (e.fgs s).repInput = (b.fgs s).repInput ∧ e.fg.err.toNat.testBit 0 = true) ∧
     Does (.liveDeadlineMiss dt s) dt
       (fun b => b.awake = true ∧ b.str.stream s = some d ∧ b.streamAlive d = true ∧ b.missed d = some (j, ref) ∧
         (b.repeatSource d false).2.isSome = true ∧ ((b.repeatSource d false).1.openSlot d false j noStep).2 = true)
       (fun b e => (e.fgs s).live.written j = true ∧
         ((b.mode s false).src.isSome = true → (e.fgs s).repDeadline = satInc (b.fgs s).repDeadline ∧
           (e.fgs s).repInput = (b.fgs s).repInput ∧ e.fg.err.toNat.testBit 0 = true) ∧
         ((b.mode s false).src = none → (e.fgs s).repInput = satInc (b.fgs s).repInput ∧
           (e.fgs s).repDeadline = (b.fgs s).repDeadline ∧ e.fg.err.toNat.testBit 1 = true))) ∧
  (∀ (dt : When) no (p : Pack) (d : StreamDecl),
     (dt.fails = [] → Does (.packDone dt no) dt
       (fun b => b.awake = true ∧ b.packOf no = some (p, d) ∧ (b.openSlot d p.settled p.j p.step).2 = true)
       (fun b e => (∀ x ∈ e.fg.packs, x.step ≠ no) ∧ e.fg.px = b.fg.px + d.slotGeo.wo * d.slotGeo.ho ∧
         ∀ x, b.obj ((if p.settled then 1024 else 768) + d.idx) = some x → x.signaller = 4 →
           e.obj ((if p.settled then 1024 else 768) + d.idx) = some { x with value := x.value + 1 })) ∧
     ∀ a, dt.fails = [.word a false] → Does (.packDone dt no) dt (fun b => b.awake = true ∧ b.packOf no = some (p, d))
       (fun b e => (∀ x ∈ e.fg.packs, x.step ≠ no) ∧ e.fg.px = b.fg.px))

/-! ### Serving -/

/-- The head of the admission queue (R263): it takes a free entry, in PREFILL where it names no clip, when its context has room and
the pool can reserve its blocks, the lowest that no sequence has reserved (log 130, the model's reading); otherwise it waits and
nothing overtakes it, SV_ERR_STATUS[3] saying that it waits for blocks. One that names clips takes their frames and enters VISION
where there are any; a clip that cannot be resolved ends it (R264, R265). Serving steps (R256, R265, R271, R272): a batch step of the
segments that the budget allows, never more rows than it; sequences get the KV blocks that their new positions reach where the block
table takes the writes, and none change where no new block is needed; a vision step of the earliest sequence in VISION, or where its
entry has been overwritten the end of its query with CLIP. -/
def Obligations.ServingStepsIssue : Prop :=
  (∀ dt (q : Query) rest (h : SvHdr),
     Does (.queryAdmitHead dt) dt
       (fun b => b.awake = true ∧ b.sv.queue = q :: rest ∧ b.svHdr q.ctx = some h ∧ b.sv.seqs.length < 1024 ∧
         (b.ctxSeqs q.ctx).length < h.slots ∧ reserveOf h q ≤ b.poolFree h ∧ ∀ t ∈ q.tokens, t < 0xFFFFFF00)
       (fun b e => e.sv.queue = rest ∧ (∃ s, e.sv.seqs = b.sv.seqs ++ [s] ∧ s.q = q ∧ s.st = .prefill ∧ s.reserved = reserveOf h q ∧
           s.spare = b.reserveBlocks h q ∧ s.blocks = [] ∧ s.entry < 1024 ∧ ∀ t ∈ b.sv.seqs, t.entry ≠ s.entry) ∧ b.frame e [.sv]) ∧
     (∀ fs, Does (.queryAdmitHead dt) dt
       (fun b => b.awake = true ∧ b.sv.queue = q :: rest ∧ b.svHdr q.ctx = some h ∧ b.sv.seqs.length < 1024 ∧
         (b.ctxSeqs q.ctx).length < h.slots ∧ reserveOf h q ≤ b.poolFree h ∧ (∃ t ∈ q.tokens, 0xFFFFFF00 ≤ t) ∧
         (b.resolveClips q.ctx h q).2 = some (.ok fs))
       (fun b e => e.sv.queue = (b.resolveClips q.ctx h q).1.sv.queue.drop 1 ∧
         ∃ s ∈ e.sv.seqs, s.q = q ∧ s.frames = fs ∧ s.st = if fs = [] then .prefill else .vision)) ∧
     (∀ detail, Does (.queryAdmitHead dt) dt
       (fun b => b.awake = true ∧ b.sv.queue = q :: rest ∧ b.svHdr q.ctx = some h ∧ b.sv.seqs.length < 1024 ∧
         (b.ctxSeqs q.ctx).length < h.slots ∧ reserveOf h q ≤ b.poolFree h ∧ (∃ t ∈ q.tokens, 0xFFFFFF00 ≤ t) ∧
         (b.resolveClips q.ctx h q).2 = some (.error detail))
       (fun b e => e.sv.queue = (b.resolveClips q.ctx h q).1.sv.queue.drop 1 ∧ e.sv.seqs = (b.resolveClips q.ctx h q).1.sv.seqs ∧
         e.pl.tokNext = (b.resolveClips q.ctx h q).1.pl.tokNext + 1 ∧ e.sv.err.toNat.testBit 1 = true)) ∧
     Does (.queryAdmitHead dt) dt
       (fun b => b.awake = true ∧ b.sv.queue = q :: rest ∧ b.svHdr q.ctx = some h ∧
         (1024 ≤ b.sv.seqs.length ∨ h.slots ≤ (b.ctxSeqs q.ctx).length))
       (fun b e => e = b) ∧
     Does (.queryAdmitHead dt) dt
       (fun b => b.awake = true ∧ b.sv.queue = q :: rest ∧ b.svHdr q.ctx = some h ∧ b.sv.seqs.length < 1024 ∧
         (b.ctxSeqs q.ctx).length < h.slots ∧ b.poolFree h < reserveOf h q)
       (fun b e => e.sv = { b.sv with err := setBit b.sv.err 3 } ∧ b.frame e [.sv, .ic, .lh, .sn])) ∧
  (∀ dt x (h : SvHdr),
     Does (.batchStepAssemble dt x) dt
       (fun b => b.awake = true ∧ b.canBatch x = true ∧ b.svHdr x = some h ∧ ∀ g ∈ (b.assemble x h).1, ∀ s ∈ b.sv.seqs, s.entry = g.seq →
         ceilDiv (g.p0 + g.rows) 256 ≤ s.blocks.length)
       (fun b e => e.tt.stepNo = b.tt.stepNo + 1 ∧ e.sv.seqs = b.sv.seqs ∧
         ∃ s ∈ e.tt.steps, s.no = b.tt.stepNo ∧ s.ctx = x ∧ s.subj = .batch b.sv.steps ∧ s.segs = (b.assemble x h).1) ∧
     Does (.batchStepAssemble dt x) dt
       (fun b => b.awake = true ∧ b.canBatch x = true ∧ b.svHdr x = some h ∧ (∀ g ∈ (b.assemble x h).1, g.p0 + g.rows ≤ 32768) ∧
         ∀ s ∈ b.sv.seqs, ∀ l < h.layers, ∀ k < h.hkv, ∀ t < 128, b.refusal (.ctx x) true ((b.svEnv h []).tableAt s.slot l k + 16 * t) 16 = none)
       (fun b e => e.tt.stepNo = b.tt.stepNo + 1 ∧ e.sv.seqs.map (·.entry) = b.sv.seqs.map (·.entry) ∧
         (∀ g ∈ (b.assemble x h).1, ∃ s, e.sv.seqs.find? (fun s => s.entry == g.seq) = some s ∧ ceilDiv (g.p0 + g.rows) 256 ≤ s.blocks.length) ∧
         ∃ s ∈ e.tt.steps, s.no = b.tt.stepNo ∧ s.ctx = x ∧ s.subj = .batch b.sv.steps ∧ s.segs = (b.assemble x h).1) ∧
     (∀ (b : Chip), ((b.assemble x h).1.map (·.rows)).sum ≤ min b.sv.budget.toNat h.rcap) ∧
     ∀ (s : Seq) (f : ClipFrame),
       Does (.visionStep dt x) dt
         (fun b => b.awake = true ∧ b.canVision x = true ∧ b.visionSeq x = some s ∧ s.frames[s.vdone]? = some f ∧
           (b.frameStands x b.tt.stepNo f).2 = some true)
         (fun b e => e.tt.stepNo = b.tt.stepNo + 1 ∧ e.sv.seqs = (b.frameStands x b.tt.stepNo f).1.sv.seqs ∧
           ∃ t ∈ e.tt.steps, t.no = b.tt.stepNo ∧ t.ctx = x ∧ t.subj = .vision s.q.id s.vdone) ∧
       Does (.visionStep dt x) dt
         (fun b => b.awake = true ∧ b.canVision x = true ∧ b.visionSeq x = some s ∧ s.frames[s.vdone]? = some f ∧
           (b.frameStands x b.tt.stepNo f).2 = some false)
         (fun b e => (∀ t ∈ e.sv.seqs, t.entry ≠ s.entry) ∧ e.pl.tokNext = (b.frameStands x b.tt.stepNo f).1.pl.tokNext + 1 ∧
           e.sv.err.toNat.testBit 1 = true ∧ e.tt = (b.frameStands x b.tt.stepNo f).1.tt))

/-! ### The memory controller -/

/-- Patrol scrubs (R335, R355): a corrected Basin word is counted at its bank, one that fails sets BS_ERR_STATUS[2] and the error
registers; a scrubbed DRAM slot without an error moves the patrol on, a full pass being counted. Training and low power of a channel
(R341, R351, R354): a drift of at most 1/16 UI does nothing; a greater one retrains and counts, and the third retraining in a row to
fail loses the channel; the refresh field read is kept; power-down, self-refresh and their exit set the state. -/
def Obligations.MemoryIsMaintained : Prop :=
  (∀ dt,
     Does (.basinScrub dt []) dt (fun b => b.awake = true) (fun b e => e = b) ∧
     (∀ addr, addr < 2 ^ 29 →
       Does (.basinScrub dt [⟨addr, true⟩]) dt (fun b => b.awake = true ∧ b.bankOn (addr / 2 ^ 24) = true)
         (fun b e => (vget {} e.bs.bank (addr / 2 ^ 24)).corr = satInc (vget {} b.bs.bank (addr / 2 ^ 24)).corr ∧
           e.bs.err = setBit b.bs.err 0 ∧ e.basin = b.basin ∧ b.frame e [.bs, .ic, .lh, .sn]) ∧
       Does (.basinScrub dt [⟨addr, false⟩]) dt (fun b => b.awake = true ∧ b.bankOn (addr / 2 ^ 24) = true)
         (fun b e => e.bs.errAddr = addr / 8 * 8 ∧ e.bs.errStep = noStep ∧ e.bs.err = setBit b.bs.err 2 ∧
           b.frame e [.bs, .ic, .lh, .sn])) ∧
     ∀ n slot, n < 16 → Does (.dramScrub dt n slot []) dt (fun b => b.chanOn n = true ∧ (b.chan n).scrubSlot = slot)
       (fun b e => (slot + 1 < regionSlots → (e.chan n).scrubSlot = slot + 1 ∧ (e.chan n).scrubPasses = (b.chan n).scrubPasses) ∧
         (regionSlots ≤ slot + 1 → (e.chan n).scrubSlot = 0 ∧ (e.chan n).scrubPasses = min 65535 ((b.chan n).scrubPasses + 1)) ∧
         (∀ k, k ≠ n → e.chan k = b.chan k) ∧ b.frame e [.mc])) ∧
  (∀ dt n, n < 16 →
     (∀ drift ok, drift ≤ 4 → Does (.dqsCheck dt n drift ok) dt (fun b => b.chanOn n = true) (fun b e => e = b)) ∧
     (∀ drift, 4 < drift → Does (.dqsCheck dt n drift true) dt (fun b => b.chanOn n = true)
       (fun b e => e.chan n = { b.chan n with retrains := satInc (b.chan n).retrains, retrainFails := 0 } ∧
         e.mc.err.toNat.testBit 7 = true ∧ b.frame e [.mc, .ic, .lh, .sn])) ∧
     (∀ drift, 4 < drift → Does (.dqsCheck dt n drift false) dt (fun b => b.chanOn n = true)
       (fun b e => (e.chan n).retrains = satInc (b.chan n).retrains ∧ e.mc.err.toNat.testBit 7 = true ∧
         ((e.chan n).lost = true ↔ 2 ≤ (b.chan n).retrainFails) ∧ ((e.chan n).lost = true → (e.chan n).cause = 3))) ∧
     (∀ r, Does (.mr4Poll dt n r) dt (fun b => b.chanOn n = true)
       (fun b e => e.chan n = { b.chan n with refRate := r } ∧ (∀ k, k ≠ n → e.chan k = b.chan k) ∧ b.frame e [.mc])) ∧
     ∀ r ∈ [(Instr.channelPowerDown dt n, ChPower.powerDown, fun b : Chip => b.canPowerDown n),
         (.channelSelfRefresh dt n, .selfRefresh, fun b => b.canSelfRefresh n), (.lowPowerExit dt n, .active, fun b => b.canExit n)],
       Does r.1 dt (fun b => r.2.2 b = true)
         (fun b e => e.chan n = { b.chan n with power := r.2.1 } ∧ (∀ k, k ≠ n → e.chan k = b.chan k) ∧ b.frame e [.mc]))

/-! ### Scan-out -/

/-- Of the complete slots of its ring that it can read, a window shows one that no later presentation at or before the time surpasses
(R395). Vertical blanking (R395, R403): the frame that was sent is counted, with the pixels of it that were due before their source
bytes, and every window of the output has chosen its slot; a torn check compares the slot's j with the choice (R396), and says nothing
of a window that shows no slot or whose slot cannot be read (log 133, the model's choice). -/
def Obligations.OutputsShowTheLatestSlot : Prop :=
  (∀ (c : Chip) (d : StreamDecl) settled addrs ta j a, c.chooseSlot d settled addrs ta = some (j, a) →
     a ∈ addrs ∧ ∃ pres, c.slotHead d settled a = some (j, pres) ∧ pres ≤ ta ∧
       ∀ x ∈ addrs, ∀ i p, c.slotHead d settled x = some (i, p) → p ≤ ta → p ≤ pres) ∧
  (∀ dt n (o : OutputDecl),
     (∀ late, Does (.vblankStart dt n late) dt (fun b => b.vblankDue n = true ∧ b.str.output n = some o)
       (fun b e => (e.out n).vbAt = some b.clk.ref ∧ (e.out n).st = .active ∧ (e.out n).lines = [] ∧
         ((b.out n).frame = none → (e.out n).frames = (b.out n).frames ∧ (e.out n).underPx = (b.out n).underPx) ∧
         (∀ f, (b.out n).frame = some f → (e.out n).frames = satInc (b.out n).frames ∧
           ∀ under, under = (((b.out n).lines.zipIdx.map (fun l => f.underrun (late ++ (b.out n).late) l.2 (l.1.map (fun p => (p, false))))).map
               (fun l => l.countP (·.2))).sum →
             (e.out n).underPx = (if under = 0 then (b.out n).underPx else satAdd (b.out n).underPx under) ∧
             (e.out n).underFrames = (if under = 0 then (b.out n).underFrames else satInc (b.out n).underFrames) ∧
             (under ≠ 0 → (e.out n).evt.toNat.testBit 0 = true)) ∧
         ∀ w ∈ b.str.windows, w.output = n → w.id < 64 → (e.win w.id).valid = true ∧ (e.win w.id).output = n)) ∧
     ∀ w, w < 64 →
       (∀ j, dt.errs = [] →
         Does (.tornCheck dt w) dt
           (fun b => b.awake = true ∧ (b.win w).valid = true ∧ (b.out (b.win w).output).st = .active ∧ (b.win w).inst = some j ∧
             leNat (b.dramRead (b.win w).addr 8) = j)
           (fun b e => e.win w = { b.win w with torn := false } ∧ b.frame e [.so, .mc]) ∧
         Does (.tornCheck dt w) dt
           (fun b => b.awake = true ∧ (b.win w).valid = true ∧ (b.win w).output < 4 ∧ (b.out (b.win w).output).st = .active ∧
             (b.win w).inst = some j ∧ leNat (b.dramRead (b.win w).addr 8) ≠ j)
           (fun b e => e.win w = { b.win w with torn := true } ∧
             (e.out (b.win w).output).torn = satInc (b.out (b.win w).output).torn ∧ (e.out (b.win w).output).evt.toNat.testBit 2 = true ∧
             b.frame e [.so, .mc, .ic, .lh, .sn])) ∧
       Does (.tornCheck dt w) dt
         (fun b => b.awake = true ∧ (b.win w).valid = true ∧ (b.out (b.win w).output).st = .active ∧
           ((b.win w).inst = none ∨ (b.scanRead (b.win w).addr 8).2 = none))
         (fun b e => e = if (b.win w).inst = none then b else (b.scanRead (b.win w).addr 8).1))

/-- Links of the outputs (R390, R391): HPD starts training where the output waits or has failed; unplugging returns it to wait unless
it is off; a short pulse with lost lock trains again and without does nothing; training that succeeds gives ACTIVE at the combination
tried, one that fails tries the next, and FAILED after the last. -/
def Obligations.OutputsTrain : Prop :=
  ∀ dt n, n < 4 →
    Does (.hpdAsserted dt n) dt (fun b => b.outputOn n = true ∧ (b.out n).hpd = false)
      (fun b e => (e.out n).hpd = true ∧ (e.out n).evt.toNat.testBit 1 = true ∧
        ((b.out n).st = .waitHpd ∨ (b.out n).st = .failed → (e.out n).st = .training ∨ (e.out n).st = .failed) ∧
        ((b.out n).st ≠ .waitHpd → (b.out n).st ≠ .failed → (e.out n).st = (b.out n).st) ∧ (∀ k, k ≠ n → e.out k = b.out k) ∧
        b.frame e [.so, .ic, .lh, .sn]) ∧
    Does (.hpdUnplug dt n) dt (fun b => b.outputOn n = true ∧ (b.out n).hpd = true)
      (fun b e => (e.out n).hpd = false ∧ (e.out n).st = (if (b.out n).st = .off then .off else .waitHpd) ∧
        (∀ k, k ≠ n → e.out k = b.out k) ∧ b.frame e [.so, .ic, .lh, .sn]) ∧
    Does (.irqHpd dt n false) dt (fun b => b.outputOn n = true ∧ (b.out n).st = .active) (fun b e => e = b) ∧
    Does (.irqHpd dt n true) dt (fun b => b.outputOn n = true ∧ (b.out n).st = .active)
      (fun b e => ((e.out n).st = .training ∨ (e.out n).st = .failed) ∧ (e.out n).evt.toNat.testBit 4 = true ∧
        b.frame e [.so, .ic, .lh, .sn]) ∧
    Does (.linkTrainingDone dt n true) dt (fun b => b.outputOn n = true ∧ (b.out n).st = .training)
      (fun b e => e.out n = { b.out n with st := .active, lanes := (b.out n).tryLanes, rate := (b.out n).tryRate } ∧ b.frame e [.so]) ∧
    Does (.linkTrainingDone dt n false) dt (fun b => b.outputOn n = true ∧ (b.out n).st = .training)
      (fun b e => ((e.out n).st = .training ∧ (∃ d, b.str.output n = some d ∧ ((e.out n).tryLanes, (e.out n).tryRate) ∈ d.combos) ∨
        (e.out n).st = .failed ∧ (e.out n).evt.toNat.testBit 3 = true) ∧ b.frame e [.so, .ic, .lh, .sn])

/-! ### Peers -/

/-- The heartbeat timer (R425): an interval in which a peer was heard clears the mark; a present peer not heard counts an interval,
and the third departs it and sets PL_ERR_STATUS[2]. A heartbeat received makes its sender present. A PWP frame of another version, of
an unknown type or of no enabled peer is dropped, counted and sets PL_ERR_STATUS[1] (R426). -/
def Obligations.HeartbeatsKeepPeers : Prop :=
  (∀ dt,
     Does (.heartbeatTimer dt) dt (fun b => b.awake = true ∧ b.clk.dev % 10000000 = 0 ∧ b.pl.beatAt ≠ some b.clk.ref)
       (fun b e => b.tx <+: e.tx ∧
         e.tx.length = b.tx.length + ((List.range 255).filter (fun i => b.peerEnabled i)).length ∧
         ∀ i < 255,
           ((b.peerEnabled i = true ∨ (b.peer i).present = true) → (b.peer i).heard = true →
             e.peer i = { b.peer i with heard := false }) ∧
           ((b.peer i).present = true → (b.peer i).heard = false → (b.peer i).missed < 2 →
             e.peer i = { b.peer i with missed := (b.peer i).missed + 1 }) ∧
           ((b.peer i).present = true → (b.peer i).heard = false → 2 ≤ (b.peer i).missed →
             (e.peer i).present = false ∧ e.pl.err.toNat.testBit 2 = true)) ∧
     ∀ (f : PwpFrame) i, Does (.pwpHeartbeat dt f) dt
       (fun b => b.awake = true ∧ (b.ingress f.rx).2 = some .pwp ∧ f.version = 1 ∧ f.type = 0 ∧ b.peerOf f.rx.src = some i)
       (fun b e => e.peer i = { b.peer i with present := true, heard := true, missed := 0 } ∧ (∀ k, k ≠ i → e.peer k = b.peer k) ∧
         b.frame e [.qy, .pl])) ∧
  (∀ dt (f : PwpFrame), ∀ i ∈ [Instr.pwpHeartbeat dt f, .pwpRead dt f [], .pwpReadData dt f, .pwpSignal dt f, .pwpSignalAck dt f],
     Does i dt (fun b => b.awake = true ∧ (b.ingress f.rx).2 = some .pwp ∧ (f.version ≠ 1 ∨ 4 < f.type.toNat))
       (fun b e => e.pl = { b.pl with pwpDrops := satInc b.pl.pwpDrops, err := setBit b.pl.err 1 } ∧ b.frame e [.qy, .pl, .ic, .lh, .sn]))

/-- A peer's read of a published window (R428): one that the window refuses is answered with its status and no data; one inside it by
the bytes in pieces of at most 8 KiB. No memory changes. A peer's signal (R365, R430): an allowed one adds its amount once per tag,
other objects keeping their values, and is acknowledged; the same tag again changes nothing but is acknowledged; a refused one is
counted and answered with status 3. -/
def Obligations.PeersAreServed : Prop :=
  (∀ dt (f : PwpFrame) i,
     (∀ s errs, Does (.pwpRead dt f errs) dt
       (fun b => b.awake = true ∧ (b.ingress f.rx).2 = some .pwp ∧ f.version = 1 ∧ f.type = 1 ∧ b.peerOf f.rx.src = some i ∧
         b.windowRead i f = .inr s)
       (fun b e => (∃ t, e.tx = b.tx ++ [t] ∧ t.bytes = pwpBytes 2 s f.tag 0 0 0 0 []) ∧ e.pl.err.toNat.testBit 4 = true ∧
         b.frame e [.qy, .pl, .ic, .lh, .sn, .tx])) ∧
     ∀ a, Does (.pwpRead dt f []) dt
       (fun b => b.awake = true ∧ (b.ingress f.rx).2 = some .pwp ∧ f.version = 1 ∧ f.type = 1 ∧ b.peerOf f.rx.src = some i ∧
         b.windowRead i f = .inl a ∧ b.refusal .host false a f.length.toNat = none)
       (fun b e => b.tx <+: e.tx ∧ e.tx.length = b.tx.length + ceilDiv f.length.toNat 8192 ∧ b.frame e [.qy, .mc, .tx])) ∧
  (∀ dt (f : PwpFrame) i, i < 255 →
     Does (.pwpSignal dt f) dt
       (fun b => b.awake = true ∧ (b.ingress f.rx).2 = some .pwp ∧ f.version = 1 ∧ f.type = 3 ∧ b.peerOf f.rx.src = some i ∧
         (∀ p ∈ (b.peer i).applied, p.1 ≠ f.tag) ∧ ∃ x, b.obj f.target.toNat = some x ∧ (x.signaller = 6 ∨ x.peer = true))
       (fun b e => (∀ x, b.obj f.target.toNat = some x → e.obj f.target.toNat = some { x with value := x.value + f.value }) ∧
         (∀ o, o ≠ f.target.toNat → e.obj o = b.obj o) ∧ (∃ p ∈ (e.peer i).applied, p.1 = f.tag) ∧
         ∃ t, e.tx = b.tx ++ [t] ∧ t.bytes = pwpBytes 4 0 f.tag 0 0 0 0 []) ∧
     Does (.pwpSignal dt f) dt
       (fun b => b.awake = true ∧ (b.ingress f.rx).2 = some .pwp ∧ f.version = 1 ∧ f.type = 3 ∧ b.peerOf f.rx.src = some i ∧
         ∃ p ∈ (b.peer i).applied, p.1 = f.tag)
       (fun b e => e.tx.length = b.tx.length + 1 ∧ b.frame e [.qy, .tx]) ∧
     Does (.pwpSignal dt f) dt
       (fun b => b.awake = true ∧ (b.ingress f.rx).2 = some .pwp ∧ f.version = 1 ∧ f.type = 3 ∧ b.peerOf f.rx.src = some i ∧
         (∀ p ∈ (b.peer i).applied, p.1 ≠ f.tag) ∧ ∀ x, b.obj f.target.toNat = some x → x.signaller ≠ 6 ∧ x.peer = false)
       (fun b e => e.sy = { b.sy with refused := satInc b.sy.refused, err := setBit b.sy.err 1 } ∧ e.pl.err.toNat.testBit 4 = true ∧
         ∃ t, e.tx = b.tx ++ [t] ∧ t.bytes = pwpBytes 4 3 f.tag 0 0 0 0 []))

/-- A request to a peer ends (R429, R430): with its data, or its acknowledgement, in time it is no longer outstanding; with an error
status or out of time its context faults with code 0x09 as well. At half its time it is sent once more. -/
def Obligations.PeerRequestsEnd : Prop :=
  ∀ dt (r : PeerReq),
    (∀ (f : PwpFrame),
      Does (.pwpReadData dt f) dt
        (fun b => b.awake = true ∧ (b.ingress f.rx).2 = some .pwp ∧ f.version = 1 ∧ f.type = 2 ∧ b.peerOf f.rx.src = some r.peer ∧
          b.req? f.tag = some r ∧ r.isSignal = false ∧ f.status = 0 ∧ b.clk.ref ≤ r.sentAt + b.reqTimeoutNs ∧ r.pieces = [] ∧
          f.length = 0 ∧ f.piece.toNat = r.length ∧ f.data.length = r.length ∧ r.length ≠ 0)
        (fun b e => (∀ x ∈ e.pl.reqs ++ e.pl.waitReqs, x.id ≠ r.id) ∧ e.pl.reqFails = b.pl.reqFails) ∧
      Does (.pwpReadData dt f) dt
        (fun b => b.awake = true ∧ (b.ingress f.rx).2 = some .pwp ∧ f.version = 1 ∧ f.type = 2 ∧ b.peerOf f.rx.src = some r.peer ∧
          b.req? f.tag = some r ∧ r.isSignal = false ∧ f.status ≠ 0)
        (fun b e => b.faults e r.ctx 9 ∧ (∀ x ∈ e.pl.reqs ++ e.pl.waitReqs, x.id ≠ r.id) ∧ e.pl.reqFails = satInc b.pl.reqFails) ∧
      Does (.pwpSignalAck dt f) dt
        (fun b => b.awake = true ∧ (b.ingress f.rx).2 = some .pwp ∧ f.version = 1 ∧ f.type = 4 ∧ b.peerOf f.rx.src = some r.peer ∧
          b.req? f.tag = some r ∧ r.isSignal = true ∧ f.status = 0 ∧ b.clk.ref ≤ r.sentAt + b.reqTimeoutNs)
        (fun b e => (∀ x ∈ e.pl.reqs ++ e.pl.waitReqs, x.id ≠ r.id) ∧ b.frame e [.qy, .pl, .tx]) ∧
      Does (.pwpSignalAck dt f) dt
        (fun b => b.awake = true ∧ (b.ingress f.rx).2 = some .pwp ∧ f.version = 1 ∧ f.type = 4 ∧ b.peerOf f.rx.src = some r.peer ∧
          b.req? f.tag = some r ∧ r.isSignal = true ∧ f.status ≠ 0 ∧ b.clk.ref ≤ r.sentAt + b.reqTimeoutNs)
        (fun b e => b.faults e r.ctx 9 ∧ ∀ x ∈ e.pl.reqs ++ e.pl.waitReqs, x.id ≠ r.id)) ∧
    ∀ tag,
      Does (.peerReqTimeout dt tag) dt (fun b => b.awake = true ∧ b.req? tag = some r ∧ r.sentAt + b.reqTimeoutNs ≤ b.clk.ref)
        (fun b e => b.faults e r.ctx 9 ∧ (∀ x ∈ e.pl.reqs ++ e.pl.waitReqs, x.id ≠ r.id) ∧ e.pl.reqFails = satInc b.pl.reqFails) ∧
      Does (.peerReqResend dt tag) dt
        (fun b => b.awake = true ∧ b.req? tag = some r ∧ r.resent = false ∧ r.sentAt + b.reqTimeoutNs / 2 ≤ b.clk.ref)
        (fun b e => e.tx.length = b.tx.length + 1 ∧ (∀ x ∈ e.pl.reqs, x.tag = tag → x.resent = true) ∧
          e.pl.reqs.length = b.pl.reqs.length ∧ b.frame e [.pl, .tx])

/-! ### The Harbourmaster and the ledger -/

/-- BOOT (R436, R441, R442): an image that passes every check runs with its version and hash; one that does not gives a network boot
with the first failing check in HM_BOOT_STATUS and NETBOOT set; a blank identity seed is burned where the source passes; channels
whose training succeeds are trained. The identity key is then derived (R438). -/
def Obligations.TheBootRomStartsFirmware : Prop :=
  ∀ dt ctrlErr ts,
    DoesState (.boot dt ctrlErr ts) dt
      (fun b => b.chip.up = true ∧ b.chip.hm.stage = .rom ∧ bootCheck b.fuses b.flash ctrlErr = none)
      (fun b e => e.chip.hm.stage = .running ∧ e.chip.hm.fwVersion = BitVec.ofNat 32 (fieldAt b.flash.image 4 4) ∧
        e.chip.hm.fwHash = sha256 b.flash.image ∧ e.chip.hm.netboot = b.chip.hm.netboot ∧ e.chip.hm.bootStatus = b.chip.hm.bootStatus ∧
        e.chip.hm.err = b.chip.hm.err ∧ e.flash = b.flash) ∧
    (∀ cause, DoesState (.boot dt ctrlErr ts) dt
      (fun b => b.chip.up = true ∧ b.chip.hm.stage = .rom ∧ bootCheck b.fuses b.flash ctrlErr = some cause)
      (fun b e => e.chip.hm.stage = .network ∧ e.chip.hm.netboot = true ∧ e.chip.hm.bootStatus.toNat % 8 = cause ∧
        e.chip.hm.err = setBit b.chip.hm.err 0 ∧ e.flash = b.flash)) ∧
    DoesState (.boot dt ctrlErr []) dt (fun b => b.chip.up = true ∧ b.chip.hm.stage = .rom)
      (fun b e => e.fuses = (if b.chip.hm.rngOk = true ∧ b.fuses.idSeed = none
          then { b.fuses with idSeed := some (hashOf (b.chip.draw 32).1) } else b.fuses) ∧
        ∀ n < b.chip.id.grade.channels, (b.chip.chan n).lost = false →
          (e.chip.chan n).trained = true ∧ (e.chip.chan n).power = .active) ∧
    Does (.idKeyReady dt) dt
      (fun b => b.up = true ∧ b.hm.stage ≠ .rom ∧ b.id.idSeed.isSome = true ∧ b.hm.idReady = false)
      (fun b e => e = b.updHm (fun h => { h with idReady := true }))

/-- A live update (R447 to R449): an image that fails a check ends the update with HM_ERR_STATUS[1]; in a network boot a good one
starts at once; else its code is copied. A verified rewrite puts the image in flash and burns the rollback epoch up to its own, never
down; one that is not verified burns nothing. -/
def Obligations.UpdatesReachTheFlash : Prop :=
  ∀ dt,
    (∀ k, DoesState (.fwVerificationEnd dt) dt
      (fun b => b.chip.fwVerifying = true ∧
        fwCheck b.fuses.rootHash b.fuses.epoch (b.chip.staged (min b.chip.hm.updLen fwMax)) b.chip.hm.updLen = some k)
      (fun b e => e.chip.hm = { b.chip.hm with upd := .idle, updFailed := true, updImage := [], err := setBit b.chip.hm.err 1 } ∧
        e.fuses = b.fuses ∧ e.flash = b.flash ∧ b.chip.frame e.chip [.hm, .ic, .lh, .sn, .pl, .tx])) ∧
    DoesState (.fwVerificationEnd dt) dt
      (fun b => b.chip.fwVerifying = true ∧ b.chip.hm.stage = .network ∧
        fwCheck b.fuses.rootHash b.fuses.epoch (b.chip.staged (min b.chip.hm.updLen fwMax)) b.chip.hm.updLen = none)
      (fun b e => e.chip.hm.stage = .running ∧ e.chip.hm.upd = .idle ∧
        e.chip.hm.fwHash = sha256 (b.chip.staged (min b.chip.hm.updLen fwMax)) ∧
        e.chip.hm.fwVersion = BitVec.ofNat 32 (fieldAt (b.chip.staged (min b.chip.hm.updLen fwMax)) 4 4) ∧
        e.fuses = b.fuses ∧ e.flash = b.flash ∧ b.chip.frame e.chip [.hm, .pl, .tx]) ∧
    DoesState (.fwVerificationEnd dt) dt
      (fun b => b.chip.fwVerifying = true ∧ b.chip.hm.stage ≠ .network ∧
        fwCheck b.fuses.rootHash b.fuses.epoch (b.chip.staged (min b.chip.hm.updLen fwMax)) b.chip.hm.updLen = none)
      (fun b e => e.chip.hm.upd = .copied ∧ e.chip.hm.stage = b.chip.hm.stage ∧ e.chip.hm.fwVersion = b.chip.hm.fwVersion ∧
        e.chip.hm.updImage = b.chip.staged (min b.chip.hm.updLen fwMax) ∧ e.fuses = b.fuses ∧ e.flash = b.flash ∧
        b.chip.frame e.chip [.hm]) ∧
    DoesState (.flashRewriteDone dt true) dt (fun b => b.chip.awake = true ∧ b.chip.hm.upd = .rewriting)
      (fun b e => e.fuses = { b.fuses with epoch := max b.fuses.epoch (min 64 b.chip.hm.updEpoch) } ∧
        e.flash = { b.flash with mem := b.flash.mem.write 0 b.chip.hm.updImage } ∧ e.chip.hm.upd = .idle ∧
        e.chip.hm.err = b.chip.hm.err ∧ b.chip.frame e.chip [.hm, .id]) ∧
    DoesState (.flashRewriteDone dt false) dt (fun b => b.chip.awake = true ∧ b.chip.hm.upd = .rewriting)
      (fun b e => e.fuses = b.fuses ∧
        (∃ bs : Bytes, bs.length = b.chip.hm.updImage.length ∧ e.flash = { b.flash with mem := b.flash.mem.write 0 bs }) ∧
        e.chip.hm.upd = .idle ∧ e.chip.hm.updFailed = true ∧ e.chip.hm.err = setBit b.chip.hm.err 1 ∧
        b.chip.frame e.chip [.hm, .draws, .ic, .lh, .sn])

/-- The random source and the debug unlock (R439, R453): a failed health test stops the source and is counted; when the source passes,
every waiting HELLO and OPEN is answered (an OPEN's waiting is log 12, the model's choice); a debugger's answer to the challenge
presented that holds unlocks, deletes the key slots 1 to 3 and the associations of every port, and sets HM_ERR_STATUS[5]; one that
does not hold only uses up its challenge. The next challenge is presented while the source passes (log 135, the model's choice). -/
def Obligations.TheRandomSourceAndDebugUnlock : Prop :=
  ∀ dt,
    Does (.rngHealthFail dt) dt (fun b => b.up = true)
      (fun b e => e.hm = { b.hm with rngOk := false, rngFails := satInc b.hm.rngFails, err := setBit b.hm.err 4 } ∧
        b.frame e [.hm, .ic, .lh, .sn]) ∧
    DoesState (.randomSourcePassing dt) dt (fun b => b.chip.awake = true ∧ b.chip.hm.rngOk = false)
      (fun b e => e.chip.hm.rngOk = true ∧ e.chip.pl.hellos = [] ∧ b.chip.tx <+: e.chip.tx ∧
        e.chip.tx.length = b.chip.tx.length + b.chip.pl.hellos.length ∧ e.flash = b.flash ∧ e.chip.hm.challenge.isSome = true ∧
        (b.chip.lg.started = false → b.chip.lgRecords ≠ 0 → e.chip.lg.started = true)) ∧
    ∀ (n sig : Rsa) (k : Hash),
      Does (.debugUnlock dt sig) dt
        (fun b => b.up = true ∧ b.hm.challenge = some k ∧ b.hm.owner = some n ∧ rsaVerify n (sha256 (hashBytes k ++ hashBytes b.idHash)) sig = true)
        (fun b e => e.hm.debug = true ∧ vget none e.hm.cak 0 = vget none b.hm.cak 0 ∧ (∀ i, i ≠ 0 → vget none e.hm.cak i = none) ∧
          (∀ p, (e.port p).rx = [] ∧ (e.port p).tx = none) ∧ e.hm.err = setBit b.hm.err 5 ∧
          e.hm.challenge = (if b.hm.rngOk = true then some (hashOf (b.draw 32).1) else none) ∧ b.frame e [.draws, .qy, .hm, .ic, .lh, .sn]) ∧
      Does (.debugUnlock dt sig) dt
        (fun b => b.up = true ∧ b.hm.challenge = some k ∧ b.hm.owner = some n ∧ rsaVerify n (sha256 (hashBytes k ++ hashBytes b.idHash)) sig = false)
        (fun b e => e.hm = { b.hm with challenge := if b.hm.rngOk = true then some (hashOf (b.draw 32).1) else none } ∧
          b.frame e [.draws, .hm])

/-- The ledger (R453, R456, R458, R460, R463): an appended record takes the next index and the chain head becomes the hash of the old
head and the record; a checkpoint closes over the records since the last with the head and device time of the moment, and is written,
signed, at its place; one that debug unlock refuses is not; a failed write is kept, and written again at its place, LG_ERR_STATUS[0]
being set for the first. -/
def Obligations.TheLedgerIsChained : Prop :=
  (∀ (c : Chip) (rec : Bytes), c.lgRecords ≠ 0 → c.lg.started = true →
    (c.lgAppend rec).lg.index = c.lg.index + 1 ∧ (c.lgAppend rec).lg.head = sha256 (hashBytes c.lg.head ++ rec)) ∧
  ∀ dt,
    Does (.checkpointClose dt) dt (fun b => b.ckptDue = true ∧ b.hm.debug = false)
      (fun b e => (∃ k, e.lg.signing = b.lg.signing ++ [k] ∧ k.q = b.lg.ckpts + b.lg.signing.length ∧ k.time = b.clk.dev ∧
          k.head = b.lg.head ∧ k.first = b.lg.nextFirst ∧ k.count = b.lg.index - b.lg.nextFirst ∧ k.flags = b.lg.flags) ∧
        e.lg.flags = 0 ∧ e.lg.index = b.lg.index ∧ b.frame e [.lg]) ∧
    Does (.checkpointClose dt) dt (fun b => b.ckptDue = true ∧ b.hm.debug = true)
      (fun b e => e.lg.signing = b.lg.signing ∧ e.lg.err = setBit b.lg.err 1 ∧ b.frame e [.lg, .ic, .lh, .sn]) ∧
    ∀ (k : Ckpt) rest (r : RegionDecl),
      (∀ failed, Does (.checkpointWritten dt failed) dt
        (fun b => b.awake = true ∧ b.hm.idReady = true ∧ b.lg.signing = k :: rest ∧ b.hm.debug = false ∧ b.lgRegion = some r ∧
          b.refusal .device true (r.first * 2 ^ 20 + k.q % 2048 * 512) (k.body ++ rsaBytes (b.idSign (sha256 k.body))).length = none)
        (fun b e => e.lg.signing = rest ∧ e.lg.ckpts = k.q + 1 ∧ e.lg.ckptHead = k.head ∧ e.lg.ckptTime = k.time ∧
          e.lg.ckptFirst = k.first ∧ e.lg.ckptCount = k.count ∧
          (failed = false → e.dram = (b.dramWrite (r.first * 2 ^ 20 + k.q % 2048 * 512)
            (k.body ++ rsaBytes (b.idSign (sha256 k.body)))).dram ∧
            e.lg.rewrite = b.lg.rewrite.filter (fun x => x.1 != k.q % 2048 * 512)) ∧
          (failed = true → e.dram = b.dram ∧ e.lg.err = setBit b.lg.err 0 ∧
            e.lg.rewrite = b.lg.rewrite.filter (fun x => x.1 != k.q % 2048 * 512) ++
              [(k.q % 2048 * 512, k.body ++ rsaBytes (b.idSign (sha256 k.body)))]) ∧
          b.frame e [.lg, .mc, .dram, .ic, .lh, .sn])) ∧
      Does (.checkpointWritten dt false) dt
        (fun b => b.awake = true ∧ b.hm.idReady = true ∧ b.lg.signing = k :: rest ∧ b.hm.debug = true)
        (fun b e => e.lg.signing = rest ∧ e.lg.ckpts = b.lg.ckpts ∧ e.lg.err = setBit b.lg.err 1 ∧ b.frame e [.lg, .ic, .lh, .sn]) ∧
      (dt.errs = [] → Does (.ledgerRewrite dt false) dt
        (fun b => b.awake = true ∧ b.lg.rewrite ≠ [] ∧ b.lgRegion = some r ∧
          ∀ x ∈ b.lg.rewrite, b.refusal .device true (r.first * 2 ^ 20 + x.1) x.2.length = none)
        (fun b e => e.lg.rewrite = [] ∧ e.dram = (b.lg.rewrite.foldl (fun c x => c.dramWrite (r.first * 2 ^ 20 + x.1) x.2) b).dram ∧
          b.frame e [.lg, .mc, .dram])) ∧
      (dt.errs = [] → Does (.ledgerRewrite dt true) dt
        (fun b => b.awake = true ∧ b.lg.rewrite ≠ [] ∧ b.lgRegion = some r ∧ (b.lg.rewrite.map (·.1)).Nodup)
        (fun b e => e.lg.rewrite = b.lg.rewrite ∧ e.dram = b.dram ∧ e.lg.err = b.lg.err ∧ b.frame e [.lg, .mc, .ic, .lh, .sn]))

/-! ### Power, the Lighthouse, resets and snapshots -/

/-- Operating points (R473, R474): to a slower point the post-divider changes first, to a faster one the voltage first; a transaction
that is not acknowledged sets PM_ERR_STATUS[0] and is retried after 10 ms; the transition ends when the voltage has settled and is
counted. The regulator (R474, R475, R497): a poll that is read gives PM_VOUT and PM_IOUT and a sample of both averages; one that fails
sets PM_ERR_STATUS[0]; a mode that is not ULINEAR16 holds the target at point 3; ten polls above the cap make the power cap one point
slower than the slower of it and the current point; PMB_ALERT_N sets PM_ERR_STATUS[3]. -/
def Obligations.OperatingPointsMove : Prop :=
  (∀ dt,
     Does (.opTransition dt true) dt (fun b => b.canMove = true ∧ b.target < b.pm.cur)
       (fun b e => e.pm = { b.pm with move := some (.raising b.target), retryAt := none, sent := b.pm.sent ++ [(b.pm.pmbus.toNat % 128, 0x21, coreMv b.target)] } ∧
         b.frame e [.pm]) ∧
     Does (.opTransition dt false) dt (fun b => b.canMove = true ∧ b.target < b.pm.cur)
       (fun b e => e.pm = { b.pm with move := none, retryAt := some (b.clk.ref + 10000000), err := setBit b.pm.err 0 } ∧
         b.frame e [.pm, .ic, .lh, .sn]) ∧
     Does (.opTransition dt true) dt (fun b => b.canMove = true ∧ b.pm.cur < b.target)
       (fun b e => e.pm = { b.pm with cur := b.target, transitions := satInc b.pm.transitions, move := none, retryAt := none
                                      sent := b.pm.sent ++ [(b.pm.pmbus.toNat % 128, 0x21, coreMv b.target)] } ∧ b.frame e [.pm]) ∧
     Does (.opTransition dt false) dt (fun b => b.canMove = true ∧ b.pm.cur < b.target)
       (fun b e => e.pm = { b.pm with cur := b.target, move := some (.lowering b.target), retryAt := some (b.clk.ref + 10000000)
                                      err := setBit b.pm.err 0 } ∧ b.frame e [.pm, .ic, .lh, .sn]) ∧
     (∀ goal good,
       Does (.voltageSettled dt good) dt
         (fun b => b.awake = true ∧ b.pm.move = some (.raising goal) ∧ (good = true ∨ b.pm.pmbus.toNat.testBit 16 = false))
         (fun b e => e.pm = { b.pm with cur := goal, transitions := satInc b.pm.transitions, move := none, retryAt := none } ∧
           b.frame e [.pm]) ∧
       Does (.voltageSettled dt false) dt
         (fun b => b.awake = true ∧ b.pm.move = some (.raising goal) ∧ b.pm.pmbus.toNat.testBit 16 = true)
         (fun b e => e.pm = { b.pm with move := none, retryAt := some (b.clk.ref + 10000000), err := setBit b.pm.err 1 } ∧
           b.frame e [.pm, .ic, .lh, .sn]) ∧
       Does (.pmbusRetry dt true) dt (fun b => b.retryDue = true ∧ b.pm.move = some (.lowering goal))
         (fun b e => e.pm = { b.pm with cur := goal, transitions := satInc b.pm.transitions, move := none, retryAt := none
                                        sent := b.pm.sent ++ [(b.pm.pmbus.toNat % 128, 0x21, coreMv goal)] } ∧ b.frame e [.pm])) ∧
     ∀ acked, Does (.pmbusRetry dt acked) dt (fun b => b.retryDue = true ∧ b.pm.move = none ∧ b.target = b.pm.cur)
       (fun b e => e.pm = { b.pm with retryAt := none } ∧ b.frame e [.pm])) ∧
  (∀ dt,
     (∀ (v i : BitVec 16), Does (.pmbusPoll dt (some v) (some i) none) dt (fun b => b.awake = true)
       (fun b e => e.pm = { b.pm with vout := v.setWidth 32, iout := i.setWidth 32, sum10 := b.pm.sum10 + v.toNat * i.toNat
                                      n10 := b.pm.n10 + 1, sum100 := b.pm.sum100 + v.toNat * i.toNat, n100 := b.pm.n100 + 1 } ∧
         b.frame e [.pm])) ∧
     Does (.pmbusPoll dt none none none) dt (fun b => b.awake = true)
       (fun b e => e.pm = { b.pm with err := setBit b.pm.err 0 } ∧ b.frame e [.pm, .ic, .lh, .sn]) ∧
     (∀ v i, Does (.pmbusPoll dt v i (some false)) dt (fun b => b.awake = true)
       (fun b e => e.pm.err.toNat.testBit 2 = true ∧ e.target = 3 ∧ b.frame e [.pm, .ic, .lh, .sn])) ∧
     Does (.powerCapWindow dt) dt
       (fun b => b.windowDue = true ∧ b.pm.n100 < 100 ∧ clampNat 20 115 (b.pm.cap.toNat % 128) * 100000 * b.pm.n10 < b.pm.sum10)
       (fun b e => e.pm.powCap = min 3 (max b.pm.powCap b.pm.cur + 1) ∧ e.pm.n10 = 0 ∧ e.pm.sum10 = 0 ∧ e.pm.n100 = b.pm.n100 ∧
         b.frame e [.pm, .ic, .lh, .sn]) ∧
     Does (.powerCapWindow dt) dt
       (fun b => b.windowDue = true ∧ b.pm.n100 < 100 ∧ b.pm.sum10 ≤ clampNat 20 115 (b.pm.cap.toNat % 128) * 100000 * b.pm.n10)
       (fun b e => e.pm = { b.pm with sum10 := 0, n10 := 0 } ∧ b.frame e [.pm]) ∧
     Does (.pmbAlert dt) dt (fun b => b.awake = true)
       (fun b e => e.pm = { b.pm with err := setBit b.pm.err 3 } ∧ b.frame e [.pm, .ic, .lh, .sn]))

/-- Temperature (R476, R477, R479): the hottest sensor without a fault at 110 degrees or more trips the device, its channels held in
self-refresh and its core regulator switched off through OPERATION (whose value is log 134, the model's); below, the cap becomes no
faster than the reading's and no slower than it and the cap before. A domain switches on alone. -/
def Obligations.TemperatureCapsAndTrips : Prop :=
  ∀ dt,
    (∀ rs, Does (.thermalSample dt rs) dt (fun b => b.por = false)
      (fun b e => e.tm.sensor = sampleAll rs b.tm.sensor ∧
        ∀ i r, ({ b.tm with sensor := sampleAll rs b.tm.sensor } : Thermal).hottest = some (i, r) →
          (440 ≤ r → b.lh.st ≠ .tripped → e.tm.trip = true ∧ e.tm.trips = satInc b.tm.trips ∧ e.lh.st = .tripped ∧
            e.lh.err.toNat.testBit 3 = true ∧ e.pm.sent = b.pm.sent ++ [(b.pm.pmbus.toNat % 128, 0x01, 0)] ∧ ∀ n < 16, (e.chan n).power = .held) ∧
          (r < 440 → capFor r ≤ e.tm.cap ∧ e.tm.cap ≤ max b.tm.cap (capFor r) ∧ e.lh.st = b.lh.st ∧ e.tm.trips = b.tm.trips))) ∧
    ∀ d, d < 96 → Does (.domainSwitchOn dt d) dt (fun b => b.awake = true ∧ b.domainOff d = true ∧ b.offCond d = false)
      (fun b e => e.domainOff d = false ∧ ∀ k, k < 96 → k ≠ d → e.domainOff k = b.domainOff k)

/-- Wake events (R486, R487, R489): in sleep, in a watch state and during entry the first event latched stays, and elsewhere none
latches; an I2C match is counted in every state; reading the target changes only what it has given. Sleep and watch mode (R485, R486,
R488, R490, R491): entry ends asleep, or at once in WAKING with cause and source of an event that came during it, the core rail
switched off through OPERATION or, for watch mode, at 0.60 V (the commands' values are log 134, the model's); a watch cycle starts at
OP3 with the ports at reset; its frame wakes where it differs from the reference by more than LH_WATCH_THRESH and ends the cycle
otherwise; a cycle out of time latches a wake of cause 4 and sets LH_ERR_STATUS[1]. -/
def Obligations.WakeEventsAndWatchMode : Prop :=
  (∀ dt ticks, 33 ≤ ticks →
     Does (.wakeNAsserted dt ticks) dt (fun b => b.por = false ∧ (b.resting = true ∨ b.lh.st = .entering) ∧ b.lh.latched = none)
       (fun b e => e = b.updLh (fun l => { l with latched := some (2, 0), wakeTicks := b.ticks })) ∧
     Does (.wakeNAsserted dt ticks) dt
       (fun b => b.por = false ∧ (b.lh.latched ≠ none ∨ b.lh.st = .awake ∨ b.lh.st = .waking ∨ b.lh.st = .tripped)) (fun b e => e = b) ∧
     (∀ a, Does (.i2cAddressMatch dt a) dt (fun b => b.por = false ∧ a = 0x58 + b.id.straps.i2c.toNat)
       (fun b e => e.lh.i2cMatches = satInc b.lh.i2cMatches ∧
         e.lh.latched = (if (b.resting = true ∨ b.lh.st = .entering) ∧ b.lh.latched = none then some (1, a) else b.lh.latched) ∧
         e.lh.st = b.lh.st ∧ b.frame e [.lh])) ∧
     Does (.i2cStatusRead dt) dt (fun b => b.por = false)
       (fun b e => e.lh = { b.lh with i2cData := e.lh.i2cData } ∧ b.frame e [.lh] ∧
         e.lh.i2cData.toNat = b.lh.st.code * 32 + (if b.lh.latched = none then 0 else 16) + b.lh.lastWake.toNat / 2 ^ 28)) ∧
  (∀ dt,
     Does (.sleepEntryComplete dt) dt (fun b => b.por = false ∧ b.lh.st = .entering ∧ b.lh.latched = none)
       (fun b e => e.lh.st = (if b.lh.watch then .watchIdle else .asleep) ∧ e.lh.savedDev = b.clk.dev ∧ e.lh.savedLh = b.clk.lh ∧
         e.sram = [] ∧ (b.lh.watch = false → e.basin = []) ∧ e.dram = b.dram ∧ (∀ n < 16, (e.chan n).power = .held) ∧
         e.pm.cur = 3 ∧ e.pm.sent = b.pm.sent ++ [(b.pm.pmbus.toNat % 128, if b.lh.watch then 0x21 else 0x01, if b.lh.watch then 600 else 0)] ∧
         b.frame e [.ic, .mc, .pm, .basin, .sram, .lh]) ∧
     (∀ cause detail, Does (.sleepEntryComplete dt) dt
       (fun b => b.por = false ∧ b.lh.st = .entering ∧ b.lh.latched = some (cause, detail))
       (fun b e => e.lh.st = .waking ∧ e.lh.lastWake = wakeRecord cause detail (if b.lh.watch then 2 else 1) true ∧ e.lh.err = 1 ∧
         e.dram = b.dram ∧ b.frame e [.ic, .mc, .pm, .basin, .sram, .lh])) ∧
     Does (.watchCycleStart dt) dt (fun b => b.cycleDue = true)
       (fun b e => e.lh.st = .watchCycle ∧ e.lh.watchCycles = satInc b.lh.watchCycles ∧ e.lh.securedAt = none ∧ e.lh.frameReady = false ∧
         e.qy = { ports := resetPorts b.id.straps } ∧ e.pm.cur = 3 ∧ b.frame e [.qy, .pm, .lh]) ∧
     (∀ d : StreamDecl,
       Does (.watchCompare dt) dt (fun b => b.compareDue = true ∧ b.lh.watchStream = some d ∧ b.lh.hasRef = true)
         (fun b e =>
           let sad := sadOf (b.basinRead [b.watchBank] (2 ^ 20 + 4096) (d.w * d.h)) (b.basinRead [b.watchBank] 4096 (d.w * d.h))
           e.lh.watchSad = BitVec.ofNat 32 sad ∧ (b.lh.watchThresh.toNat < sad → e.lh.latched = some (3, 0)) ∧
           (sad ≤ b.lh.watchThresh.toNat → e.lh.latched = none ∧ e.lh.st = .watchIdle) ∧ b.frame e [.lh, .basin]) ∧
       Does (.watchCompare dt) dt (fun b => b.compareDue = true ∧ b.lh.watchStream = some d ∧ b.lh.hasRef = false)
         (fun b e => e.lh.hasRef = true ∧ e.lh.st = .watchIdle ∧ e.lh.latched = none ∧ b.frame e [.lh, .basin])) ∧
     Does (.watchCycleTimeout dt) dt (fun b => b.watchLate = true)
       (fun b e => e.lh.latched = some (4, 0) ∧ e.lh.err = setBit b.lh.err 1 ∧ b.frame e [.lh, .ic, .sn]))

/-- Waking (R442, R492, R493, R500): the core rail is commanded to 0.60 V and on; with power good the device is awake, the boot ROM
has run, device time goes on from the value saved and the ticks since, DRAM is as it was, NETBOOT stays set where it was and
LH_LAST_WAKE records the cause; without, it stays in WAKING with LH_ERR_STATUS[2] and the step is retried. Resets (R477, R494 to R496,
R535, R538): WARM_RST_N low for 1 µs, but for during a warm reset (until its boot has ended; log 142's reading), and a trip's
recovery, restart the device in the boot ROM with device time 0, one more boot counted, the Basin and array memory lost and DRAM held,
a pending image discarded with code 0x12; power-on reset loses every memory and keeps the fuses, and its release, in the factory test
state as well, samples the straps and leaves each register at its reset value. -/
def Obligations.ResetsAndWaking : Prop :=
  (∀ dt ctrlErr ts,
     (∀ r ∈ [(Instr.wake dt { good := true, ctrlErr := ctrlErr } ts, fun b : Chip => b.canWake = true),
         (.wakePgRetry dt { good := true, ctrlErr := ctrlErr } ts, fun b => b.canRetryWake = true)],
       DoesState r.1 dt (fun b => r.2 b.chip)
         (fun b e => e.chip.lh.st = .awake ∧ e.chip.hm.stage ≠ .rom ∧ e.chip.clk.dev = b.chip.wokenTime ∧ e.chip.dram = b.chip.dram ∧
           e.chip.tx = b.chip.tx ∧ e.flash = b.flash ∧
           e.chip.pm.sent = b.chip.pm.sent ++ [(b.chip.pm.pmbus.toNat % 128, 0x21, 600), (b.chip.pm.pmbus.toNat % 128, 0x01, 0x80)] ∧
           (b.chip.hm.netboot = true → e.chip.hm.netboot = true) ∧
           ∀ cause detail, b.chip.lh.latched = some (cause, detail) → b.chip.lh.st ≠ .waking →
             e.chip.lh.lastWake = wakeRecord cause detail (if b.chip.lh.watch then 2 else 1) false)) ∧
     ∀ r ∈ [(Instr.wake dt { good := false, ctrlErr := ctrlErr } ts, fun b : Chip => b.canWake = true),
         (.wakePgRetry dt { good := false, ctrlErr := ctrlErr } ts, fun b => b.canRetryWake = true)],
       DoesState r.1 dt (fun b => r.2 b.chip)
         (fun b e => e.chip.lh.st = .waking ∧ e.chip.lh.pgFailed = true ∧ e.chip.lh.err = setBit b.chip.lh.err 2 ∧
           e.fuses = b.fuses ∧ e.flash = b.flash ∧ b.chip.frame e.chip [.lh, .pm])) ∧
  ((∀ dt low, DoesState (.warmResetPin dt low) dt (fun b => b.chip.por = false ∧ b.chip.lh.st ≠ .tripped ∧ b.chip.warmResetting = false ∧ 1000 ≤ low)
     (fun b e => e.chip.hm.stage = .rom ∧ e.chip.hm.bootCount = satInc b.chip.hm.bootCount ∧ e.chip.clk.dev = 0 ∧ e.chip.lh.st = .awake ∧
       e.chip.basin = [] ∧ e.chip.sram = [] ∧ e.chip.dram = b.chip.dram ∧ e.chip.pl.session = none ∧ e.fuses = b.fuses ∧ e.flash = b.flash ∧
       (b.chip.cfg.state = .pending ∨ b.chip.cfg.state = .validating → e.chip.cfg.state = .discarded ∧ e.chip.cfg.errCode = 0x12) ∧
       ∀ n < 16, (e.chip.chan n).power = .held ∧ (e.chip.chan n).lost = (b.chip.chan n).lost) ∧
     DoesState (.warmResetPin dt low) dt (fun b => b.chip.por = false ∧ b.chip.warmResetting = true) (fun b e => e = b)) ∧
   (∀ dt, DoesState (.tripRecovery dt) dt (fun b => b.chip.recoverDue = true)
     (fun b e => e.chip.hm.stage = .rom ∧ e.chip.hm.bootCount = satInc b.chip.hm.bootCount ∧ e.chip.clk.dev = 0 ∧ e.chip.lh.st = .awake ∧
       e.chip.tm.trip = false ∧ e.chip.lh.lastWake = wakeRecord 6 0 3 false ∧ e.chip.lh.err.toNat.testBit 3 = true ∧
       e.chip.dram = b.chip.dram ∧ e.fuses = b.fuses ∧ e.flash = b.flash)) ∧
   ∀ dt (s : State),
     (∀ role i2c mode, s.chip.por = true → exec (.powerOnReset dt role i2c mode) s =
       .next { s with chip := { Chip.powerOn s.fuses { role := role, i2c := i2c, testMode := mode } with draws := s.chip.draws, tx := s.chip.tx } }) ∧
     (s.chip.por = false → ∃ t, exec (.powerOnResetAsserted dt) s = .next t ∧ t.chip.por = true ∧ t.chip.dram = [] ∧ t.chip.basin = [] ∧
       t.chip.sram = [] ∧ t.fuses = s.fuses ∧ t.pending = s.pending ∧ (s.chip.hm.upd ≠ .rewriting → t.flash = s.flash)))

/-- SNAP_IN high for 100 ns asks for a snapshot (R524). A trigger that is enabled latches while none is held, with its cause, its
detail, device time and the boundary count; while one is held it is counted as missed, sets SN_EVT_STATUS[1], and the held one stays
(R523, R525). -/
def Obligations.SnapshotsLatchOnce : Prop :=
  (∀ dt high, 100 ≤ high → Does (.snapInTrigger dt high) dt (fun b => b.up = true)
    (fun b e => e = b.updSn (fun s => { s with ask := s.ask ++ [(1, 0)] }))) ∧
  ∀ (c : Chip) (cause detail : Nat), c.sn.enabled cause = true →
    (c.sn.held = false → (c.trigger cause detail).sn.held = true ∧ (c.trigger cause detail).sn.cause = cause ∧
      (c.trigger cause detail).sn.detail = (if cause = 3 ∨ cause = 4 then detail else 0) ∧
      (c.trigger cause detail).sn.time = c.clk.dev ∧ (c.trigger cause detail).sn.cycle = loOf c.tt.cycles ∧
      (c.trigger cause detail).sn.count = satInc c.sn.count ∧
      ∀ a w, (a, w) ∈ (c.trigger cause detail).sn.latched → w ≠ 0 ∧ (c.updSn (Snap.drive cause c.clk.ref)).regRead a = some w) ∧
    (c.sn.held = true → (c.trigger cause detail).sn.held = true ∧ (c.trigger cause detail).sn.cause = c.sn.cause ∧
      (c.trigger cause detail).sn.latched = c.sn.latched ∧ (c.trigger cause detail).sn.time = c.sn.time ∧
      (c.trigger cause detail).sn.count = c.sn.count ∧ (c.trigger cause detail).sn.missed = satInc c.sn.missed ∧
      (c.trigger cause detail).sn.evt = setBit c.sn.evt 1)

/-! ### QCP -/

/-- Sessions (R410 to R412, R439): HELLO gets a fresh nonce, or waits for the random source; an OPEN with that nonce and, where an
owner key is installed, its signature opens a session and starts the window after its own sequence, or waits for the random source to
give the session's id (log 12, the model's choice); one of another address or without them is refused and changes no session; CLOSE
and the idle time end it with its held commands, kept responses and staged queries. -/
def Obligations.SessionsOpenAndClose : Prop :=
  ∀ dt (f : QcpFrame),
    Does (.qcpHello dt f) dt (fun b => b.takesQcp f ∧ f.payload = [] ∧ b.hm.rngOk = true)
      (fun b e => e.pl = { b.pl with nonce := some { value := hashOf (b.draw 32).1, at_ := b.clk.ref, used := false } } ∧
        e.tx = b.tx ++ [responseFrame { f with session := 0 } b.pl.qcpEtype 1 0 0 ((b.draw 32).1 ++ toLe 4 b.cfgDevice ++ hashBytes b.idHash)] ∧
        b.frame e [.qy, .pl, .tx, .draws]) ∧
    Does (.qcpHello dt f) dt (fun b => b.takesQcp f ∧ f.payload = [] ∧ b.hm.rngOk = false)
      (fun b e => e.pl = { b.pl with nonce := none, hellos := b.pl.hellos ++ [({ op := .hello, f := f }, b.clk.ref)] } ∧ b.frame e [.qy, .pl]) ∧
    Does (.qcpOpen dt f) dt
      (fun b => b.takesQcp f ∧ f.payload.length = 416 ∧ (∀ x, b.pl.session = some x → x.mac = f.rx.src) ∧ b.openValid f = true ∧
        b.hm.rngOk = true)
      (fun b e => ∃ x, e.pl.session = some x ∧ x.id ≠ 0 ∧ x.owned = b.hm.owner.isSome ∧ x.mac = f.rx.src ∧ x.port = f.rx.port ∧
        e.pl.next = f.seq + 1 ∧ e.pl.held = [] ∧ e.pl.cache = [] ∧ e.sv.staged = [] ∧ (∀ n, e.pl.nonce = some n → n.used = true) ∧
        e.tx = b.tx ++ [responseFrame { f with session := 0 } b.pl.qcpEtype 2 0 0 (toLe 4 x.id.toNat ++ toLe 2 16 ++ toLe 2 8256 ++ toLe 4 b.ic.evtSeq.toNat ++
          toLe 4 (b.pl.tokNext - 1).toNat)] ∧ b.frame e [.qy, .pl, .sv, .tx, .draws]) ∧
    Does (.qcpOpen dt f) dt
      (fun b => b.takesQcp f ∧ f.payload.length = 416 ∧ (∀ x, b.pl.session = some x → x.mac = f.rx.src) ∧ b.openValid f = true ∧
        b.hm.rngOk = false)
      (fun b e => e.pl.session = none ∧ e.pl.held = [] ∧ e.pl.cache = [] ∧ e.sv.staged = [] ∧ (∀ n, e.pl.nonce = some n → n.used = true) ∧
        e.pl.hellos = b.pl.hellos ++ [({ op := .opn, f := f }, b.clk.ref)] ∧ b.frame e [.qy, .pl, .sv]) ∧
    Does (.qcpOpen dt f) dt (fun b => b.takesQcp f ∧ f.payload.length = 416 ∧ ∃ x, b.pl.session = some x ∧ x.mac ≠ f.rx.src)
      (fun b e => e.tx = b.tx ++ [responseFrame { f with session := 0 } b.pl.qcpEtype 2 0x35 0 (errPayload 0 0)] ∧ b.frame e [.qy, .tx]) ∧
    Does (.qcpOpen dt f) dt
      (fun b => b.takesQcp f ∧ f.payload.length = 416 ∧ (∀ x, b.pl.session = some x → x.mac = f.rx.src) ∧ b.openValid f = false)
      (fun b e => e.tx = b.tx ++ [responseFrame { f with session := 0 } b.pl.qcpEtype 2 0x36 0 (errPayload 0 0)] ∧ b.frame e [.qy, .tx]) ∧
    Does (.qcpClose dt f) dt (fun b => b.inTurn f ∧ f.payload = [])
      (fun b e => e.pl.session = none ∧ e.pl.held = [] ∧ e.pl.cache = [] ∧ e.sv.staged = [] ∧ e.pl.deferred = b.pl.deferred ∧
        e.tx = b.tx ++ [responseFrame f b.pl.qcpEtype 3 0 0 []] ∧ b.frame e [.qy, .pl, .sv, .tx]) ∧
    Does (.sessionIdleExpiry dt) dt
      (fun b => b.up = true ∧ ∃ x, b.pl.session = some x ∧ x.lastAt + clampNat 100 60000 (b.pl.idle.toNat % 65536) * 1000000 ≤ b.clk.ref)
      (fun b e => e.pl = { b.pl with session := none, held := [], cache := [] } ∧ e.sv = { b.sv with staged := [] } ∧ b.frame e [.pl, .sv])

/-- The window (R409, R413, R414): a command ahead of its turn is held, and runs when the one before it has; a second copy is counted;
one already answered is answered again with its kept response and flag 1; one outside the window, or in a frame that R409 refuses, is
dropped and counted. A command of no open session is answered 0x32, one of an opcode that R418 does not list 0x30, any but those of
R442 in a network boot 0x3B; an opcode that R418 lists is that row's command. -/
def Obligations.CommandsAreTakenInOrder : Prop :=
  ∀ dt (f : QcpFrame) errs code,
    (∀ r ∈ qcpRows dt f errs code, r.2 ≠ .hello → r.2 ≠ .opn →
      Does r.1 dt
        (fun b => b.takesQcp f ∧ b.ofSession f ∧ 0 < (f.seq - b.pl.next).toNat ∧ (f.seq - b.pl.next).toNat < 16 ∧
          ∀ x ∈ b.pl.held, x.f.seq ≠ f.seq ∧ x.f.seq ≠ b.pl.next)
        (fun b e => (∃ x, x.op = r.2 ∧ x.f = f ∧ e.pl = { b.pl with held := b.pl.held ++ [x] }) ∧ b.frame e [.qy, .pl]) ∧
      Does r.1 dt
        (fun b => b.takesQcp f ∧ b.ofSession f ∧ (f.seq - b.pl.next).toNat < 16 ∧ ∃ x ∈ b.pl.held, x.f.seq = f.seq)
        (fun b e => e.pl = { b.pl with dups := satInc b.pl.dups, err := setBit b.pl.err 0 } ∧ b.frame e [.qy, .pl, .ic, .lh, .sn]) ∧
      (∀ x : Resp, Does r.1 dt
        (fun b => b.takesQcp f ∧ b.ofSession f ∧ 2 ^ 32 - 64 ≤ (f.seq - b.pl.next).toNat ∧
          b.pl.cache.find? (fun x => x.seq == f.seq) = some x)
        (fun b e => e.tx = b.tx ++ [{ responseFrame f b.pl.qcpEtype x.op x.status 1 x.payload with
            bytes := qcpFrame 1 x.op.toNat x.seq x.session x.status 1 x.payload }] ∧ b.frame e [.qy, .tx])) ∧
      Does r.1 dt
        (fun b => b.takesQcp f ∧ b.ofSession f ∧ 16 ≤ (f.seq - b.pl.next).toNat ∧ (f.seq - b.pl.next).toNat < 2 ^ 32 - 64)
        (fun b e => e.pl = { b.pl with drops := satInc b.pl.drops, err := setBit b.pl.err 0 } ∧ b.frame e [.qy, .pl, .ic, .lh, .sn]) ∧
      Does r.1 dt (fun b => b.takesQcp f ∧ ∀ x, b.pl.session = some x → x.id ≠ f.session)
        (fun b e => e.tx = b.tx ++ [responseFrame f b.pl.qcpEtype r.2.code 0x32 0 (errPayload 0 0)] ∧ b.frame e [.qy, .tx]) ∧
      (r.2.inNetwork = false → Does r.1 dt (fun b => b.inTurn f ∧ b.hm.stage = .network)
        (fun b e => e = (b.accepted f).respond b.pl.qcpEtype r.2 f 0x3B (errPayload 0 0))) ∧
      (r.2.slow = true → Does r.1 dt (fun b => b.inTurn f ∧ b.hm.stage = .running ∧ 8 ≤ b.pl.deferred.length)
        (fun b e => e = (b.accepted f).respond b.pl.qcpEtype r.2 f 0x37 (errPayload 0 0)))) ∧
    (Op.ofCode code = .unknown code → Does (.unknownOpcode dt code f) dt (fun b => b.inTurn f ∧ b.hm.stage = .running)
      (fun b e => e = (b.accepted f).respond b.pl.qcpEtype (.unknown code) f 0x30 (errPayload 0 0))) ∧
    (∀ s : State, exec (.unknownOpcode dt 1 f) s = exec (.qcpHello dt f) s ∧ exec (.unknownOpcode dt 2 f) s = exec (.qcpOpen dt f) s) ∧
    (∀ g : QcpFrame, g.payload = [] → g.session = f.session → g.seq = f.seq + 1 → f.payload = [] →
      Does (.qcpNop dt f) dt
        (fun b => b.takesQcp f ∧ b.ofSession f ∧ f.seq = b.pl.next ∧ b.pl.held = [{ op := .nop, f := g }])
        (fun b e => e.pl.next = f.seq + 2 ∧ e.pl.held = [] ∧ e.tx = b.tx ++ [responseFrame f b.pl.qcpEtype 4 0 0 [],
          responseFrame g b.pl.qcpEtype 4 0 0 []])) ∧
    (∀ g : RawQcp, Does (.qcpFrameDrop dt g) dt (fun b => b.hearsQcp g.rx = true ∧ (b.ingress g.rx).2 = some .qcp ∧ g.bad = true)
      (fun b e => e.pl = { b.pl with drops := satInc b.pl.drops, err := setBit b.pl.err 0 } ∧ b.frame e [.qy, .pl, .ic, .lh, .sn])) ∧
    ∀ (c : Chip) etype (op : Op) status payload,
      (c.respond etype op f status payload).tx = c.tx ++ [responseFrame f etype op.code status 0 payload] ∧
        ((c.pl.next - f.seq).toNat ≤ 64 → { seq := f.seq, op := op.code, session := f.session, status := status, payload := payload } ∈
          (c.respond etype op f status payload).pl.cache) ∧ c.frame (c.respond etype op f status payload) [.pl, .tx]

/-- NOP, REG_READ and REG_WRITE (R419): up to 256 reads, or writes, in list order; every one that succeeds takes effect, and the first
that fails ends the command with code 0x33, or the write's own, its address and how many were performed. A payload of another form is
answered 0x31, and no answer leaves a session that the writes themselves have closed (R412). -/
def Obligations.RegisterCommandsRunInOrder : Prop :=
  ∀ dt (f : QcpFrame),
    Does (.qcpNop dt f) dt (fun b => b.inTurn f ∧ f.payload = [])
      (fun b e => e = (b.accepted f).respond b.pl.qcpEtype .nop f 0 []) ∧
    (∀ as : List Nat, as ≠ [] → as.length ≤ 256 → (∀ a ∈ as, a < 2 ^ 32) → f.payload = toLe 4 as.length ++ as.flatMap (toLe 4) →
      (∀ ws : List Word, Does (.qcpRegRead dt f) dt
        (fun b => b.inTurn f ∧ ws.length = as.length ∧ ∀ k < as.length,
          ((as.take k).foldl (fun c a => c.regTouch a) (b.accepted f)).regRead (as.getD k 0) = some (ws.getD k 0))
        (fun b e => e = (as.foldl (fun c a => c.regTouch a) (b.accepted f)).respond b.pl.qcpEtype .regRead f 0
          (toLe 4 as.length ++ ws.flatMap (fun w => toLe 4 w.toNat)))) ∧
      ∀ n, n < as.length → Does (.qcpRegRead dt f) dt
        (fun b => b.inTurn f ∧ (∀ k < n, (((as.take k).foldl (fun c a => c.regTouch a) (b.accepted f)).regRead (as.getD k 0)).isSome = true) ∧
          ((as.take n).foldl (fun c a => c.regTouch a) (b.accepted f)).regRead (as.getD n 0) = none)
        (fun b e => e = ((as.take n).foldl (fun c a => c.regTouch a) (b.accepted f)).respond b.pl.qcpEtype .regRead f 0x33
          (errPayload (as.getD n 0) n))) ∧
    (∀ ps : List (Nat × Word), ps ≠ [] → ps.length ≤ 256 → (∀ p ∈ ps, p.1 < 2 ^ 32) →
      f.payload = toLe 4 ps.length ++ ps.flatMap (fun p => toLe 4 p.1 ++ toLe 4 p.2.toNat) →
      Does (.qcpRegWrite dt f) dt
        (fun b => b.inTurn f ∧ b.hm.stage = .running ∧
          ∀ k < ps.length, (((ps.take k).foldl (fun c p => (c.regWrite .host p.1 p.2).1) (b.accepted f)).regWrite .host (ps.getD k (0, 0)).1
            (ps.getD k (0, 0)).2).2 = none)
        (fun b e =>
          let c := ps.foldl (fun c p => (c.regWrite .host p.1 p.2).1) (b.accepted f)
          e = if c.pl.session.any (fun x => x.id == f.session) then c.respond b.pl.qcpEtype .regWrite f 0 (toLe 4 ps.length) else c) ∧
      ∀ n code, n < ps.length → Does (.qcpRegWrite dt f) dt
        (fun b => b.inTurn f ∧ b.hm.stage = .running ∧
          (∀ k < n, (((ps.take k).foldl (fun c p => (c.regWrite .host p.1 p.2).1) (b.accepted f)).regWrite .host (ps.getD k (0, 0)).1
            (ps.getD k (0, 0)).2).2 = none) ∧
          (((ps.take n).foldl (fun c p => (c.regWrite .host p.1 p.2).1) (b.accepted f)).regWrite .host (ps.getD n (0, 0)).1
            (ps.getD n (0, 0)).2).2 = some code)
        (fun b e =>
          let c := (ps.take (n + 1)).foldl (fun c p => (c.regWrite .host p.1 p.2).1) (b.accepted f)
          e = if c.pl.session.any (fun x => x.id == f.session)
            then c.respond b.pl.qcpEtype .regWrite f code (errPayload (ps.getD n (0, 0)).1 n) else c)) ∧
    ∀ r ∈ [(Instr.qcpNop dt f, Op.nop, fun n : Nat => n ≠ 0), (.qcpRegRead dt f, .regRead, fun n => n < 4),
        (.qcpRegWrite dt f, .regWrite, fun n => n < 4), (.qcpSnapshot dt f, .snapshot, fun n => n ≠ 0),
        (.qcpBulkRead dt f [], .bulkRead, fun n => n ≠ 12), (.qcpSeal dt f, .sealSet, fun n => n ≠ 2), (.qcpAttest dt f, .attest, fun n => n ≠ 32),
        (.qcpSleep dt f, .sleep, fun n => n ≠ 1), (.qcpOwnerKey dt f, .ownerKey, fun n => n ≠ 772), (.qcpCancel dt f, .cancel, fun n => n ≠ 4)],
      Does r.1 dt (fun b => b.inTurnRunning f ∧ r.2.2 f.payload.length)
        (fun b e => e = (b.accepted f).respond b.pl.qcpEtype r.2.1 f 0x31 (errPayload 0 0))

/-- Bulk access and the loads (R349, R420 to R422, R442): the host reads and writes its extent whole, or not at all with code 0x34 at
the first byte refused, which a sector that fails on the way makes the byte of its withdrawn entry; image, firmware and weight chunks
go where the device keeps them, a chunk beyond the object answered 0x38, an image chunk while one is under validation or pending 0x3B,
one for a set that is not open 0x3A. -/
def Obligations.LoadsReachTheirPlace : Prop :=
  ∀ dt (f : QcpFrame),
    (∀ a n, f.payload.length = 12 → f.at_ 0 8 = a → f.at_ 8 4 = n → n ≤ 8192 →
      Does (.qcpBulkRead dt f []) dt (fun b => b.inTurnRunning f ∧ b.hostReadRefusal a n = none)
        (fun b e => e = ((b.accepted f).touch false a n).respond b.pl.qcpEtype .bulkRead f 0 (b.dramRead a n)) ∧
      (∀ errs, Does (.qcpBulkRead dt f errs) dt (fun b => b.inTurnRunning f ∧ b.hostReadRefusal a n = none)
        (fun b e =>
          let c := (errs.filter (fun x => decide (a / 512 * 512 ≤ x.addr) && decide (x.addr < a + n))).foldl
            (fun c x => (c.sector .host 255 noStep x).1) ((b.accepted f).touch false a n)
          e = match c.hostReadRefusal a n with
            | some v => (c.recordViol .host 255 v.1 v.2 noStep).respond b.pl.qcpEtype .bulkRead f 0x34 (errPayload v.2 0)
            | none => c.respond b.pl.qcpEtype .bulkRead f 0 (c.dramRead a n))) ∧
      ∀ errs cause addr, Does (.qcpBulkRead dt f errs) dt (fun b => b.inTurnRunning f ∧ b.hostReadRefusal a n = some (cause, addr))
        (fun b e => e = ((b.accepted f).recordViol .host 255 cause addr noStep).respond b.pl.qcpEtype .bulkRead f 0x34 (errPayload addr 0))) ∧
    (∀ a n, f.payload.length = 12 + n → f.at_ 0 8 = a → f.at_ 8 4 = n → n ≤ 8192 →
      Does (.qcpBulkWrite dt f) dt (fun b => b.inTurnRunning f ∧ b.refusal .host true a n = none)
        (fun b e => e = ((b.accepted f).dramWrite a (f.payload.drop 12)).respond b.pl.qcpEtype .bulkWrite f 0 []) ∧
      ∀ cause addr, Does (.qcpBulkWrite dt f) dt (fun b => b.inTurnRunning f ∧ b.refusal .host true a n = some (cause, addr))
        (fun b e => e = ((b.accepted f).recordViol .host 255 cause addr noStep).respond b.pl.qcpEtype .bulkWrite f 0x34
          (errPayload addr 0))) ∧
    (∀ o n, f.payload.length = 8 + n → f.at_ 0 4 = o → f.at_ 4 4 = n → n ≤ 8192 →
      Does (.qcpImageLoad dt f) dt
        (fun b => b.inTurnRunning f ∧ b.cfg.state ≠ .validating ∧ b.cfg.state ≠ .pending ∧ o + n ≤ 8 * 2 ^ 20 ∧ b.cfg.applied = none)
        (fun b e => e = ((b.accepted f).basinWrite [31] o (f.payload.drop 8)).respond b.pl.qcpEtype .imageLoad f 0 []) ∧
      (∀ s, Does (.qcpImageLoad dt f) dt
        (fun b => b.inTurnRunning f ∧ b.cfg.state ≠ .validating ∧ b.cfg.state ≠ .pending ∧ o + n ≤ 8 * 2 ^ 20 ∧ b.cfg.applied = some s ∧
          b.refusal .device true ((s.regionAt s.store).1 + storeIntake + o) n = none)
        (fun b e => e = ((b.accepted f).dramWrite ((s.regionAt s.store).1 + storeIntake + o) (f.payload.drop 8)).respond b.pl.qcpEtype
          .imageLoad f 0 [])) ∧
      Does (.qcpImageLoad dt f) dt (fun b => b.inTurnRunning f ∧ (b.cfg.state = .validating ∨ b.cfg.state = .pending))
        (fun b e => e = (b.accepted f).respond b.pl.qcpEtype .imageLoad f 0x3B (errPayload 0 0)) ∧
      Does (.qcpImageLoad dt f) dt
        (fun b => b.inTurnRunning f ∧ b.cfg.state ≠ .validating ∧ b.cfg.state ≠ .pending ∧ 8 * 2 ^ 20 < o + n)
        (fun b e => e = (b.accepted f).respond b.pl.qcpEtype .imageLoad f 0x38 (errPayload 0 0)) ∧
      Does (.qcpFwLoad dt f) dt (fun b => b.inTurn f ∧ b.hm.stage = .network ∧ b.pl.deferred.length < 8 ∧ o + n ≤ 8 * 2 ^ 20)
        (fun b e => e = ((b.accepted f).basinWrite [31] (8 * 2 ^ 20 + o) (f.payload.drop 8)).respond b.pl.qcpEtype .fwLoad f 0 []) ∧
      (∀ s, Does (.qcpFwLoad dt f) dt
        (fun b => b.inTurnRunning f ∧ o + n ≤ 8 * 2 ^ 20 ∧ b.cfg.applied = some s ∧
          b.refusal .device true ((s.regionAt s.store).1 + 24 * 2 ^ 20 + o) n = none)
        (fun b e => e = ((b.accepted f).dramWrite ((s.regionAt s.store).1 + 24 * 2 ^ 20 + o) (f.payload.drop 8)).respond b.pl.qcpEtype
          .fwLoad f 0 [])) ∧
      Does (.qcpFwLoad dt f) dt (fun b => b.inTurnRunning f ∧ 8 * 2 ^ 20 < o + n)
        (fun b e => e = (b.accepted f).respond b.pl.qcpEtype .fwLoad f 0x38 (errPayload 0 0))) ∧
    ∀ w o n, f.payload.length = 0x10 + n → f.at_ 0 2 = w → f.at_ 4 8 = o → f.at_ 0x0C 4 = n → n ≤ 8192 →
      (∀ d : WeightDecl, Does (.qcpWeightLoad dt f) dt
        (fun b => b.inTurnRunning f ∧ b.openSet w = some d ∧ o + n ≤ d.length ∧ o + n ≤ (b.str.regionAt d.region).2 ∧
          b.refusal .device true ((b.str.regionAt d.region).1 + o) n = none)
        (fun b e => e = ((b.accepted f).dramWrite ((b.str.regionAt d.region).1 + o) (f.payload.drop 0x10)).respond b.pl.qcpEtype
          .weightLoad f 0 []) ∧
        Does (.qcpWeightLoad dt f) dt (fun b => b.inTurnRunning f ∧ b.openSet w = some d ∧ d.length < o + n)
          (fun b e => e = (b.accepted f).respond b.pl.qcpEtype .weightLoad f 0x38 (errPayload 0 0))) ∧
      Does (.qcpWeightLoad dt f) dt (fun b => b.inTurnRunning f ∧ b.openSet w = none)
        (fun b e => e = (b.accepted f).respond b.pl.qcpEtype .weightLoad f 0x3A (errPayload 0 0))

/-- Images, seals and firmware (R24, R42, R55, R418, R445, R447, R450): ADMIT starts validation and is answered when it ends, or at
once with code 0x10; ABORT discards what is pending; SEAL is answered when the set's bytes have been hashed, and seals it only where
they match; FW_UPDATE needs an owned session and starts the check; ATTEST answers with the report; OWNER_KEY writes the slots it is
allowed and installs the key. -/
def Obligations.ImagesSealsAndKeys : Prop :=
  ∀ dt (f : QcpFrame),
    (f.payload.length = 4 →
      Does (.qcpAdmit dt f) dt (fun b => b.inTurnRunning f ∧ b.cfg.state ≠ .validating ∧ b.cfg.state ≠ .pending)
        (fun b e => e.cfg = { b.cfg with imgLen := w32 (f.at_ 0 4), state := .validating, admitLen := f.at_ 0 4 } ∧
          (∃ d, e.pl.deferred = b.pl.deferred ++ [d] ∧ d.r.op = .admitImg ∧ d.r.f = f) ∧ e.pl.next = f.seq + 1 ∧
          b.frame e [.qy, .pl, .cfg]) ∧
      Does (.qcpAdmit dt f) dt (fun b => b.inTurnRunning f ∧ (b.cfg.state = .validating ∨ b.cfg.state = .pending))
        (fun b e => e.cfg = { b.cfg with imgLen := w32 (f.at_ 0 4), errCode := 0x10, errOff := 0 } ∧
          e.tx = b.tx ++ [responseFrame f b.pl.qcpEtype 0x31 0x10 0 (errPayload 0 0)] ∧ b.frame e [.qy, .pl, .cfg, .tx]) ∧
      Does (.qcpFwUpdate dt f) dt (fun b => b.inTurnRunning f ∧ b.hm.upd = .idle ∧ ∃ x, b.pl.session = some x ∧ x.owned = true)
        (fun b e => e.hm = { b.hm with upd := .verifying, updLen := f.at_ 0 4 } ∧
          (∃ d, e.pl.deferred = b.pl.deferred ++ [d] ∧ d.r.op = .fwUpdate ∧ d.r.f = f) ∧ b.frame e [.qy, .pl, .hm]) ∧
      Does (.qcpFwUpdate dt f) dt (fun b => b.inTurnRunning f ∧ (b.hm.upd ≠ .idle ∨ ∀ x, b.pl.session = some x → x.owned = false))
        (fun b e => e = (b.accepted f).respond b.pl.qcpEtype .fwUpdate f 0x3B (errPayload 0 0))) ∧
    (f.payload = [] → Does (.qcpAbort dt f) dt (fun b => b.inTurnRunning f ∧ b.cfg.state = .pending)
      (fun b e => e.cfg = { b.cfg with state := .discarded, errCode := 0x12, errOff := 0, pend := none } ∧
        e.tx = b.tx ++ [responseFrame f b.pl.qcpEtype 0x32 0 0 (toLe 4 e.imgStatus.toNat)] ∧ b.frame e [.qy, .pl, .cfg, .tx]) ∧
      Does (.qcpAbort dt f) dt (fun b => b.inTurnRunning f ∧ b.cfg.state ≠ .pending ∧ b.cfg.state ≠ .validating)
        (fun b e => e = (b.accepted f).respond b.pl.qcpEtype .abortImg f 0 (toLe 4 (b.accepted f).imgStatus.toNat))) ∧
    (f.payload.length = 2 →
      Does (.qcpSeal dt f) dt (fun b => b.inTurnRunning f ∧ (b.openSet (f.at_ 0 2)).isSome = true)
        (fun b e => (∃ d, e.pl.deferred = b.pl.deferred ++ [d] ∧ d.r.op = .sealSet ∧ d.r.f = f ∧ d.arg = f.at_ 0 2) ∧
          b.frame e [.qy, .pl]) ∧
      Does (.qcpSeal dt f) dt (fun b => b.inTurnRunning f ∧ b.openSet (f.at_ 0 2) = none)
        (fun b e => e = (b.accepted f).respond b.pl.qcpEtype .sealSet f 0x3A (errPayload 0 0))) ∧
    (∀ set (w : WeightDecl),
      (dt.errs = [] → Does (.sealComplete dt set) dt
        (fun b => b.sealing set = true ∧ b.openSet set = some w ∧ w.length ≤ (b.str.regionAt w.region).2 ∧
          b.refusal .device false (b.str.regionAt w.region).1 w.length = none ∧
          sha256 (b.dramRead (b.str.regionAt w.region).1 w.length) = w.hash)
        (fun b e => e.cfg = { b.cfg with sealedSets := b.cfg.sealedSets ++ [set] } ∧
          e.pl.deferred.length + 1 = b.pl.deferred.length ∧ b.frame e [.cfg, .pl, .tx, .mc, .draws])) ∧
      (dt.errs = [] → Does (.sealComplete dt set) dt
        (fun b => b.sealing set = true ∧ b.openSet set = some w ∧
          (b.refusal .device false (b.str.regionAt w.region).1 w.length ≠ none ∨
            sha256 (b.dramRead (b.str.regionAt w.region).1 w.length) ≠ w.hash))
        (fun b e => e.pl.deferred.length + 1 = b.pl.deferred.length ∧ b.frame e [.pl, .tx, .mc, .draws, .ic, .lh, .sn])) ∧
      Does (.sealComplete dt set) dt (fun b => b.sealing set = true ∧ (b.openSet set = none ∨
          b.openSet set = some w ∧ (b.str.regionAt w.region).2 < w.length))
        (fun b e => e.pl.deferred.length + 1 = b.pl.deferred.length ∧ b.frame e [.pl, .tx])) ∧
    (f.payload.length = 32 →
      Does (.qcpAttest dt f) dt (fun b => b.inTurnRunning f ∧ b.hm.idReady = true)
        (fun b e => e = (b.accepted f).respond b.pl.qcpEtype .attest f 0 (b.report f.payload))) ∧
    (f.payload.length = 772 → ∀ nonce : Hash,
      (∀ slots, DoesState (.qcpOwnerKey dt f) dt
        (fun b => b.chip.inTurnRunning f ∧ nonce = (match b.chip.pl.nonce with | some n => n.value | none => 0) ∧
          keyVerdict b.fuses.ownerSlots b.chip.hm.owner nonce b.chip.idHash f.payload = .accepted slots)
        (fun b e => e.fuses = { b.fuses with ownerSlots := slots } ∧ e.chip.hm = { b.chip.hm with owner := some (rsaOf (slice f.payload 0 384)) } ∧
          e.chip.id = { b.chip.id with ownerSlots := slots } ∧
          (b.flash.present = false → e.flash = b.flash) ∧
          (b.flash.present = true → e.flash = { b.flash with
            mem := (b.flash.mem.write ownerRecordAt (ownerRecord (slots.length - 1) (slice f.payload 0 384))) }) ∧
          e.chip.tx = b.chip.tx ++ [responseFrame f b.chip.pl.qcpEtype 0x63 0 0 (hashBytes (sha256 (slice f.payload 0 384)))] ∧
          b.chip.frame e.chip [.qy, .pl, .hm, .id, .tx])) ∧
      ∀ code addr, DoesState (.qcpOwnerKey dt f) dt
        (fun b => b.chip.inTurnRunning f ∧ nonce = (match b.chip.pl.nonce with | some n => n.value | none => 0) ∧
          keyVerdict b.fuses.ownerSlots b.chip.hm.owner nonce b.chip.idHash f.payload = .refused code addr)
        (fun b e => e.fuses = b.fuses ∧ e.flash = b.flash ∧ e.chip.hm = { b.chip.hm with err := setBit b.chip.hm.err 2 } ∧
          e.chip.tx = b.chip.tx ++ [responseFrame f b.chip.pl.qcpEtype 0x63 code 0 (errPayload addr 0)] ∧
          b.chip.frame e.chip [.qy, .pl, .hm, .ic, .lh, .sn, .tx]))

/-- Queries and frames to the host (R259, R261, R262, R279, R380, R416, R423): a complete record that no check refuses joins the
queue, or with no tokens to make ends at once as EMPTY; an incomplete one is staged until its last ids come, and is then checked as a
complete one; a failing one is recorded in SV_REJECT and answered with its code and offset; CANCEL ends a live query and discards a
staged one; RESEND sends logged token frames again, up to the first that is no longer held, which is answered 0x3C; an event frame
takes the next sequence and the source's count. A payload of another form is answered 0x31. -/
def Obligations.QueriesAndFramesToTheHost : Prop :=
  ∀ dt (f : QcpFrame),
    (f.payload.length % 4 = 0 → 0xB0 ≤ f.payload.length →
      Does (.qcpQuery dt f) dt
        (fun b => b.inTurnRunning f ∧ (queryOf f.payload).tokens.length = (queryOf f.payload).n ∧
          b.queryFails (queryOf f.payload) false = [] ∧ (queryOf f.payload).n ≠ 0 ∧ (queryOf f.payload).maxNew ≠ 0)
        (fun b e => e.sv = { b.sv with queue := b.sv.queue ++ [queryOf f.payload] } ∧ e.pl.next = f.seq + 1 ∧
          (∃ t, e.tx = b.tx ++ [t]) ∧ b.frame e [.qy, .sv, .pl, .tx]) ∧
      Does (.qcpQuery dt f) dt
        (fun b => b.inTurnRunning f ∧ (queryOf f.payload).tokens.length = (queryOf f.payload).n ∧
          b.queryFails (queryOf f.payload) false = [] ∧ ((queryOf f.payload).n = 0 ∨ (queryOf f.payload).maxNew = 0))
        (fun b e => e.sv = { b.sv with tokens := sat64 b.sv.tokens } ∧ e.pl.tokNext = b.pl.tokNext + 1 ∧ e.tx.length = b.tx.length + 2) ∧
      (∀ code off, Does (.qcpQuery dt f) dt
        (fun b => b.inTurnRunning f ∧ (queryOf f.payload).tokens.length = (queryOf f.payload).n ∧
          firstFail (b.queryFails (queryOf f.payload) false) = some (code, off))
        (fun b e => e.sv = { b.sv with reject := BitVec.ofNat 32 (off % 65536 * 65536 + code), err := setBit b.sv.err 0 } ∧
          e.tx = b.tx ++ [responseFrame f b.pl.qcpEtype 0x40 code 0 (errPayload off 0)] ∧ b.frame e [.qy, .sv, .pl, .ic, .lh, .sn, .tx])) ∧
      Does (.qcpQuery dt f) dt
        (fun b => b.inTurnRunning f ∧ (queryOf f.payload).tokens.length < (queryOf f.payload).n ∧ b.sv.staged.length < 16 ∧
          b.liveQuery (queryOf f.payload).id = false ∧ ∀ x ∈ b.sv.staged, x.id ≠ (queryOf f.payload).id)
        (fun b e => e.sv = { b.sv with staged := b.sv.staged ++ [queryOf f.payload] } ∧ (∃ t, e.tx = b.tx ++ [t]) ∧
          b.frame e [.qy, .sv, .pl, .tx]) ∧
      ∀ code, Does (.qcpQuery dt f) dt
        (fun b => b.inTurnRunning f ∧ (queryOf f.payload).tokens.length < (queryOf f.payload).n ∧
          (16 ≤ b.sv.staged.length ∨ b.liveQuery (queryOf f.payload).id = true ∨ ∃ x ∈ b.sv.staged, x.id = (queryOf f.payload).id) ∧
          code = if 16 ≤ b.sv.staged.length then 0x22 else 0x23)
        (fun b e => e.sv = { b.sv with reject := BitVec.ofNat 32 code, err := setBit b.sv.err 0 } ∧
          e.tx = b.tx ++ [responseFrame f b.pl.qcpEtype 0x40 code 0 (errPayload 0 0)] ∧ b.frame e [.qy, .sv, .pl, .ic, .lh, .sn, .tx])) ∧
    (f.payload.length % 4 ≠ 0 ∨ f.payload.length < 0xB0 ∨ (queryOf f.payload).n < (queryOf f.payload).tokens.length →
      Does (.qcpQuery dt f) dt (fun b => b.inTurnRunning f)
        (fun b e => e = (b.accepted f).respond b.pl.qcpEtype .query f 0x31 (errPayload 0 0))) ∧
    (∀ (q : Query) (ids : List Nat), ids ≠ [] → (∀ t ∈ ids, t < 2 ^ 32) → ids.length ≤ 2048 → q.tokens.length < 2 ^ 32 →
      f.payload = toLe 4 q.id.toNat ++ toLe 4 q.tokens.length ++ toLe 4 ids.length ++ ids.flatMap (toLe 4) →
      (q.tokens.length + ids.length < q.n → Does (.qcpQueryTokens dt f) dt
        (fun b => b.inTurnRunning f ∧ b.sv.staged.find? (fun x => x.id == q.id) = some q)
        (fun b e => e.sv = { b.sv with staged := b.sv.staged.map (fun x => if x.id == q.id then { q with tokens := q.tokens ++ ids } else x) } ∧
          (∃ t, e.tx = b.tx ++ [t]) ∧ b.frame e [.qy, .sv, .pl, .tx])) ∧
      (q.tokens.length + ids.length = q.n → q.maxNew ≠ 0 → Does (.qcpQueryTokens dt f) dt
        (fun b => b.inTurnRunning f ∧ b.sv.staged.find? (fun x => x.id == q.id) = some q ∧
          b.queryFails { q with tokens := q.tokens ++ ids } true = [])
        (fun b e => e.sv = { b.sv with
            staged := b.sv.staged.filter (fun x => x.id != q.id), queue := b.sv.queue ++ [{ q with tokens := q.tokens ++ ids }] } ∧
          (∃ t, e.tx = b.tx ++ [t]) ∧ b.frame e [.qy, .sv, .pl, .tx])) ∧
      (q.tokens.length + ids.length = q.n → q.maxNew = 0 → Does (.qcpQueryTokens dt f) dt
        (fun b => b.inTurnRunning f ∧ b.sv.staged.find? (fun x => x.id == q.id) = some q ∧
          b.queryFails { q with tokens := q.tokens ++ ids } true = [])
        (fun b e => e.sv = { b.sv with staged := b.sv.staged.filter (fun x => x.id != q.id), tokens := sat64 b.sv.tokens } ∧
          e.pl.tokNext = b.pl.tokNext + 1 ∧ e.tx.length = b.tx.length + 2)) ∧
      (∀ code off, q.tokens.length + ids.length = q.n → Does (.qcpQueryTokens dt f) dt
        (fun b => b.inTurnRunning f ∧ b.sv.staged.find? (fun x => x.id == q.id) = some q ∧
          firstFail (b.queryFails { q with tokens := q.tokens ++ ids } true) = some (code, off))
        (fun b e => e.sv = { b.sv with
            staged := b.sv.staged.filter (fun x => x.id != q.id), reject := BitVec.ofNat 32 (off % 65536 * 65536 + code)
            err := setBit b.sv.err 0 } ∧
          e.tx = b.tx ++ [responseFrame f b.pl.qcpEtype 0x43 code 0 (errPayload off 0)] ∧
          b.frame e [.qy, .sv, .pl, .ic, .lh, .sn, .tx])) ∧
      Does (.qcpQueryTokens dt f) dt
        (fun b => b.inTurnRunning f ∧ ∀ x, b.sv.staged.find? (fun x => x.id == q.id) = some x →
          x.tokens.length ≠ q.tokens.length ∨ x.n < q.tokens.length + ids.length)
        (fun b e => e = (b.accepted f).respond b.pl.qcpEtype .queryTokens f 0x31 (errPayload 0 0))) ∧
    (f.payload.length = 4 →
      Does (.qcpCancel dt f) dt (fun b => b.inTurnRunning f)
        (fun b e => e = (((b.accepted f).cancelQuery (w32 (f.at_ 0 4))).dropStaged (w32 (f.at_ 0 4))).respond b.pl.qcpEtype .cancel f 0 []) ∧
      Does (.qcpCancel dt f) dt
        (fun b => b.inTurnRunning f ∧ (∀ s ∈ b.sv.seqs, s.q.id ≠ w32 (f.at_ 0 4)) ∧ ∃ q ∈ b.sv.queue, q.id = w32 (f.at_ 0 4))
        (fun b e => e.sv.queue = b.sv.queue.filter (fun q => q.id != w32 (f.at_ 0 4)) ∧
          e.sv.staged = b.sv.staged.filter (fun q => q.id != w32 (f.at_ 0 4)) ∧ e.pl.tokNext = b.pl.tokNext + 1 ∧
          e.tx.length = b.tx.length + 2)) ∧
    (∀ (ts : List TokFrame) (seq : Word) n, 0 < n → n ≤ 256 → f.payload = toLe 4 seq.toNat ++ toLe 2 n →
      (ts.length = n → Does (.qcpResend dt f) dt
        (fun b => b.inTurnRunning f ∧
          ∀ i t, ts[i]? = some t → b.pl.tokLog.find? (fun x => x.seq == seq + BitVec.ofNat 32 i) = some t)
        (fun b e => b.tx <+: e.tx ∧ (e.tx.drop b.tx.length).map (·.bytes) = ts.map (fun t => qcpFrame 3 0 t.seq f.session 0 0 t.payload) ++
            [(responseFrame f b.pl.qcpEtype 0x42 0 0 (toLe 2 n)).bytes] ∧ b.frame e [.qy, .pl, .tx])) ∧
      (ts.length < n → Does (.qcpResend dt f) dt
        (fun b => b.inTurnRunning f ∧
          (∀ i t, ts[i]? = some t → b.pl.tokLog.find? (fun x => x.seq == seq + BitVec.ofNat 32 i) = some t) ∧
          b.pl.tokLog.find? (fun x => x.seq == seq + BitVec.ofNat 32 ts.length) = none)
        (fun b e => b.tx <+: e.tx ∧ (e.tx.drop b.tx.length).map (·.bytes) = ts.map (fun t => qcpFrame 3 0 t.seq f.session 0 0 t.payload) ++
            [(responseFrame f b.pl.qcpEtype 0x42 0x3C 0 (errPayload (seq + BitVec.ofNat 32 ts.length).toNat ts.length)).bytes] ∧
          b.frame e [.qy, .pl, .tx]))) ∧
    (f.payload.length ≠ 6 ∨ f.at_ 4 2 = 0 ∨ 256 < f.at_ 4 2 → Does (.qcpResend dt f) dt (fun b => b.inTurnRunning f)
      (fun b e => e = (b.accepted f).respond b.pl.qcpEtype .resend f 0x31 (errPayload 0 0))) ∧
    ∀ n (x : Session), n < 1024 → Does (.eventFrameSend dt) dt
      (fun b => b.canSendEvent = true ∧ b.ic.nextEvent = some n ∧ b.pl.session = some x)
      (fun b e => (∃ t, e.tx = b.tx ++ [t] ∧ t.dst = x.mac ∧ t.port = x.port ∧
          t.bytes = qcpFrame 2 0 (b.ic.evtSeq + 1) x.id 0 0 (b.eventPayload (b.ic.evtSeq + 1) n)) ∧
        e.ic = { b.ic with evtSeq := b.ic.evtSeq + 1, count := vset b.ic.count n 0 } ∧ b.frame e [.qy, .ic, .tx])

/-- SNAPSHOT, WARM_RESET and SLEEP of the host (R418, R485, R495, R524): SNAPSHOT asks for a snapshot of cause 2 and is answered;
WARM_RESET with its magic is answered and then resets; SLEEP is answered and begins entry, or is refused with code 0x3B for a watch
stream that is not active. -/
def Obligations.SnapshotResetAndSleepCommands : Prop :=
  ∀ dt (f : QcpFrame),
    (f.payload = [] → Does (.qcpSnapshot dt f) dt (fun b => b.inTurnRunning f)
      (fun b e => e = ((b.accepted f).updSn (fun s => { s with ask := s.ask ++ [(2, 0)] })).respond b.pl.qcpEtype .snapshot f 0 [])) ∧
    (f.payload = toLe 4 0x5741524D → DoesState (.qcpWarmReset dt f) dt (fun b => b.chip.inTurnRunning f)
      (fun b e => e.chip.hm.stage = .rom ∧ e.chip.hm.bootCount = satInc b.chip.hm.bootCount ∧ e.chip.clk.dev = 0 ∧
        e.chip.basin = [] ∧ e.chip.dram = b.chip.dram ∧ e.chip.pl.session = none ∧
        e.chip.tx = b.chip.tx ++ [responseFrame f b.chip.pl.qcpEtype 0x51 0 0 []] ∧ e.fuses = b.fuses ∧ e.flash = b.flash)) ∧
    (f.payload ≠ toLe 4 0x5741524D → Does (.qcpWarmReset dt f) dt (fun b => b.inTurnRunning f)
      (fun b e => e = (b.accepted f).respond b.pl.qcpEtype .warmReset f 0x31 (errPayload 0 0))) ∧
    (f.payload.length = 1 →
      Does (.qcpSleep dt f) dt (fun b => b.inTurnRunning f ∧ (f.at_ 0 1 = 1 → b.watchStream.isSome = true))
        (fun b e => e.lh.st = .entering ∧ e.lh.watch = (f.at_ 0 1 == 1) ∧ e.pl.session = none ∧ e.sv.queue = [] ∧ e.sv.staged = [] ∧
          responseFrame f b.pl.qcpEtype 0x52 0 0 [] ∈ e.tx) ∧
      Does (.qcpSleep dt f) dt (fun b => b.inTurnRunning f ∧ f.at_ 0 1 = 1 ∧ b.watchStream = none)
        (fun b e => e = (b.accepted f).respond b.pl.qcpEtype .sleep f 0x3B (errPayload 0 0)))
end

