-- ==== Sys2Proof/Laws/State.lean ====
section
/-! SUPPORT. The plainest laws of the state: for each update of one block, that block's new value and that every other block is as it was.
Each theorem is true by rfl and holds one clause per block, so that no proof unfolds a record update. -/

namespace Sys2Proof.Machine

variable (c : Chip)

@[simp] theorem Chip.updClk_blocks (f : Clocks → Clocks) :
    (c.updClk f).clk = f c.clk ∧ (c.updClk f).por = c.por ∧ (c.updClk f).id = c.id ∧ (c.updClk f).draws = c.draws ∧ (c.updClk f).cfg =
    c.cfg ∧ (c.updClk f).qy = c.qy ∧ (c.updClk f).me = c.me ∧ (c.updClk f).sd = c.sd ∧ (c.updClk f).oc = c.oc ∧ (c.updClk f).fg = c.fg ∧
    (c.updClk f).sv = c.sv ∧ (c.updClk f).tt = c.tt ∧ (c.updClk f).mc = c.mc ∧ (c.updClk f).bs = c.bs ∧ (c.updClk f).sy = c.sy ∧ (c.updClk
    f).ic = c.ic ∧ (c.updClk f).so = c.so ∧ (c.updClk f).pl = c.pl ∧ (c.updClk f).hm = c.hm ∧ (c.updClk f).lg = c.lg ∧ (c.updClk f).pm =
    c.pm ∧ (c.updClk f).lh = c.lh ∧ (c.updClk f).tm = c.tm ∧ (c.updClk f).sn = c.sn ∧ (c.updClk f).dram = c.dram ∧ (c.updClk f).basin =
    c.basin ∧ (c.updClk f).sram = c.sram ∧ (c.updClk f).tx = c.tx ∧ (c.updClk f).bus = c.bus ∧
    (c.updClk f).met = c.met := by
  and_intros <;> rfl

@[simp] theorem Chip.updId_blocks (f : Ident → Ident) :
    (c.updId f).clk = c.clk ∧ (c.updId f).por = c.por ∧ (c.updId f).id = f c.id ∧ (c.updId f).draws = c.draws ∧ (c.updId f).cfg = c.cfg ∧
    (c.updId f).qy = c.qy ∧ (c.updId f).me = c.me ∧ (c.updId f).sd = c.sd ∧ (c.updId f).oc = c.oc ∧ (c.updId f).fg = c.fg ∧ (c.updId f).sv
    = c.sv ∧ (c.updId f).tt = c.tt ∧ (c.updId f).mc = c.mc ∧ (c.updId f).bs = c.bs ∧ (c.updId f).sy = c.sy ∧ (c.updId f).ic = c.ic ∧
    (c.updId f).so = c.so ∧ (c.updId f).pl = c.pl ∧ (c.updId f).hm = c.hm ∧ (c.updId f).lg = c.lg ∧ (c.updId f).pm = c.pm ∧ (c.updId f).lh
    = c.lh ∧ (c.updId f).tm = c.tm ∧ (c.updId f).sn = c.sn ∧ (c.updId f).dram = c.dram ∧ (c.updId f).basin = c.basin ∧ (c.updId f).sram =
    c.sram ∧ (c.updId f).tx = c.tx ∧ (c.updId f).bus = c.bus ∧
    (c.updId f).met = c.met := by
  and_intros <;> rfl

@[simp] theorem Chip.updCfg_blocks (f : Cfg → Cfg) :
    (c.updCfg f).clk = c.clk ∧ (c.updCfg f).por = c.por ∧ (c.updCfg f).id = c.id ∧ (c.updCfg f).draws = c.draws ∧ (c.updCfg f).cfg = f
    c.cfg ∧ (c.updCfg f).qy = c.qy ∧ (c.updCfg f).me = c.me ∧ (c.updCfg f).sd = c.sd ∧ (c.updCfg f).oc = c.oc ∧ (c.updCfg f).fg = c.fg ∧
    (c.updCfg f).sv = c.sv ∧ (c.updCfg f).tt = c.tt ∧ (c.updCfg f).mc = c.mc ∧ (c.updCfg f).bs = c.bs ∧ (c.updCfg f).sy = c.sy ∧ (c.updCfg
    f).ic = c.ic ∧ (c.updCfg f).so = c.so ∧ (c.updCfg f).pl = c.pl ∧ (c.updCfg f).hm = c.hm ∧ (c.updCfg f).lg = c.lg ∧ (c.updCfg f).pm =
    c.pm ∧ (c.updCfg f).lh = c.lh ∧ (c.updCfg f).tm = c.tm ∧ (c.updCfg f).sn = c.sn ∧ (c.updCfg f).dram = c.dram ∧ (c.updCfg f).basin =
    c.basin ∧ (c.updCfg f).sram = c.sram ∧ (c.updCfg f).tx = c.tx ∧ (c.updCfg f).bus = c.bus ∧
    (c.updCfg f).met = c.met := by
  and_intros <;> rfl

@[simp] theorem Chip.updQy_blocks (f : Quay → Quay) :
    (c.updQy f).clk = c.clk ∧ (c.updQy f).por = c.por ∧ (c.updQy f).id = c.id ∧ (c.updQy f).draws = c.draws ∧ (c.updQy f).cfg = c.cfg ∧
    (c.updQy f).qy = f c.qy ∧ (c.updQy f).me = c.me ∧ (c.updQy f).sd = c.sd ∧ (c.updQy f).oc = c.oc ∧ (c.updQy f).fg = c.fg ∧ (c.updQy
    f).sv = c.sv ∧ (c.updQy f).tt = c.tt ∧ (c.updQy f).mc = c.mc ∧ (c.updQy f).bs = c.bs ∧ (c.updQy f).sy = c.sy ∧ (c.updQy f).ic = c.ic ∧
    (c.updQy f).so = c.so ∧ (c.updQy f).pl = c.pl ∧ (c.updQy f).hm = c.hm ∧ (c.updQy f).lg = c.lg ∧ (c.updQy f).pm = c.pm ∧ (c.updQy f).lh
    = c.lh ∧ (c.updQy f).tm = c.tm ∧ (c.updQy f).sn = c.sn ∧ (c.updQy f).dram = c.dram ∧ (c.updQy f).basin = c.basin ∧ (c.updQy f).sram =
    c.sram ∧ (c.updQy f).tx = c.tx ∧ (c.updQy f).bus = c.bus ∧
    (c.updQy f).met = c.met := by
  and_intros <;> rfl

@[simp] theorem Chip.updMe_blocks (f : Motion → Motion) :
    (c.updMe f).clk = c.clk ∧ (c.updMe f).por = c.por ∧ (c.updMe f).id = c.id ∧ (c.updMe f).draws = c.draws ∧ (c.updMe f).cfg = c.cfg ∧
    (c.updMe f).qy = c.qy ∧ (c.updMe f).me = f c.me ∧ (c.updMe f).sd = c.sd ∧ (c.updMe f).oc = c.oc ∧ (c.updMe f).fg = c.fg ∧ (c.updMe
    f).sv = c.sv ∧ (c.updMe f).tt = c.tt ∧ (c.updMe f).mc = c.mc ∧ (c.updMe f).bs = c.bs ∧ (c.updMe f).sy = c.sy ∧ (c.updMe f).ic = c.ic ∧
    (c.updMe f).so = c.so ∧ (c.updMe f).pl = c.pl ∧ (c.updMe f).hm = c.hm ∧ (c.updMe f).lg = c.lg ∧ (c.updMe f).pm = c.pm ∧ (c.updMe f).lh
    = c.lh ∧ (c.updMe f).tm = c.tm ∧ (c.updMe f).sn = c.sn ∧ (c.updMe f).dram = c.dram ∧ (c.updMe f).basin = c.basin ∧ (c.updMe f).sram =
    c.sram ∧ (c.updMe f).tx = c.tx ∧ (c.updMe f).bus = c.bus ∧
    (c.updMe f).met = c.met := by
  and_intros <;> rfl

@[simp] theorem Chip.updSd_blocks (f : Disparity → Disparity) :
    (c.updSd f).clk = c.clk ∧ (c.updSd f).por = c.por ∧ (c.updSd f).id = c.id ∧ (c.updSd f).draws = c.draws ∧ (c.updSd f).cfg = c.cfg ∧
    (c.updSd f).qy = c.qy ∧ (c.updSd f).me = c.me ∧ (c.updSd f).sd = f c.sd ∧ (c.updSd f).oc = c.oc ∧ (c.updSd f).fg = c.fg ∧ (c.updSd
    f).sv = c.sv ∧ (c.updSd f).tt = c.tt ∧ (c.updSd f).mc = c.mc ∧ (c.updSd f).bs = c.bs ∧ (c.updSd f).sy = c.sy ∧ (c.updSd f).ic = c.ic ∧
    (c.updSd f).so = c.so ∧ (c.updSd f).pl = c.pl ∧ (c.updSd f).hm = c.hm ∧ (c.updSd f).lg = c.lg ∧ (c.updSd f).pm = c.pm ∧ (c.updSd f).lh
    = c.lh ∧ (c.updSd f).tm = c.tm ∧ (c.updSd f).sn = c.sn ∧ (c.updSd f).dram = c.dram ∧ (c.updSd f).basin = c.basin ∧ (c.updSd f).sram =
    c.sram ∧ (c.updSd f).tx = c.tx ∧ (c.updSd f).bus = c.bus ∧
    (c.updSd f).met = c.met := by
  and_intros <;> rfl

@[simp] theorem Chip.updOc_blocks (f : Orchard → Orchard) :
    (c.updOc f).clk = c.clk ∧ (c.updOc f).por = c.por ∧ (c.updOc f).id = c.id ∧ (c.updOc f).draws = c.draws ∧ (c.updOc f).cfg = c.cfg ∧
    (c.updOc f).qy = c.qy ∧ (c.updOc f).me = c.me ∧ (c.updOc f).sd = c.sd ∧ (c.updOc f).oc = f c.oc ∧ (c.updOc f).fg = c.fg ∧ (c.updOc
    f).sv = c.sv ∧ (c.updOc f).tt = c.tt ∧ (c.updOc f).mc = c.mc ∧ (c.updOc f).bs = c.bs ∧ (c.updOc f).sy = c.sy ∧ (c.updOc f).ic = c.ic ∧
    (c.updOc f).so = c.so ∧ (c.updOc f).pl = c.pl ∧ (c.updOc f).hm = c.hm ∧ (c.updOc f).lg = c.lg ∧ (c.updOc f).pm = c.pm ∧ (c.updOc f).lh
    = c.lh ∧ (c.updOc f).tm = c.tm ∧ (c.updOc f).sn = c.sn ∧ (c.updOc f).dram = c.dram ∧ (c.updOc f).basin = c.basin ∧ (c.updOc f).sram =
    c.sram ∧ (c.updOc f).tx = c.tx ∧ (c.updOc f).bus = c.bus ∧
    (c.updOc f).met = c.met := by
  and_intros <;> rfl

@[simp] theorem Chip.updFg_blocks (f : FrameGen → FrameGen) :
    (c.updFg f).clk = c.clk ∧ (c.updFg f).por = c.por ∧ (c.updFg f).id = c.id ∧ (c.updFg f).draws = c.draws ∧ (c.updFg f).cfg = c.cfg ∧
    (c.updFg f).qy = c.qy ∧ (c.updFg f).me = c.me ∧ (c.updFg f).sd = c.sd ∧ (c.updFg f).oc = c.oc ∧ (c.updFg f).fg = f c.fg ∧ (c.updFg
    f).sv = c.sv ∧ (c.updFg f).tt = c.tt ∧ (c.updFg f).mc = c.mc ∧ (c.updFg f).bs = c.bs ∧ (c.updFg f).sy = c.sy ∧ (c.updFg f).ic = c.ic ∧
    (c.updFg f).so = c.so ∧ (c.updFg f).pl = c.pl ∧ (c.updFg f).hm = c.hm ∧ (c.updFg f).lg = c.lg ∧ (c.updFg f).pm = c.pm ∧ (c.updFg f).lh
    = c.lh ∧ (c.updFg f).tm = c.tm ∧ (c.updFg f).sn = c.sn ∧ (c.updFg f).dram = c.dram ∧ (c.updFg f).basin = c.basin ∧ (c.updFg f).sram =
    c.sram ∧ (c.updFg f).tx = c.tx ∧ (c.updFg f).bus = c.bus ∧
    (c.updFg f).met = c.met := by
  and_intros <;> rfl

@[simp] theorem Chip.updSv_blocks (f : Serving → Serving) :
    (c.updSv f).clk = c.clk ∧ (c.updSv f).por = c.por ∧ (c.updSv f).id = c.id ∧ (c.updSv f).draws = c.draws ∧ (c.updSv f).cfg = c.cfg ∧
    (c.updSv f).qy = c.qy ∧ (c.updSv f).me = c.me ∧ (c.updSv f).sd = c.sd ∧ (c.updSv f).oc = c.oc ∧ (c.updSv f).fg = c.fg ∧ (c.updSv f).sv
    = f c.sv ∧ (c.updSv f).tt = c.tt ∧ (c.updSv f).mc = c.mc ∧ (c.updSv f).bs = c.bs ∧ (c.updSv f).sy = c.sy ∧ (c.updSv f).ic = c.ic ∧
    (c.updSv f).so = c.so ∧ (c.updSv f).pl = c.pl ∧ (c.updSv f).hm = c.hm ∧ (c.updSv f).lg = c.lg ∧ (c.updSv f).pm = c.pm ∧ (c.updSv f).lh
    = c.lh ∧ (c.updSv f).tm = c.tm ∧ (c.updSv f).sn = c.sn ∧ (c.updSv f).dram = c.dram ∧ (c.updSv f).basin = c.basin ∧ (c.updSv f).sram =
    c.sram ∧ (c.updSv f).tx = c.tx ∧ (c.updSv f).bus = c.bus ∧
    (c.updSv f).met = c.met := by
  and_intros <;> rfl

@[simp] theorem Chip.updTt_blocks (f : Sched → Sched) :
    (c.updTt f).clk = c.clk ∧ (c.updTt f).por = c.por ∧ (c.updTt f).id = c.id ∧ (c.updTt f).draws = c.draws ∧ (c.updTt f).cfg = c.cfg ∧
    (c.updTt f).qy = c.qy ∧ (c.updTt f).me = c.me ∧ (c.updTt f).sd = c.sd ∧ (c.updTt f).oc = c.oc ∧ (c.updTt f).fg = c.fg ∧ (c.updTt f).sv
    = c.sv ∧ (c.updTt f).tt = f c.tt ∧ (c.updTt f).mc = c.mc ∧ (c.updTt f).bs = c.bs ∧ (c.updTt f).sy = c.sy ∧ (c.updTt f).ic = c.ic ∧
    (c.updTt f).so = c.so ∧ (c.updTt f).pl = c.pl ∧ (c.updTt f).hm = c.hm ∧ (c.updTt f).lg = c.lg ∧ (c.updTt f).pm = c.pm ∧ (c.updTt f).lh
    = c.lh ∧ (c.updTt f).tm = c.tm ∧ (c.updTt f).sn = c.sn ∧ (c.updTt f).dram = c.dram ∧ (c.updTt f).basin = c.basin ∧ (c.updTt f).sram =
    c.sram ∧ (c.updTt f).tx = c.tx ∧ (c.updTt f).bus = c.bus ∧
    (c.updTt f).met = c.met := by
  and_intros <;> rfl

@[simp] theorem Chip.updMc_blocks (f : MemCtl → MemCtl) :
    (c.updMc f).clk = c.clk ∧ (c.updMc f).por = c.por ∧ (c.updMc f).id = c.id ∧ (c.updMc f).draws = c.draws ∧ (c.updMc f).cfg = c.cfg ∧
    (c.updMc f).qy = c.qy ∧ (c.updMc f).me = c.me ∧ (c.updMc f).sd = c.sd ∧ (c.updMc f).oc = c.oc ∧ (c.updMc f).fg = c.fg ∧ (c.updMc f).sv
    = c.sv ∧ (c.updMc f).tt = c.tt ∧ (c.updMc f).mc = f c.mc ∧ (c.updMc f).bs = c.bs ∧ (c.updMc f).sy = c.sy ∧ (c.updMc f).ic = c.ic ∧
    (c.updMc f).so = c.so ∧ (c.updMc f).pl = c.pl ∧ (c.updMc f).hm = c.hm ∧ (c.updMc f).lg = c.lg ∧ (c.updMc f).pm = c.pm ∧ (c.updMc f).lh
    = c.lh ∧ (c.updMc f).tm = c.tm ∧ (c.updMc f).sn = c.sn ∧ (c.updMc f).dram = c.dram ∧ (c.updMc f).basin = c.basin ∧ (c.updMc f).sram =
    c.sram ∧ (c.updMc f).tx = c.tx ∧ (c.updMc f).bus = c.bus ∧
    (c.updMc f).met = c.met := by
  and_intros <;> rfl

@[simp] theorem Chip.updBs_blocks (f : BasinCtl → BasinCtl) :
    (c.updBs f).clk = c.clk ∧ (c.updBs f).por = c.por ∧ (c.updBs f).id = c.id ∧ (c.updBs f).draws = c.draws ∧ (c.updBs f).cfg = c.cfg ∧
    (c.updBs f).qy = c.qy ∧ (c.updBs f).me = c.me ∧ (c.updBs f).sd = c.sd ∧ (c.updBs f).oc = c.oc ∧ (c.updBs f).fg = c.fg ∧ (c.updBs f).sv
    = c.sv ∧ (c.updBs f).tt = c.tt ∧ (c.updBs f).mc = c.mc ∧ (c.updBs f).bs = f c.bs ∧ (c.updBs f).sy = c.sy ∧ (c.updBs f).ic = c.ic ∧
    (c.updBs f).so = c.so ∧ (c.updBs f).pl = c.pl ∧ (c.updBs f).hm = c.hm ∧ (c.updBs f).lg = c.lg ∧ (c.updBs f).pm = c.pm ∧ (c.updBs f).lh
    = c.lh ∧ (c.updBs f).tm = c.tm ∧ (c.updBs f).sn = c.sn ∧ (c.updBs f).dram = c.dram ∧ (c.updBs f).basin = c.basin ∧ (c.updBs f).sram =
    c.sram ∧ (c.updBs f).tx = c.tx ∧ (c.updBs f).bus = c.bus ∧
    (c.updBs f).met = c.met := by
  and_intros <;> rfl

@[simp] theorem Chip.updSy_blocks (f : SyncCtl → SyncCtl) :
    (c.updSy f).clk = c.clk ∧ (c.updSy f).por = c.por ∧ (c.updSy f).id = c.id ∧ (c.updSy f).draws = c.draws ∧ (c.updSy f).cfg = c.cfg ∧
    (c.updSy f).qy = c.qy ∧ (c.updSy f).me = c.me ∧ (c.updSy f).sd = c.sd ∧ (c.updSy f).oc = c.oc ∧ (c.updSy f).fg = c.fg ∧ (c.updSy f).sv
    = c.sv ∧ (c.updSy f).tt = c.tt ∧ (c.updSy f).mc = c.mc ∧ (c.updSy f).bs = c.bs ∧ (c.updSy f).sy = f c.sy ∧ (c.updSy f).ic = c.ic ∧
    (c.updSy f).so = c.so ∧ (c.updSy f).pl = c.pl ∧ (c.updSy f).hm = c.hm ∧ (c.updSy f).lg = c.lg ∧ (c.updSy f).pm = c.pm ∧ (c.updSy f).lh
    = c.lh ∧ (c.updSy f).tm = c.tm ∧ (c.updSy f).sn = c.sn ∧ (c.updSy f).dram = c.dram ∧ (c.updSy f).basin = c.basin ∧ (c.updSy f).sram =
    c.sram ∧ (c.updSy f).tx = c.tx ∧ (c.updSy f).bus = c.bus ∧
    (c.updSy f).met = c.met := by
  and_intros <;> rfl

@[simp] theorem Chip.updIc_blocks (f : IntCtl → IntCtl) :
    (c.updIc f).clk = c.clk ∧ (c.updIc f).por = c.por ∧ (c.updIc f).id = c.id ∧ (c.updIc f).draws = c.draws ∧ (c.updIc f).cfg = c.cfg ∧
    (c.updIc f).qy = c.qy ∧ (c.updIc f).me = c.me ∧ (c.updIc f).sd = c.sd ∧ (c.updIc f).oc = c.oc ∧ (c.updIc f).fg = c.fg ∧ (c.updIc f).sv
    = c.sv ∧ (c.updIc f).tt = c.tt ∧ (c.updIc f).mc = c.mc ∧ (c.updIc f).bs = c.bs ∧ (c.updIc f).sy = c.sy ∧ (c.updIc f).ic = f c.ic ∧
    (c.updIc f).so = c.so ∧ (c.updIc f).pl = c.pl ∧ (c.updIc f).hm = c.hm ∧ (c.updIc f).lg = c.lg ∧ (c.updIc f).pm = c.pm ∧ (c.updIc f).lh
    = c.lh ∧ (c.updIc f).tm = c.tm ∧ (c.updIc f).sn = c.sn ∧ (c.updIc f).dram = c.dram ∧ (c.updIc f).basin = c.basin ∧ (c.updIc f).sram =
    c.sram ∧ (c.updIc f).tx = c.tx ∧ (c.updIc f).bus = c.bus ∧
    (c.updIc f).met = c.met := by
  and_intros <;> rfl

@[simp] theorem Chip.updSo_blocks (f : ScanOut → ScanOut) :
    (c.updSo f).clk = c.clk ∧ (c.updSo f).por = c.por ∧ (c.updSo f).id = c.id ∧ (c.updSo f).draws = c.draws ∧ (c.updSo f).cfg = c.cfg ∧
    (c.updSo f).qy = c.qy ∧ (c.updSo f).me = c.me ∧ (c.updSo f).sd = c.sd ∧ (c.updSo f).oc = c.oc ∧ (c.updSo f).fg = c.fg ∧ (c.updSo f).sv
    = c.sv ∧ (c.updSo f).tt = c.tt ∧ (c.updSo f).mc = c.mc ∧ (c.updSo f).bs = c.bs ∧ (c.updSo f).sy = c.sy ∧ (c.updSo f).ic = c.ic ∧
    (c.updSo f).so = f c.so ∧ (c.updSo f).pl = c.pl ∧ (c.updSo f).hm = c.hm ∧ (c.updSo f).lg = c.lg ∧ (c.updSo f).pm = c.pm ∧ (c.updSo
    f).lh = c.lh ∧ (c.updSo f).tm = c.tm ∧ (c.updSo f).sn = c.sn ∧ (c.updSo f).dram = c.dram ∧ (c.updSo f).basin = c.basin ∧ (c.updSo
    f).sram = c.sram ∧ (c.updSo f).tx = c.tx ∧ (c.updSo f).bus = c.bus ∧
    (c.updSo f).met = c.met := by
  and_intros <;> rfl

@[simp] theorem Chip.updPl_blocks (f : Proto → Proto) :
    (c.updPl f).clk = c.clk ∧ (c.updPl f).por = c.por ∧ (c.updPl f).id = c.id ∧ (c.updPl f).draws = c.draws ∧ (c.updPl f).cfg = c.cfg ∧
    (c.updPl f).qy = c.qy ∧ (c.updPl f).me = c.me ∧ (c.updPl f).sd = c.sd ∧ (c.updPl f).oc = c.oc ∧ (c.updPl f).fg = c.fg ∧ (c.updPl f).sv
    = c.sv ∧ (c.updPl f).tt = c.tt ∧ (c.updPl f).mc = c.mc ∧ (c.updPl f).bs = c.bs ∧ (c.updPl f).sy = c.sy ∧ (c.updPl f).ic = c.ic ∧
    (c.updPl f).so = c.so ∧ (c.updPl f).pl = f c.pl ∧ (c.updPl f).hm = c.hm ∧ (c.updPl f).lg = c.lg ∧ (c.updPl f).pm = c.pm ∧ (c.updPl
    f).lh = c.lh ∧ (c.updPl f).tm = c.tm ∧ (c.updPl f).sn = c.sn ∧ (c.updPl f).dram = c.dram ∧ (c.updPl f).basin = c.basin ∧ (c.updPl
    f).sram = c.sram ∧ (c.updPl f).tx = c.tx ∧ (c.updPl f).bus = c.bus ∧
    (c.updPl f).met = c.met := by
  and_intros <;> rfl

@[simp] theorem Chip.updHm_blocks (f : Harbour → Harbour) :
    (c.updHm f).clk = c.clk ∧ (c.updHm f).por = c.por ∧ (c.updHm f).id = c.id ∧ (c.updHm f).draws = c.draws ∧ (c.updHm f).cfg = c.cfg ∧
    (c.updHm f).qy = c.qy ∧ (c.updHm f).me = c.me ∧ (c.updHm f).sd = c.sd ∧ (c.updHm f).oc = c.oc ∧ (c.updHm f).fg = c.fg ∧ (c.updHm f).sv
    = c.sv ∧ (c.updHm f).tt = c.tt ∧ (c.updHm f).mc = c.mc ∧ (c.updHm f).bs = c.bs ∧ (c.updHm f).sy = c.sy ∧ (c.updHm f).ic = c.ic ∧
    (c.updHm f).so = c.so ∧ (c.updHm f).pl = c.pl ∧ (c.updHm f).hm = f c.hm ∧ (c.updHm f).lg = c.lg ∧ (c.updHm f).pm = c.pm ∧ (c.updHm
    f).lh = c.lh ∧ (c.updHm f).tm = c.tm ∧ (c.updHm f).sn = c.sn ∧ (c.updHm f).dram = c.dram ∧ (c.updHm f).basin = c.basin ∧ (c.updHm
    f).sram = c.sram ∧ (c.updHm f).tx = c.tx ∧ (c.updHm f).bus = c.bus ∧
    (c.updHm f).met = c.met := by
  and_intros <;> rfl

@[simp] theorem Chip.updLg_blocks (f : Ledger → Ledger) :
    (c.updLg f).clk = c.clk ∧ (c.updLg f).por = c.por ∧ (c.updLg f).id = c.id ∧ (c.updLg f).draws = c.draws ∧ (c.updLg f).cfg = c.cfg ∧
    (c.updLg f).qy = c.qy ∧ (c.updLg f).me = c.me ∧ (c.updLg f).sd = c.sd ∧ (c.updLg f).oc = c.oc ∧ (c.updLg f).fg = c.fg ∧ (c.updLg f).sv
    = c.sv ∧ (c.updLg f).tt = c.tt ∧ (c.updLg f).mc = c.mc ∧ (c.updLg f).bs = c.bs ∧ (c.updLg f).sy = c.sy ∧ (c.updLg f).ic = c.ic ∧
    (c.updLg f).so = c.so ∧ (c.updLg f).pl = c.pl ∧ (c.updLg f).hm = c.hm ∧ (c.updLg f).lg = f c.lg ∧ (c.updLg f).pm = c.pm ∧ (c.updLg
    f).lh = c.lh ∧ (c.updLg f).tm = c.tm ∧ (c.updLg f).sn = c.sn ∧ (c.updLg f).dram = c.dram ∧ (c.updLg f).basin = c.basin ∧ (c.updLg
    f).sram = c.sram ∧ (c.updLg f).tx = c.tx ∧ (c.updLg f).bus = c.bus ∧
    (c.updLg f).met = c.met := by
  and_intros <;> rfl

@[simp] theorem Chip.updPm_blocks (f : Power → Power) :
    (c.updPm f).clk = c.clk ∧ (c.updPm f).por = c.por ∧ (c.updPm f).id = c.id ∧ (c.updPm f).draws = c.draws ∧ (c.updPm f).cfg = c.cfg ∧
    (c.updPm f).qy = c.qy ∧ (c.updPm f).me = c.me ∧ (c.updPm f).sd = c.sd ∧ (c.updPm f).oc = c.oc ∧ (c.updPm f).fg = c.fg ∧ (c.updPm f).sv
    = c.sv ∧ (c.updPm f).tt = c.tt ∧ (c.updPm f).mc = c.mc ∧ (c.updPm f).bs = c.bs ∧ (c.updPm f).sy = c.sy ∧ (c.updPm f).ic = c.ic ∧
    (c.updPm f).so = c.so ∧ (c.updPm f).pl = c.pl ∧ (c.updPm f).hm = c.hm ∧ (c.updPm f).lg = c.lg ∧ (c.updPm f).pm = f c.pm ∧ (c.updPm
    f).lh = c.lh ∧ (c.updPm f).tm = c.tm ∧ (c.updPm f).sn = c.sn ∧ (c.updPm f).dram = c.dram ∧ (c.updPm f).basin = c.basin ∧ (c.updPm
    f).sram = c.sram ∧ (c.updPm f).tx = c.tx ∧ (c.updPm f).bus = c.bus ∧
    (c.updPm f).met = c.met := by
  and_intros <;> rfl

@[simp] theorem Chip.updLh_blocks (f : Lighthouse → Lighthouse) :
    (c.updLh f).clk = c.clk ∧ (c.updLh f).por = c.por ∧ (c.updLh f).id = c.id ∧ (c.updLh f).draws = c.draws ∧ (c.updLh f).cfg = c.cfg ∧
    (c.updLh f).qy = c.qy ∧ (c.updLh f).me = c.me ∧ (c.updLh f).sd = c.sd ∧ (c.updLh f).oc = c.oc ∧ (c.updLh f).fg = c.fg ∧ (c.updLh f).sv
    = c.sv ∧ (c.updLh f).tt = c.tt ∧ (c.updLh f).mc = c.mc ∧ (c.updLh f).bs = c.bs ∧ (c.updLh f).sy = c.sy ∧ (c.updLh f).ic = c.ic ∧
    (c.updLh f).so = c.so ∧ (c.updLh f).pl = c.pl ∧ (c.updLh f).hm = c.hm ∧ (c.updLh f).lg = c.lg ∧ (c.updLh f).pm = c.pm ∧ (c.updLh f).lh
    = f c.lh ∧ (c.updLh f).tm = c.tm ∧ (c.updLh f).sn = c.sn ∧ (c.updLh f).dram = c.dram ∧ (c.updLh f).basin = c.basin ∧ (c.updLh f).sram =
    c.sram ∧ (c.updLh f).tx = c.tx ∧ (c.updLh f).bus = c.bus ∧
    (c.updLh f).met = c.met := by
  and_intros <;> rfl

@[simp] theorem Chip.updTm_blocks (f : Thermal → Thermal) :
    (c.updTm f).clk = c.clk ∧ (c.updTm f).por = c.por ∧ (c.updTm f).id = c.id ∧ (c.updTm f).draws = c.draws ∧ (c.updTm f).cfg = c.cfg ∧
    (c.updTm f).qy = c.qy ∧ (c.updTm f).me = c.me ∧ (c.updTm f).sd = c.sd ∧ (c.updTm f).oc = c.oc ∧ (c.updTm f).fg = c.fg ∧ (c.updTm f).sv
    = c.sv ∧ (c.updTm f).tt = c.tt ∧ (c.updTm f).mc = c.mc ∧ (c.updTm f).bs = c.bs ∧ (c.updTm f).sy = c.sy ∧ (c.updTm f).ic = c.ic ∧
    (c.updTm f).so = c.so ∧ (c.updTm f).pl = c.pl ∧ (c.updTm f).hm = c.hm ∧ (c.updTm f).lg = c.lg ∧ (c.updTm f).pm = c.pm ∧ (c.updTm f).lh
    = c.lh ∧ (c.updTm f).tm = f c.tm ∧ (c.updTm f).sn = c.sn ∧ (c.updTm f).dram = c.dram ∧ (c.updTm f).basin = c.basin ∧ (c.updTm f).sram =
    c.sram ∧ (c.updTm f).tx = c.tx ∧ (c.updTm f).bus = c.bus ∧
    (c.updTm f).met = c.met := by
  and_intros <;> rfl

@[simp] theorem Chip.updSn_blocks (f : Snap → Snap) :
    (c.updSn f).clk = c.clk ∧ (c.updSn f).por = c.por ∧ (c.updSn f).id = c.id ∧ (c.updSn f).draws = c.draws ∧ (c.updSn f).cfg = c.cfg ∧
    (c.updSn f).qy = c.qy ∧ (c.updSn f).me = c.me ∧ (c.updSn f).sd = c.sd ∧ (c.updSn f).oc = c.oc ∧ (c.updSn f).fg = c.fg ∧ (c.updSn f).sv
    = c.sv ∧ (c.updSn f).tt = c.tt ∧ (c.updSn f).mc = c.mc ∧ (c.updSn f).bs = c.bs ∧ (c.updSn f).sy = c.sy ∧ (c.updSn f).ic = c.ic ∧
    (c.updSn f).so = c.so ∧ (c.updSn f).pl = c.pl ∧ (c.updSn f).hm = c.hm ∧ (c.updSn f).lg = c.lg ∧ (c.updSn f).pm = c.pm ∧ (c.updSn f).lh
    = c.lh ∧ (c.updSn f).tm = c.tm ∧ (c.updSn f).sn = f c.sn ∧ (c.updSn f).dram = c.dram ∧ (c.updSn f).basin = c.basin ∧ (c.updSn f).sram =
    c.sram ∧ (c.updSn f).tx = c.tx ∧ (c.updSn f).bus = c.bus ∧
    (c.updSn f).met = c.met := by
  and_intros <;> rfl

@[simp] theorem Chip.updDram_blocks (f : Memory → Memory) :
    (c.updDram f).clk = c.clk ∧ (c.updDram f).por = c.por ∧ (c.updDram f).id = c.id ∧ (c.updDram f).draws = c.draws ∧ (c.updDram f).cfg =
    c.cfg ∧ (c.updDram f).qy = c.qy ∧ (c.updDram f).me = c.me ∧ (c.updDram f).sd = c.sd ∧ (c.updDram f).oc = c.oc ∧ (c.updDram f).fg = c.fg
    ∧ (c.updDram f).sv = c.sv ∧ (c.updDram f).tt = c.tt ∧ (c.updDram f).mc = c.mc ∧ (c.updDram f).bs = c.bs ∧ (c.updDram f).sy = c.sy ∧
    (c.updDram f).ic = c.ic ∧ (c.updDram f).so = c.so ∧ (c.updDram f).pl = c.pl ∧ (c.updDram f).hm = c.hm ∧ (c.updDram f).lg = c.lg ∧
    (c.updDram f).pm = c.pm ∧ (c.updDram f).lh = c.lh ∧ (c.updDram f).tm = c.tm ∧ (c.updDram f).sn = c.sn ∧ (c.updDram f).dram = f c.dram ∧
    (c.updDram f).basin = c.basin ∧ (c.updDram f).sram = c.sram ∧ (c.updDram f).tx = c.tx ∧ (c.updDram f).bus = c.bus ∧
    (c.updDram f).met = c.met := by
  and_intros <;> rfl

@[simp] theorem Chip.updBasin_blocks (f : Memory → Memory) :
    (c.updBasin f).clk = c.clk ∧ (c.updBasin f).por = c.por ∧ (c.updBasin f).id = c.id ∧ (c.updBasin f).draws = c.draws ∧ (c.updBasin
    f).cfg = c.cfg ∧ (c.updBasin f).qy = c.qy ∧ (c.updBasin f).me = c.me ∧ (c.updBasin f).sd = c.sd ∧ (c.updBasin f).oc = c.oc ∧
    (c.updBasin f).fg = c.fg ∧ (c.updBasin f).sv = c.sv ∧ (c.updBasin f).tt = c.tt ∧ (c.updBasin f).mc = c.mc ∧ (c.updBasin f).bs = c.bs ∧
    (c.updBasin f).sy = c.sy ∧ (c.updBasin f).ic = c.ic ∧ (c.updBasin f).so = c.so ∧ (c.updBasin f).pl = c.pl ∧ (c.updBasin f).hm = c.hm ∧
    (c.updBasin f).lg = c.lg ∧ (c.updBasin f).pm = c.pm ∧ (c.updBasin f).lh = c.lh ∧ (c.updBasin f).tm = c.tm ∧ (c.updBasin f).sn = c.sn ∧
    (c.updBasin f).dram = c.dram ∧ (c.updBasin f).basin = f c.basin ∧ (c.updBasin f).sram = c.sram ∧ (c.updBasin f).tx = c.tx ∧ (c.updBasin
    f).bus = c.bus ∧
    (c.updBasin f).met = c.met := by
  and_intros <;> rfl

@[simp] theorem Chip.updSram_blocks (f : Memory → Memory) :
    (c.updSram f).clk = c.clk ∧ (c.updSram f).por = c.por ∧ (c.updSram f).id = c.id ∧ (c.updSram f).draws = c.draws ∧ (c.updSram f).cfg =
    c.cfg ∧ (c.updSram f).qy = c.qy ∧ (c.updSram f).me = c.me ∧ (c.updSram f).sd = c.sd ∧ (c.updSram f).oc = c.oc ∧ (c.updSram f).fg = c.fg
    ∧ (c.updSram f).sv = c.sv ∧ (c.updSram f).tt = c.tt ∧ (c.updSram f).mc = c.mc ∧ (c.updSram f).bs = c.bs ∧ (c.updSram f).sy = c.sy ∧
    (c.updSram f).ic = c.ic ∧ (c.updSram f).so = c.so ∧ (c.updSram f).pl = c.pl ∧ (c.updSram f).hm = c.hm ∧ (c.updSram f).lg = c.lg ∧
    (c.updSram f).pm = c.pm ∧ (c.updSram f).lh = c.lh ∧ (c.updSram f).tm = c.tm ∧ (c.updSram f).sn = c.sn ∧ (c.updSram f).dram = c.dram ∧
    (c.updSram f).basin = c.basin ∧ (c.updSram f).sram = f c.sram ∧ (c.updSram f).tx = c.tx ∧ (c.updSram f).bus = c.bus ∧
    (c.updSram f).met = c.met := by
  and_intros <;> rfl

@[simp] theorem Chip.answer_blocks (b : BusReply) :
    (c.answer b).clk = c.clk ∧ (c.answer b).por = c.por ∧ (c.answer b).id = c.id ∧ (c.answer b).draws = c.draws ∧ (c.answer b).cfg = c.cfg
    ∧ (c.answer b).qy = c.qy ∧ (c.answer b).me = c.me ∧ (c.answer b).sd = c.sd ∧ (c.answer b).oc = c.oc ∧ (c.answer b).fg = c.fg ∧
    (c.answer b).sv = c.sv ∧ (c.answer b).tt = c.tt ∧ (c.answer b).mc = c.mc ∧ (c.answer b).bs = c.bs ∧ (c.answer b).sy = c.sy ∧ (c.answer
    b).ic = c.ic ∧ (c.answer b).so = c.so ∧ (c.answer b).pl = c.pl ∧ (c.answer b).hm = c.hm ∧ (c.answer b).lg = c.lg ∧ (c.answer b).pm =
    c.pm ∧ (c.answer b).lh = c.lh ∧ (c.answer b).tm = c.tm ∧ (c.answer b).sn = c.sn ∧ (c.answer b).dram = c.dram ∧ (c.answer b).basin =
    c.basin ∧ (c.answer b).sram = c.sram ∧ (c.answer b).tx = c.tx ∧ (c.answer b).bus = b ∧
    (c.answer b).met = c.met := by
  and_intros <;> rfl

@[simp] theorem Chip.send_blocks (t : TxFrame) :
    (c.send t).clk = c.clk ∧ (c.send t).por = c.por ∧ (c.send t).id = c.id ∧ (c.send t).draws = c.draws ∧ (c.send t).cfg = c.cfg ∧ (c.send
    t).qy = c.qy ∧ (c.send t).me = c.me ∧ (c.send t).sd = c.sd ∧ (c.send t).oc = c.oc ∧ (c.send t).fg = c.fg ∧ (c.send t).sv = c.sv ∧
    (c.send t).tt = c.tt ∧ (c.send t).mc = c.mc ∧ (c.send t).bs = c.bs ∧ (c.send t).sy = c.sy ∧ (c.send t).ic = c.ic ∧ (c.send t).so = c.so
    ∧ (c.send t).pl = c.pl ∧ (c.send t).hm = c.hm ∧ (c.send t).lg = c.lg ∧ (c.send t).pm = c.pm ∧ (c.send t).lh = c.lh ∧ (c.send t).tm =
    c.tm ∧ (c.send t).sn = c.sn ∧ (c.send t).dram = c.dram ∧ (c.send t).basin = c.basin ∧ (c.send t).sram = c.sram ∧ (c.send t).tx = c.tx
    ++ [t] ∧ (c.send t).bus = c.bus ∧
    (c.send t).met = c.met := by
  and_intros <;> rfl

@[simp] theorem Chip.updPort_blocks (n : Nat) (f : Port → Port) :
    (Chip.updPort n f c).clk = c.clk ∧ (Chip.updPort n f c).por = c.por ∧ (Chip.updPort n f c).id = c.id ∧ (Chip.updPort n f c).draws =
    c.draws ∧ (Chip.updPort n f c).cfg = c.cfg ∧ (Chip.updPort n f c).me = c.me ∧ (Chip.updPort n f c).sd = c.sd ∧ (Chip.updPort n f c).oc
    = c.oc ∧ (Chip.updPort n f c).fg = c.fg ∧ (Chip.updPort n f c).sv = c.sv ∧ (Chip.updPort n f c).tt = c.tt ∧ (Chip.updPort n f c).mc =
    c.mc ∧ (Chip.updPort n f c).bs = c.bs ∧ (Chip.updPort n f c).sy = c.sy ∧ (Chip.updPort n f c).ic = c.ic ∧ (Chip.updPort n f c).so =
    c.so ∧ (Chip.updPort n f c).pl = c.pl ∧ (Chip.updPort n f c).hm = c.hm ∧ (Chip.updPort n f c).lg = c.lg ∧ (Chip.updPort n f c).pm =
    c.pm ∧ (Chip.updPort n f c).lh = c.lh ∧ (Chip.updPort n f c).tm = c.tm ∧ (Chip.updPort n f c).sn = c.sn ∧ (Chip.updPort n f c).dram =
    c.dram ∧ (Chip.updPort n f c).basin = c.basin ∧ (Chip.updPort n f c).sram = c.sram ∧ (Chip.updPort n f c).tx = c.tx ∧ (Chip.updPort n f
    c).bus = c.bus ∧
    (Chip.updPort n f c).met = c.met := by
  and_intros <;> rfl

@[simp] theorem Chip.updStream_blocks (n : Nat) (f : QStream → QStream) :
    (Chip.updStream n f c).clk = c.clk ∧ (Chip.updStream n f c).por = c.por ∧ (Chip.updStream n f c).id = c.id ∧ (Chip.updStream n f
    c).draws = c.draws ∧ (Chip.updStream n f c).cfg = c.cfg ∧ (Chip.updStream n f c).me = c.me ∧ (Chip.updStream n f c).sd = c.sd ∧
    (Chip.updStream n f c).oc = c.oc ∧ (Chip.updStream n f c).fg = c.fg ∧ (Chip.updStream n f c).sv = c.sv ∧ (Chip.updStream n f c).tt =
    c.tt ∧ (Chip.updStream n f c).mc = c.mc ∧ (Chip.updStream n f c).bs = c.bs ∧ (Chip.updStream n f c).sy = c.sy ∧ (Chip.updStream n f
    c).ic = c.ic ∧ (Chip.updStream n f c).so = c.so ∧ (Chip.updStream n f c).pl = c.pl ∧ (Chip.updStream n f c).hm = c.hm ∧ (Chip.updStream
    n f c).lg = c.lg ∧ (Chip.updStream n f c).pm = c.pm ∧ (Chip.updStream n f c).lh = c.lh ∧ (Chip.updStream n f c).tm = c.tm ∧
    (Chip.updStream n f c).sn = c.sn ∧ (Chip.updStream n f c).dram = c.dram ∧ (Chip.updStream n f c).basin = c.basin ∧ (Chip.updStream n f
    c).sram = c.sram ∧ (Chip.updStream n f c).tx = c.tx ∧ (Chip.updStream n f c).bus = c.bus ∧
    (Chip.updStream n f c).met = c.met := by
  and_intros <;> rfl

@[simp] theorem Chip.updArr_blocks (n : Nat) (f : Arr → Arr) :
    (Chip.updArr n f c).clk = c.clk ∧ (Chip.updArr n f c).por = c.por ∧ (Chip.updArr n f c).id = c.id ∧ (Chip.updArr n f c).draws = c.draws
    ∧ (Chip.updArr n f c).cfg = c.cfg ∧ (Chip.updArr n f c).qy = c.qy ∧ (Chip.updArr n f c).me = c.me ∧ (Chip.updArr n f c).sd = c.sd ∧
    (Chip.updArr n f c).fg = c.fg ∧ (Chip.updArr n f c).sv = c.sv ∧ (Chip.updArr n f c).tt = c.tt ∧ (Chip.updArr n f c).mc = c.mc ∧
    (Chip.updArr n f c).bs = c.bs ∧ (Chip.updArr n f c).sy = c.sy ∧ (Chip.updArr n f c).ic = c.ic ∧ (Chip.updArr n f c).so = c.so ∧
    (Chip.updArr n f c).pl = c.pl ∧ (Chip.updArr n f c).hm = c.hm ∧ (Chip.updArr n f c).lg = c.lg ∧ (Chip.updArr n f c).pm = c.pm ∧
    (Chip.updArr n f c).lh = c.lh ∧ (Chip.updArr n f c).tm = c.tm ∧ (Chip.updArr n f c).sn = c.sn ∧ (Chip.updArr n f c).dram = c.dram ∧
    (Chip.updArr n f c).basin = c.basin ∧ (Chip.updArr n f c).sram = c.sram ∧ (Chip.updArr n f c).tx = c.tx ∧ (Chip.updArr n f c).bus =
    c.bus ∧
    (Chip.updArr n f c).met = c.met := by
  and_intros <;> rfl

@[simp] theorem Chip.updMap_blocks (n : Nat) (f : ArrMap → ArrMap) :
    (Chip.updMap n f c).clk = c.clk ∧ (Chip.updMap n f c).por = c.por ∧ (Chip.updMap n f c).id = c.id ∧ (Chip.updMap n f c).draws = c.draws
    ∧ (Chip.updMap n f c).cfg = c.cfg ∧ (Chip.updMap n f c).qy = c.qy ∧ (Chip.updMap n f c).me = c.me ∧ (Chip.updMap n f c).sd = c.sd ∧
    (Chip.updMap n f c).fg = c.fg ∧ (Chip.updMap n f c).sv = c.sv ∧ (Chip.updMap n f c).tt = c.tt ∧ (Chip.updMap n f c).mc = c.mc ∧
    (Chip.updMap n f c).bs = c.bs ∧ (Chip.updMap n f c).sy = c.sy ∧ (Chip.updMap n f c).ic = c.ic ∧ (Chip.updMap n f c).so = c.so ∧
    (Chip.updMap n f c).pl = c.pl ∧ (Chip.updMap n f c).hm = c.hm ∧ (Chip.updMap n f c).lg = c.lg ∧ (Chip.updMap n f c).pm = c.pm ∧
    (Chip.updMap n f c).lh = c.lh ∧ (Chip.updMap n f c).tm = c.tm ∧ (Chip.updMap n f c).sn = c.sn ∧ (Chip.updMap n f c).dram = c.dram ∧
    (Chip.updMap n f c).basin = c.basin ∧ (Chip.updMap n f c).sram = c.sram ∧ (Chip.updMap n f c).tx = c.tx ∧ (Chip.updMap n f c).bus =
    c.bus ∧
    (Chip.updMap n f c).met = c.met := by
  and_intros <;> rfl

@[simp] theorem Chip.updFgs_blocks (n : Nat) (f : FgStream → FgStream) :
    (Chip.updFgs n f c).clk = c.clk ∧ (Chip.updFgs n f c).por = c.por ∧ (Chip.updFgs n f c).id = c.id ∧ (Chip.updFgs n f c).draws = c.draws
    ∧ (Chip.updFgs n f c).cfg = c.cfg ∧ (Chip.updFgs n f c).qy = c.qy ∧ (Chip.updFgs n f c).me = c.me ∧ (Chip.updFgs n f c).sd = c.sd ∧
    (Chip.updFgs n f c).oc = c.oc ∧ (Chip.updFgs n f c).sv = c.sv ∧ (Chip.updFgs n f c).tt = c.tt ∧ (Chip.updFgs n f c).mc = c.mc ∧
    (Chip.updFgs n f c).bs = c.bs ∧ (Chip.updFgs n f c).sy = c.sy ∧ (Chip.updFgs n f c).ic = c.ic ∧ (Chip.updFgs n f c).so = c.so ∧
    (Chip.updFgs n f c).pl = c.pl ∧ (Chip.updFgs n f c).hm = c.hm ∧ (Chip.updFgs n f c).lg = c.lg ∧ (Chip.updFgs n f c).pm = c.pm ∧
    (Chip.updFgs n f c).lh = c.lh ∧ (Chip.updFgs n f c).tm = c.tm ∧ (Chip.updFgs n f c).sn = c.sn ∧ (Chip.updFgs n f c).dram = c.dram ∧
    (Chip.updFgs n f c).basin = c.basin ∧ (Chip.updFgs n f c).sram = c.sram ∧ (Chip.updFgs n f c).tx = c.tx ∧ (Chip.updFgs n f c).bus =
    c.bus ∧
    (Chip.updFgs n f c).met = c.met := by
  and_intros <;> rfl

@[simp] theorem Chip.updCtx_blocks (n : Nat) (f : Ctx → Ctx) :
    (Chip.updCtx n f c).clk = c.clk ∧ (Chip.updCtx n f c).por = c.por ∧ (Chip.updCtx n f c).id = c.id ∧ (Chip.updCtx n f c).draws = c.draws
    ∧ (Chip.updCtx n f c).cfg = c.cfg ∧ (Chip.updCtx n f c).qy = c.qy ∧ (Chip.updCtx n f c).me = c.me ∧ (Chip.updCtx n f c).sd = c.sd ∧
    (Chip.updCtx n f c).oc = c.oc ∧ (Chip.updCtx n f c).fg = c.fg ∧ (Chip.updCtx n f c).sv = c.sv ∧ (Chip.updCtx n f c).mc = c.mc ∧
    (Chip.updCtx n f c).bs = c.bs ∧ (Chip.updCtx n f c).sy = c.sy ∧ (Chip.updCtx n f c).ic = c.ic ∧ (Chip.updCtx n f c).so = c.so ∧
    (Chip.updCtx n f c).pl = c.pl ∧ (Chip.updCtx n f c).hm = c.hm ∧ (Chip.updCtx n f c).lg = c.lg ∧ (Chip.updCtx n f c).pm = c.pm ∧
    (Chip.updCtx n f c).lh = c.lh ∧ (Chip.updCtx n f c).tm = c.tm ∧ (Chip.updCtx n f c).sn = c.sn ∧ (Chip.updCtx n f c).dram = c.dram ∧
    (Chip.updCtx n f c).basin = c.basin ∧ (Chip.updCtx n f c).sram = c.sram ∧ (Chip.updCtx n f c).tx = c.tx ∧ (Chip.updCtx n f c).bus =
    c.bus ∧
    (Chip.updCtx n f c).met = c.met := by
  and_intros <;> rfl

@[simp] theorem Chip.updBerth_blocks (n : Nat) (f : Berth → Berth) :
    (Chip.updBerth n f c).clk = c.clk ∧ (Chip.updBerth n f c).por = c.por ∧ (Chip.updBerth n f c).id = c.id ∧ (Chip.updBerth n f c).draws =
    c.draws ∧ (Chip.updBerth n f c).cfg = c.cfg ∧ (Chip.updBerth n f c).qy = c.qy ∧ (Chip.updBerth n f c).me = c.me ∧ (Chip.updBerth n f
    c).sd = c.sd ∧ (Chip.updBerth n f c).oc = c.oc ∧ (Chip.updBerth n f c).fg = c.fg ∧ (Chip.updBerth n f c).sv = c.sv ∧ (Chip.updBerth n f
    c).mc = c.mc ∧ (Chip.updBerth n f c).bs = c.bs ∧ (Chip.updBerth n f c).sy = c.sy ∧ (Chip.updBerth n f c).ic = c.ic ∧ (Chip.updBerth n f
    c).so = c.so ∧ (Chip.updBerth n f c).pl = c.pl ∧ (Chip.updBerth n f c).hm = c.hm ∧ (Chip.updBerth n f c).lg = c.lg ∧ (Chip.updBerth n f
    c).pm = c.pm ∧ (Chip.updBerth n f c).lh = c.lh ∧ (Chip.updBerth n f c).tm = c.tm ∧ (Chip.updBerth n f c).sn = c.sn ∧ (Chip.updBerth n f
    c).dram = c.dram ∧ (Chip.updBerth n f c).basin = c.basin ∧ (Chip.updBerth n f c).sram = c.sram ∧ (Chip.updBerth n f c).tx = c.tx ∧
    (Chip.updBerth n f c).bus = c.bus ∧
    (Chip.updBerth n f c).met = c.met := by
  and_intros <;> rfl

@[simp] theorem Chip.updChan_blocks (n : Nat) (f : Channel → Channel) :
    (Chip.updChan n f c).clk = c.clk ∧ (Chip.updChan n f c).por = c.por ∧ (Chip.updChan n f c).id = c.id ∧ (Chip.updChan n f c).draws =
    c.draws ∧ (Chip.updChan n f c).cfg = c.cfg ∧ (Chip.updChan n f c).qy = c.qy ∧ (Chip.updChan n f c).me = c.me ∧ (Chip.updChan n f c).sd
    = c.sd ∧ (Chip.updChan n f c).oc = c.oc ∧ (Chip.updChan n f c).fg = c.fg ∧ (Chip.updChan n f c).sv = c.sv ∧ (Chip.updChan n f c).tt =
    c.tt ∧ (Chip.updChan n f c).bs = c.bs ∧ (Chip.updChan n f c).sy = c.sy ∧ (Chip.updChan n f c).ic = c.ic ∧ (Chip.updChan n f c).so =
    c.so ∧ (Chip.updChan n f c).pl = c.pl ∧ (Chip.updChan n f c).hm = c.hm ∧ (Chip.updChan n f c).lg = c.lg ∧ (Chip.updChan n f c).pm =
    c.pm ∧ (Chip.updChan n f c).lh = c.lh ∧ (Chip.updChan n f c).tm = c.tm ∧ (Chip.updChan n f c).sn = c.sn ∧ (Chip.updChan n f c).dram =
    c.dram ∧ (Chip.updChan n f c).basin = c.basin ∧ (Chip.updChan n f c).sram = c.sram ∧ (Chip.updChan n f c).tx = c.tx ∧ (Chip.updChan n f
    c).bus = c.bus ∧
    (Chip.updChan n f c).met = c.met := by
  and_intros <;> rfl

@[simp] theorem Chip.updBank_blocks (n : Nat) (f : Bank → Bank) :
    (Chip.updBank n f c).clk = c.clk ∧ (Chip.updBank n f c).por = c.por ∧ (Chip.updBank n f c).id = c.id ∧ (Chip.updBank n f c).draws =
    c.draws ∧ (Chip.updBank n f c).cfg = c.cfg ∧ (Chip.updBank n f c).qy = c.qy ∧ (Chip.updBank n f c).me = c.me ∧ (Chip.updBank n f c).sd
    = c.sd ∧ (Chip.updBank n f c).oc = c.oc ∧ (Chip.updBank n f c).fg = c.fg ∧ (Chip.updBank n f c).sv = c.sv ∧ (Chip.updBank n f c).tt =
    c.tt ∧ (Chip.updBank n f c).mc = c.mc ∧ (Chip.updBank n f c).sy = c.sy ∧ (Chip.updBank n f c).ic = c.ic ∧ (Chip.updBank n f c).so =
    c.so ∧ (Chip.updBank n f c).pl = c.pl ∧ (Chip.updBank n f c).hm = c.hm ∧ (Chip.updBank n f c).lg = c.lg ∧ (Chip.updBank n f c).pm =
    c.pm ∧ (Chip.updBank n f c).lh = c.lh ∧ (Chip.updBank n f c).tm = c.tm ∧ (Chip.updBank n f c).sn = c.sn ∧ (Chip.updBank n f c).dram =
    c.dram ∧ (Chip.updBank n f c).basin = c.basin ∧ (Chip.updBank n f c).sram = c.sram ∧ (Chip.updBank n f c).tx = c.tx ∧ (Chip.updBank n f
    c).bus = c.bus ∧
    (Chip.updBank n f c).met = c.met := by
  and_intros <;> rfl

@[simp] theorem Chip.updOut_blocks (n : Nat) (f : Output → Output) :
    (Chip.updOut n f c).clk = c.clk ∧ (Chip.updOut n f c).por = c.por ∧ (Chip.updOut n f c).id = c.id ∧ (Chip.updOut n f c).draws = c.draws
    ∧ (Chip.updOut n f c).cfg = c.cfg ∧ (Chip.updOut n f c).qy = c.qy ∧ (Chip.updOut n f c).me = c.me ∧ (Chip.updOut n f c).sd = c.sd ∧
    (Chip.updOut n f c).oc = c.oc ∧ (Chip.updOut n f c).fg = c.fg ∧ (Chip.updOut n f c).sv = c.sv ∧ (Chip.updOut n f c).tt = c.tt ∧
    (Chip.updOut n f c).mc = c.mc ∧ (Chip.updOut n f c).bs = c.bs ∧ (Chip.updOut n f c).sy = c.sy ∧ (Chip.updOut n f c).ic = c.ic ∧
    (Chip.updOut n f c).pl = c.pl ∧ (Chip.updOut n f c).hm = c.hm ∧ (Chip.updOut n f c).lg = c.lg ∧ (Chip.updOut n f c).pm = c.pm ∧
    (Chip.updOut n f c).lh = c.lh ∧ (Chip.updOut n f c).tm = c.tm ∧ (Chip.updOut n f c).sn = c.sn ∧ (Chip.updOut n f c).dram = c.dram ∧
    (Chip.updOut n f c).basin = c.basin ∧ (Chip.updOut n f c).sram = c.sram ∧ (Chip.updOut n f c).tx = c.tx ∧ (Chip.updOut n f c).bus =
    c.bus ∧
    (Chip.updOut n f c).met = c.met := by
  and_intros <;> rfl

@[simp] theorem Chip.updWin_blocks (n : Nat) (f : Win → Win) :
    (Chip.updWin n f c).clk = c.clk ∧ (Chip.updWin n f c).por = c.por ∧ (Chip.updWin n f c).id = c.id ∧ (Chip.updWin n f c).draws = c.draws
    ∧ (Chip.updWin n f c).cfg = c.cfg ∧ (Chip.updWin n f c).qy = c.qy ∧ (Chip.updWin n f c).me = c.me ∧ (Chip.updWin n f c).sd = c.sd ∧
    (Chip.updWin n f c).oc = c.oc ∧ (Chip.updWin n f c).fg = c.fg ∧ (Chip.updWin n f c).sv = c.sv ∧ (Chip.updWin n f c).tt = c.tt ∧
    (Chip.updWin n f c).mc = c.mc ∧ (Chip.updWin n f c).bs = c.bs ∧ (Chip.updWin n f c).sy = c.sy ∧ (Chip.updWin n f c).ic = c.ic ∧
    (Chip.updWin n f c).pl = c.pl ∧ (Chip.updWin n f c).hm = c.hm ∧ (Chip.updWin n f c).lg = c.lg ∧ (Chip.updWin n f c).pm = c.pm ∧
    (Chip.updWin n f c).lh = c.lh ∧ (Chip.updWin n f c).tm = c.tm ∧ (Chip.updWin n f c).sn = c.sn ∧ (Chip.updWin n f c).dram = c.dram ∧
    (Chip.updWin n f c).basin = c.basin ∧ (Chip.updWin n f c).sram = c.sram ∧ (Chip.updWin n f c).tx = c.tx ∧ (Chip.updWin n f c).bus =
    c.bus ∧
    (Chip.updWin n f c).met = c.met := by
  and_intros <;> rfl

@[simp] theorem Chip.updPeer_blocks (n : Nat) (f : Peer → Peer) :
    (Chip.updPeer n f c).clk = c.clk ∧ (Chip.updPeer n f c).por = c.por ∧ (Chip.updPeer n f c).id = c.id ∧ (Chip.updPeer n f c).draws =
    c.draws ∧ (Chip.updPeer n f c).cfg = c.cfg ∧ (Chip.updPeer n f c).qy = c.qy ∧ (Chip.updPeer n f c).me = c.me ∧ (Chip.updPeer n f c).sd
    = c.sd ∧ (Chip.updPeer n f c).oc = c.oc ∧ (Chip.updPeer n f c).fg = c.fg ∧ (Chip.updPeer n f c).sv = c.sv ∧ (Chip.updPeer n f c).tt =
    c.tt ∧ (Chip.updPeer n f c).mc = c.mc ∧ (Chip.updPeer n f c).bs = c.bs ∧ (Chip.updPeer n f c).sy = c.sy ∧ (Chip.updPeer n f c).ic =
    c.ic ∧ (Chip.updPeer n f c).so = c.so ∧ (Chip.updPeer n f c).hm = c.hm ∧ (Chip.updPeer n f c).lg = c.lg ∧ (Chip.updPeer n f c).pm =
    c.pm ∧ (Chip.updPeer n f c).lh = c.lh ∧ (Chip.updPeer n f c).tm = c.tm ∧ (Chip.updPeer n f c).sn = c.sn ∧ (Chip.updPeer n f c).dram =
    c.dram ∧ (Chip.updPeer n f c).basin = c.basin ∧ (Chip.updPeer n f c).sram = c.sram ∧ (Chip.updPeer n f c).tx = c.tx ∧ (Chip.updPeer n f
    c).bus = c.bus ∧
    (Chip.updPeer n f c).met = c.met := by
  and_intros <;> rfl

@[simp] theorem Chip.draw_blocks (n : Nat) :
    (c.draw n).2.clk = c.clk ∧ (c.draw n).2.por = c.por ∧ (c.draw n).2.id = c.id ∧ (c.draw n).2.draws = c.draws + n ∧ (c.draw n).2.cfg =
    c.cfg ∧ (c.draw n).2.qy = c.qy ∧ (c.draw n).2.me = c.me ∧ (c.draw n).2.sd = c.sd ∧ (c.draw n).2.oc = c.oc ∧ (c.draw n).2.fg = c.fg ∧
    (c.draw n).2.sv = c.sv ∧ (c.draw n).2.tt = c.tt ∧ (c.draw n).2.mc = c.mc ∧ (c.draw n).2.bs = c.bs ∧ (c.draw n).2.sy = c.sy ∧ (c.draw
    n).2.ic = c.ic ∧ (c.draw n).2.so = c.so ∧ (c.draw n).2.pl = c.pl ∧ (c.draw n).2.hm = c.hm ∧ (c.draw n).2.lg = c.lg ∧ (c.draw n).2.pm =
    c.pm ∧ (c.draw n).2.lh = c.lh ∧ (c.draw n).2.tm = c.tm ∧ (c.draw n).2.sn = c.sn ∧ (c.draw n).2.dram = c.dram ∧ (c.draw n).2.basin =
    c.basin ∧ (c.draw n).2.sram = c.sram ∧ (c.draw n).2.tx = c.tx ∧ (c.draw n).2.bus = c.bus ∧
    (c.draw n).2.met = c.met := by
  and_intros <;> rfl

end Sys2Proof.Machine
end

