-- ==== Sys2Proof/Laws/Ops.lean ====
section
/-! SUPPORT. One lemma for each shared operation: the blocks of the chip that it leaves as they were, and the outcomes of the two shapes of a
command's meaning. -/

namespace Sys2Proof.Machine

variable (c : Chip)

/-! ### Wake events and sources -/

@[simp] theorem Chip.latchWake_blocks (cause detail : Nat) :
    (c.latchWake cause detail).clk = c.clk ∧ (c.latchWake cause detail).por = c.por ∧ (c.latchWake cause detail).id = c.id ∧ (c.latchWake
    cause detail).draws = c.draws ∧ (c.latchWake cause detail).cfg = c.cfg ∧ (c.latchWake cause detail).qy = c.qy ∧ (c.latchWake cause
    detail).me = c.me ∧ (c.latchWake cause detail).sd = c.sd ∧ (c.latchWake cause detail).oc = c.oc ∧ (c.latchWake cause detail).fg = c.fg
    ∧ (c.latchWake cause detail).sv = c.sv ∧ (c.latchWake cause detail).tt = c.tt ∧ (c.latchWake cause detail).mc = c.mc ∧ (c.latchWake
    cause detail).bs = c.bs ∧ (c.latchWake cause detail).sy = c.sy ∧ (c.latchWake cause detail).ic = c.ic ∧ (c.latchWake cause detail).so =
    c.so ∧ (c.latchWake cause detail).pl = c.pl ∧ (c.latchWake cause detail).hm = c.hm ∧ (c.latchWake cause detail).lg = c.lg ∧
    (c.latchWake cause detail).pm = c.pm ∧ (c.latchWake cause detail).tm = c.tm ∧ (c.latchWake cause detail).sn = c.sn ∧ (c.latchWake cause
    detail).dram = c.dram ∧ (c.latchWake cause detail).basin = c.basin ∧ (c.latchWake cause detail).sram = c.sram ∧ (c.latchWake cause
    detail).tx = c.tx ∧ (c.latchWake cause detail).bus = c.bus ∧
    (c.latchWake cause detail).met = c.met := by
  unfold Chip.latchWake
  repeat' split
  all_goals simp

@[simp] theorem Chip.askSource_blocks (n src : Nat) :
    (c.askSource n src).clk = c.clk ∧ (c.askSource n src).por = c.por ∧ (c.askSource n src).id = c.id ∧ (c.askSource n src).draws = c.draws
    ∧ (c.askSource n src).cfg = c.cfg ∧ (c.askSource n src).qy = c.qy ∧ (c.askSource n src).me = c.me ∧ (c.askSource n src).sd = c.sd ∧
    (c.askSource n src).oc = c.oc ∧ (c.askSource n src).fg = c.fg ∧ (c.askSource n src).sv = c.sv ∧ (c.askSource n src).tt = c.tt ∧
    (c.askSource n src).mc = c.mc ∧ (c.askSource n src).bs = c.bs ∧ (c.askSource n src).sy = c.sy ∧ (c.askSource n src).ic = c.ic ∧
    (c.askSource n src).so = c.so ∧ (c.askSource n src).pl = c.pl ∧ (c.askSource n src).hm = c.hm ∧ (c.askSource n src).lg = c.lg ∧
    (c.askSource n src).pm = c.pm ∧ (c.askSource n src).lh = c.lh ∧ (c.askSource n src).tm = c.tm ∧ (c.askSource n src).dram = c.dram ∧
    (c.askSource n src).basin = c.basin ∧ (c.askSource n src).sram = c.sram ∧ (c.askSource n src).tx = c.tx ∧ (c.askSource n src).bus =
    c.bus ∧
    (c.askSource n src).met = c.met := by
  unfold Chip.askSource
  split <;> simp

@[simp] theorem Chip.raiseCore_blocks (n src : Nat) (detail : Bytes) :
    (c.raiseCore n src detail).clk = c.clk ∧ (c.raiseCore n src detail).por = c.por ∧ (c.raiseCore n src detail).id = c.id ∧ (c.raiseCore n
    src detail).draws = c.draws ∧ (c.raiseCore n src detail).cfg = c.cfg ∧ (c.raiseCore n src detail).qy = c.qy ∧ (c.raiseCore n src
    detail).me = c.me ∧ (c.raiseCore n src detail).sd = c.sd ∧ (c.raiseCore n src detail).oc = c.oc ∧ (c.raiseCore n src detail).fg = c.fg
    ∧ (c.raiseCore n src detail).sv = c.sv ∧ (c.raiseCore n src detail).tt = c.tt ∧ (c.raiseCore n src detail).mc = c.mc ∧ (c.raiseCore n
    src detail).bs = c.bs ∧ (c.raiseCore n src detail).sy = c.sy ∧ (c.raiseCore n src detail).so = c.so ∧ (c.raiseCore n src detail).pl =
    c.pl ∧ (c.raiseCore n src detail).hm = c.hm ∧ (c.raiseCore n src detail).lg = c.lg ∧ (c.raiseCore n src detail).pm = c.pm ∧
    (c.raiseCore n src detail).tm = c.tm ∧ (c.raiseCore n src detail).dram = c.dram ∧ (c.raiseCore n src detail).basin = c.basin ∧
    (c.raiseCore n src detail).sram = c.sram ∧ (c.raiseCore n src detail).tx = c.tx ∧ (c.raiseCore n src detail).bus = c.bus ∧
    (c.raiseCore n src detail).met = c.met := by
  simp only [Chip.raiseCore]
  and_intros <;> (repeat' split) <;> simp

@[simp] theorem Chip.raise798_blocks (n bit : Nat) :
    (c.raise798 n bit).clk = c.clk ∧ (c.raise798 n bit).por = c.por ∧ (c.raise798 n bit).id = c.id ∧ (c.raise798 n bit).draws = c.draws ∧
    (c.raise798 n bit).cfg = c.cfg ∧ (c.raise798 n bit).qy = c.qy ∧ (c.raise798 n bit).me = c.me ∧ (c.raise798 n bit).sd = c.sd ∧
    (c.raise798 n bit).oc = c.oc ∧ (c.raise798 n bit).fg = c.fg ∧ (c.raise798 n bit).sv = c.sv ∧ (c.raise798 n bit).tt = c.tt ∧ (c.raise798
    n bit).mc = c.mc ∧ (c.raise798 n bit).bs = c.bs ∧ (c.raise798 n bit).sy = c.sy ∧ (c.raise798 n bit).so = c.so ∧ (c.raise798 n bit).pl =
    c.pl ∧ (c.raise798 n bit).hm = c.hm ∧ (c.raise798 n bit).lg = c.lg ∧ (c.raise798 n bit).pm = c.pm ∧ (c.raise798 n bit).tm = c.tm ∧
    (c.raise798 n bit).dram = c.dram ∧ (c.raise798 n bit).basin = c.basin ∧ (c.raise798 n bit).sram = c.sram ∧ (c.raise798 n bit).tx = c.tx
    ∧ (c.raise798 n bit).bus = c.bus ∧
    (c.raise798 n bit).met = c.met := by
  simp only [Chip.raise798]
  split <;> simp

@[simp] theorem Chip.raiseN_blocks (n src : Nat) (detail : Bytes) :
    (c.raiseN n src detail).clk = c.clk ∧ (c.raiseN n src detail).por = c.por ∧ (c.raiseN n src detail).id = c.id ∧ (c.raiseN n src
    detail).draws = c.draws ∧ (c.raiseN n src detail).cfg = c.cfg ∧ (c.raiseN n src detail).qy = c.qy ∧ (c.raiseN n src detail).me = c.me ∧
    (c.raiseN n src detail).sd = c.sd ∧ (c.raiseN n src detail).oc = c.oc ∧ (c.raiseN n src detail).fg = c.fg ∧ (c.raiseN n src detail).sv
    = c.sv ∧ (c.raiseN n src detail).tt = c.tt ∧ (c.raiseN n src detail).mc = c.mc ∧ (c.raiseN n src detail).bs = c.bs ∧ (c.raiseN n src
    detail).sy = c.sy ∧ (c.raiseN n src detail).so = c.so ∧ (c.raiseN n src detail).pl = c.pl ∧ (c.raiseN n src detail).hm = c.hm ∧
    (c.raiseN n src detail).lg = c.lg ∧ (c.raiseN n src detail).pm = c.pm ∧ (c.raiseN n src detail).tm = c.tm ∧ (c.raiseN n src
    detail).dram = c.dram ∧ (c.raiseN n src detail).basin = c.basin ∧ (c.raiseN n src detail).sram = c.sram ∧ (c.raiseN n src detail).tx =
    c.tx ∧ (c.raiseN n src detail).bus = c.bus ∧
    (c.raiseN n src detail).met = c.met := by
  simp only [Chip.raiseN]
  repeat' split
  all_goals simp

@[simp] theorem Chip.raise_blocks (src : Nat) (detail : Bytes) :
    (c.raise src detail).clk = c.clk ∧ (c.raise src detail).por = c.por ∧ (c.raise src detail).id = c.id ∧ (c.raise src detail).draws =
    c.draws ∧ (c.raise src detail).cfg = c.cfg ∧ (c.raise src detail).qy = c.qy ∧ (c.raise src detail).me = c.me ∧ (c.raise src detail).sd
    = c.sd ∧ (c.raise src detail).oc = c.oc ∧ (c.raise src detail).fg = c.fg ∧ (c.raise src detail).sv = c.sv ∧ (c.raise src detail).tt =
    c.tt ∧ (c.raise src detail).mc = c.mc ∧ (c.raise src detail).bs = c.bs ∧ (c.raise src detail).sy = c.sy ∧ (c.raise src detail).so =
    c.so ∧ (c.raise src detail).pl = c.pl ∧ (c.raise src detail).hm = c.hm ∧ (c.raise src detail).lg = c.lg ∧ (c.raise src detail).pm =
    c.pm ∧ (c.raise src detail).tm = c.tm ∧ (c.raise src detail).dram = c.dram ∧ (c.raise src detail).basin = c.basin ∧ (c.raise src
    detail).sram = c.sram ∧ (c.raise src detail).tx = c.tx ∧ (c.raise src detail).bus = c.bus ∧
    (c.raise src detail).met = c.met := by
  simp [Chip.raise]

/-! ### Status bits -/

@[simp] theorem Chip.qyErr_blocks (b : Nat) :
    (c.qyErr b).clk = c.clk ∧ (c.qyErr b).por = c.por ∧ (c.qyErr b).id = c.id ∧ (c.qyErr b).draws = c.draws ∧ (c.qyErr b).cfg = c.cfg ∧
    (c.qyErr b).me = c.me ∧ (c.qyErr b).sd = c.sd ∧ (c.qyErr b).oc = c.oc ∧ (c.qyErr b).fg = c.fg ∧ (c.qyErr b).sv = c.sv ∧ (c.qyErr b).tt
    = c.tt ∧ (c.qyErr b).mc = c.mc ∧ (c.qyErr b).bs = c.bs ∧ (c.qyErr b).sy = c.sy ∧ (c.qyErr b).so = c.so ∧ (c.qyErr b).pl = c.pl ∧
    (c.qyErr b).hm = c.hm ∧ (c.qyErr b).lg = c.lg ∧ (c.qyErr b).pm = c.pm ∧ (c.qyErr b).tm = c.tm ∧ (c.qyErr b).dram = c.dram ∧ (c.qyErr
    b).basin = c.basin ∧ (c.qyErr b).sram = c.sram ∧ (c.qyErr b).tx = c.tx ∧ (c.qyErr b).bus = c.bus ∧
    (c.qyErr b).met = c.met := by
  simp [Chip.qyErr]

@[simp] theorem Chip.qyErr_qy (b : Nat) : (c.qyErr b).qy = { c.qy with err := setBit c.qy.err b } := by
  simp [Chip.qyErr]

@[simp] theorem Chip.fgErr_blocks (b : Nat) :
    (c.fgErr b).clk = c.clk ∧ (c.fgErr b).por = c.por ∧ (c.fgErr b).id = c.id ∧ (c.fgErr b).draws = c.draws ∧ (c.fgErr b).cfg = c.cfg ∧
    (c.fgErr b).qy = c.qy ∧ (c.fgErr b).me = c.me ∧ (c.fgErr b).sd = c.sd ∧ (c.fgErr b).oc = c.oc ∧ (c.fgErr b).sv = c.sv ∧ (c.fgErr b).tt
    = c.tt ∧ (c.fgErr b).mc = c.mc ∧ (c.fgErr b).bs = c.bs ∧ (c.fgErr b).sy = c.sy ∧ (c.fgErr b).so = c.so ∧ (c.fgErr b).pl = c.pl ∧
    (c.fgErr b).hm = c.hm ∧ (c.fgErr b).lg = c.lg ∧ (c.fgErr b).pm = c.pm ∧ (c.fgErr b).tm = c.tm ∧ (c.fgErr b).dram = c.dram ∧ (c.fgErr
    b).basin = c.basin ∧ (c.fgErr b).sram = c.sram ∧ (c.fgErr b).tx = c.tx ∧ (c.fgErr b).bus = c.bus ∧
    (c.fgErr b).met = c.met := by
  simp [Chip.fgErr]

@[simp] theorem Chip.fgErr_fg (b : Nat) : (c.fgErr b).fg = { c.fg with err := setBit c.fg.err b } := by
  simp [Chip.fgErr]

@[simp] theorem Chip.svErr_blocks (b : Nat) :
    (c.svErr b).clk = c.clk ∧ (c.svErr b).por = c.por ∧ (c.svErr b).id = c.id ∧ (c.svErr b).draws = c.draws ∧ (c.svErr b).cfg = c.cfg ∧
    (c.svErr b).qy = c.qy ∧ (c.svErr b).me = c.me ∧ (c.svErr b).sd = c.sd ∧ (c.svErr b).oc = c.oc ∧ (c.svErr b).fg = c.fg ∧ (c.svErr b).tt
    = c.tt ∧ (c.svErr b).mc = c.mc ∧ (c.svErr b).bs = c.bs ∧ (c.svErr b).sy = c.sy ∧ (c.svErr b).so = c.so ∧ (c.svErr b).pl = c.pl ∧
    (c.svErr b).hm = c.hm ∧ (c.svErr b).lg = c.lg ∧ (c.svErr b).pm = c.pm ∧ (c.svErr b).tm = c.tm ∧ (c.svErr b).dram = c.dram ∧ (c.svErr
    b).basin = c.basin ∧ (c.svErr b).sram = c.sram ∧ (c.svErr b).tx = c.tx ∧ (c.svErr b).bus = c.bus ∧
    (c.svErr b).met = c.met := by
  simp [Chip.svErr]

@[simp] theorem Chip.svErr_sv (b : Nat) : (c.svErr b).sv = { c.sv with err := setBit c.sv.err b } := by
  simp [Chip.svErr]

@[simp] theorem Chip.ttErr_blocks (b : Nat) :
    (c.ttErr b).clk = c.clk ∧ (c.ttErr b).por = c.por ∧ (c.ttErr b).id = c.id ∧ (c.ttErr b).draws = c.draws ∧ (c.ttErr b).cfg = c.cfg ∧
    (c.ttErr b).qy = c.qy ∧ (c.ttErr b).me = c.me ∧ (c.ttErr b).sd = c.sd ∧ (c.ttErr b).oc = c.oc ∧ (c.ttErr b).fg = c.fg ∧ (c.ttErr b).sv
    = c.sv ∧ (c.ttErr b).mc = c.mc ∧ (c.ttErr b).bs = c.bs ∧ (c.ttErr b).sy = c.sy ∧ (c.ttErr b).so = c.so ∧ (c.ttErr b).pl = c.pl ∧
    (c.ttErr b).hm = c.hm ∧ (c.ttErr b).lg = c.lg ∧ (c.ttErr b).pm = c.pm ∧ (c.ttErr b).tm = c.tm ∧ (c.ttErr b).dram = c.dram ∧ (c.ttErr
    b).basin = c.basin ∧ (c.ttErr b).sram = c.sram ∧ (c.ttErr b).tx = c.tx ∧ (c.ttErr b).bus = c.bus ∧
    (c.ttErr b).met = c.met := by
  simp [Chip.ttErr]

@[simp] theorem Chip.ttErr_tt (b : Nat) : (c.ttErr b).tt = { c.tt with err := setBit c.tt.err b } := by
  simp [Chip.ttErr]

@[simp] theorem Chip.syErr_blocks (b : Nat) :
    (c.syErr b).clk = c.clk ∧ (c.syErr b).por = c.por ∧ (c.syErr b).id = c.id ∧ (c.syErr b).draws = c.draws ∧ (c.syErr b).cfg = c.cfg ∧
    (c.syErr b).qy = c.qy ∧ (c.syErr b).me = c.me ∧ (c.syErr b).sd = c.sd ∧ (c.syErr b).oc = c.oc ∧ (c.syErr b).fg = c.fg ∧ (c.syErr b).sv
    = c.sv ∧ (c.syErr b).tt = c.tt ∧ (c.syErr b).mc = c.mc ∧ (c.syErr b).bs = c.bs ∧ (c.syErr b).so = c.so ∧ (c.syErr b).pl = c.pl ∧
    (c.syErr b).hm = c.hm ∧ (c.syErr b).lg = c.lg ∧ (c.syErr b).pm = c.pm ∧ (c.syErr b).tm = c.tm ∧ (c.syErr b).dram = c.dram ∧ (c.syErr
    b).basin = c.basin ∧ (c.syErr b).sram = c.sram ∧ (c.syErr b).tx = c.tx ∧ (c.syErr b).bus = c.bus ∧
    (c.syErr b).met = c.met := by
  simp [Chip.syErr]

@[simp] theorem Chip.syErr_sy (b : Nat) : (c.syErr b).sy = { c.sy with err := setBit c.sy.err b } := by
  simp [Chip.syErr]

@[simp] theorem Chip.hmErr_blocks (b : Nat) :
    (c.hmErr b).clk = c.clk ∧ (c.hmErr b).por = c.por ∧ (c.hmErr b).id = c.id ∧ (c.hmErr b).draws = c.draws ∧ (c.hmErr b).cfg = c.cfg ∧
    (c.hmErr b).qy = c.qy ∧ (c.hmErr b).me = c.me ∧ (c.hmErr b).sd = c.sd ∧ (c.hmErr b).oc = c.oc ∧ (c.hmErr b).fg = c.fg ∧ (c.hmErr b).sv
    = c.sv ∧ (c.hmErr b).tt = c.tt ∧ (c.hmErr b).mc = c.mc ∧ (c.hmErr b).bs = c.bs ∧ (c.hmErr b).sy = c.sy ∧ (c.hmErr b).so = c.so ∧
    (c.hmErr b).pl = c.pl ∧ (c.hmErr b).lg = c.lg ∧ (c.hmErr b).pm = c.pm ∧ (c.hmErr b).tm = c.tm ∧ (c.hmErr b).dram = c.dram ∧ (c.hmErr
    b).basin = c.basin ∧ (c.hmErr b).sram = c.sram ∧ (c.hmErr b).tx = c.tx ∧ (c.hmErr b).bus = c.bus ∧
    (c.hmErr b).met = c.met := by
  simp [Chip.hmErr]

@[simp] theorem Chip.hmErr_hm (b : Nat) : (c.hmErr b).hm = { c.hm with err := setBit c.hm.err b } := by
  simp [Chip.hmErr]

@[simp] theorem Chip.lgErr_blocks (b : Nat) :
    (c.lgErr b).clk = c.clk ∧ (c.lgErr b).por = c.por ∧ (c.lgErr b).id = c.id ∧ (c.lgErr b).draws = c.draws ∧ (c.lgErr b).cfg = c.cfg ∧
    (c.lgErr b).qy = c.qy ∧ (c.lgErr b).me = c.me ∧ (c.lgErr b).sd = c.sd ∧ (c.lgErr b).oc = c.oc ∧ (c.lgErr b).fg = c.fg ∧ (c.lgErr b).sv
    = c.sv ∧ (c.lgErr b).tt = c.tt ∧ (c.lgErr b).mc = c.mc ∧ (c.lgErr b).bs = c.bs ∧ (c.lgErr b).sy = c.sy ∧ (c.lgErr b).so = c.so ∧
    (c.lgErr b).pl = c.pl ∧ (c.lgErr b).hm = c.hm ∧ (c.lgErr b).pm = c.pm ∧ (c.lgErr b).tm = c.tm ∧ (c.lgErr b).dram = c.dram ∧ (c.lgErr
    b).basin = c.basin ∧ (c.lgErr b).sram = c.sram ∧ (c.lgErr b).tx = c.tx ∧ (c.lgErr b).bus = c.bus ∧
    (c.lgErr b).met = c.met := by
  simp [Chip.lgErr]

@[simp] theorem Chip.lgErr_lg (b : Nat) : (c.lgErr b).lg = { c.lg with err := setBit c.lg.err b } := by
  simp [Chip.lgErr]

@[simp] theorem Chip.pmErr_blocks (b : Nat) :
    (c.pmErr b).clk = c.clk ∧ (c.pmErr b).por = c.por ∧ (c.pmErr b).id = c.id ∧ (c.pmErr b).draws = c.draws ∧ (c.pmErr b).cfg = c.cfg ∧
    (c.pmErr b).qy = c.qy ∧ (c.pmErr b).me = c.me ∧ (c.pmErr b).sd = c.sd ∧ (c.pmErr b).oc = c.oc ∧ (c.pmErr b).fg = c.fg ∧ (c.pmErr b).sv
    = c.sv ∧ (c.pmErr b).tt = c.tt ∧ (c.pmErr b).mc = c.mc ∧ (c.pmErr b).bs = c.bs ∧ (c.pmErr b).sy = c.sy ∧ (c.pmErr b).so = c.so ∧
    (c.pmErr b).pl = c.pl ∧ (c.pmErr b).hm = c.hm ∧ (c.pmErr b).lg = c.lg ∧ (c.pmErr b).tm = c.tm ∧ (c.pmErr b).dram = c.dram ∧ (c.pmErr
    b).basin = c.basin ∧ (c.pmErr b).sram = c.sram ∧ (c.pmErr b).tx = c.tx ∧ (c.pmErr b).bus = c.bus ∧
    (c.pmErr b).met = c.met := by
  simp [Chip.pmErr]

@[simp] theorem Chip.pmErr_pm (b : Nat) : (c.pmErr b).pm = { c.pm with err := setBit c.pm.err b } := by
  simp [Chip.pmErr]

@[simp] theorem Chip.tmErr_blocks (b : Nat) :
    (c.tmErr b).clk = c.clk ∧ (c.tmErr b).por = c.por ∧ (c.tmErr b).id = c.id ∧ (c.tmErr b).draws = c.draws ∧ (c.tmErr b).cfg = c.cfg ∧
    (c.tmErr b).qy = c.qy ∧ (c.tmErr b).me = c.me ∧ (c.tmErr b).sd = c.sd ∧ (c.tmErr b).oc = c.oc ∧ (c.tmErr b).fg = c.fg ∧ (c.tmErr b).sv
    = c.sv ∧ (c.tmErr b).tt = c.tt ∧ (c.tmErr b).mc = c.mc ∧ (c.tmErr b).bs = c.bs ∧ (c.tmErr b).sy = c.sy ∧ (c.tmErr b).so = c.so ∧
    (c.tmErr b).pl = c.pl ∧ (c.tmErr b).hm = c.hm ∧ (c.tmErr b).lg = c.lg ∧ (c.tmErr b).pm = c.pm ∧ (c.tmErr b).dram = c.dram ∧ (c.tmErr
    b).basin = c.basin ∧ (c.tmErr b).sram = c.sram ∧ (c.tmErr b).tx = c.tx ∧ (c.tmErr b).bus = c.bus ∧
    (c.tmErr b).met = c.met := by
  simp [Chip.tmErr]

@[simp] theorem Chip.tmErr_tm (b : Nat) : (c.tmErr b).tm = { c.tm with err := setBit c.tm.err b } := by
  simp [Chip.tmErr]

@[simp] theorem Chip.snEvt_blocks (b : Nat) :
    (c.snEvt b).clk = c.clk ∧ (c.snEvt b).por = c.por ∧ (c.snEvt b).id = c.id ∧ (c.snEvt b).draws = c.draws ∧ (c.snEvt b).cfg = c.cfg ∧
    (c.snEvt b).qy = c.qy ∧ (c.snEvt b).me = c.me ∧ (c.snEvt b).sd = c.sd ∧ (c.snEvt b).oc = c.oc ∧ (c.snEvt b).fg = c.fg ∧ (c.snEvt b).sv
    = c.sv ∧ (c.snEvt b).tt = c.tt ∧ (c.snEvt b).mc = c.mc ∧ (c.snEvt b).bs = c.bs ∧ (c.snEvt b).sy = c.sy ∧ (c.snEvt b).so = c.so ∧
    (c.snEvt b).pl = c.pl ∧ (c.snEvt b).hm = c.hm ∧ (c.snEvt b).lg = c.lg ∧ (c.snEvt b).pm = c.pm ∧ (c.snEvt b).tm = c.tm ∧ (c.snEvt
    b).dram = c.dram ∧ (c.snEvt b).basin = c.basin ∧ (c.snEvt b).sram = c.sram ∧ (c.snEvt b).tx = c.tx ∧ (c.snEvt b).bus = c.bus ∧
    (c.snEvt b).met = c.met := by
  simp [Chip.snEvt]

@[simp] theorem Chip.plErr_blocks (b : Nat) :
    (c.plErr b).clk = c.clk ∧ (c.plErr b).por = c.por ∧ (c.plErr b).id = c.id ∧ (c.plErr b).draws = c.draws ∧ (c.plErr b).cfg = c.cfg ∧
    (c.plErr b).qy = c.qy ∧ (c.plErr b).me = c.me ∧ (c.plErr b).sd = c.sd ∧ (c.plErr b).oc = c.oc ∧ (c.plErr b).fg = c.fg ∧ (c.plErr b).sv
    = c.sv ∧ (c.plErr b).tt = c.tt ∧ (c.plErr b).mc = c.mc ∧ (c.plErr b).bs = c.bs ∧ (c.plErr b).sy = c.sy ∧ (c.plErr b).so = c.so ∧
    (c.plErr b).hm = c.hm ∧ (c.plErr b).lg = c.lg ∧ (c.plErr b).pm = c.pm ∧ (c.plErr b).tm = c.tm ∧ (c.plErr b).dram = c.dram ∧ (c.plErr
    b).basin = c.basin ∧ (c.plErr b).sram = c.sram ∧ (c.plErr b).tx = c.tx ∧ (c.plErr b).bus = c.bus ∧
    (c.plErr b).met = c.met := by
  simp [Chip.plErr]

@[simp] theorem Chip.plErr_pl (b : Nat) : (c.plErr b).pl = { c.pl with err := setBit c.pl.err b } := by
  simp [Chip.plErr]

@[simp] theorem Chip.lhErr_blocks (b : Nat) :
    (c.lhErr b).clk = c.clk ∧ (c.lhErr b).por = c.por ∧ (c.lhErr b).id = c.id ∧ (c.lhErr b).draws = c.draws ∧ (c.lhErr b).cfg = c.cfg ∧
    (c.lhErr b).qy = c.qy ∧ (c.lhErr b).me = c.me ∧ (c.lhErr b).sd = c.sd ∧ (c.lhErr b).oc = c.oc ∧ (c.lhErr b).fg = c.fg ∧ (c.lhErr b).sv
    = c.sv ∧ (c.lhErr b).tt = c.tt ∧ (c.lhErr b).mc = c.mc ∧ (c.lhErr b).bs = c.bs ∧ (c.lhErr b).sy = c.sy ∧ (c.lhErr b).so = c.so ∧
    (c.lhErr b).pl = c.pl ∧ (c.lhErr b).hm = c.hm ∧ (c.lhErr b).lg = c.lg ∧ (c.lhErr b).pm = c.pm ∧ (c.lhErr b).tm = c.tm ∧ (c.lhErr
    b).dram = c.dram ∧ (c.lhErr b).basin = c.basin ∧ (c.lhErr b).sram = c.sram ∧ (c.lhErr b).tx = c.tx ∧ (c.lhErr b).bus = c.bus ∧
    (c.lhErr b).met = c.met := by
  simp [Chip.lhErr]

@[simp] theorem Chip.icErr_blocks (b : Nat) :
    (c.icErr b).clk = c.clk ∧ (c.icErr b).por = c.por ∧ (c.icErr b).id = c.id ∧ (c.icErr b).draws = c.draws ∧ (c.icErr b).cfg = c.cfg ∧
    (c.icErr b).qy = c.qy ∧ (c.icErr b).me = c.me ∧ (c.icErr b).sd = c.sd ∧ (c.icErr b).oc = c.oc ∧ (c.icErr b).fg = c.fg ∧ (c.icErr b).sv
    = c.sv ∧ (c.icErr b).tt = c.tt ∧ (c.icErr b).mc = c.mc ∧ (c.icErr b).bs = c.bs ∧ (c.icErr b).sy = c.sy ∧ (c.icErr b).so = c.so ∧
    (c.icErr b).pl = c.pl ∧ (c.icErr b).hm = c.hm ∧ (c.icErr b).lg = c.lg ∧ (c.icErr b).pm = c.pm ∧ (c.icErr b).tm = c.tm ∧ (c.icErr
    b).dram = c.dram ∧ (c.icErr b).basin = c.basin ∧ (c.icErr b).sram = c.sram ∧ (c.icErr b).tx = c.tx ∧ (c.icErr b).bus = c.bus ∧
    (c.icErr b).met = c.met := by
  simp [Chip.icErr]

@[simp] theorem Chip.ocErr_blocks (b a : Nat) :
    (c.ocErr b a).clk = c.clk ∧ (c.ocErr b a).por = c.por ∧ (c.ocErr b a).id = c.id ∧ (c.ocErr b a).draws = c.draws ∧ (c.ocErr b a).cfg =
    c.cfg ∧ (c.ocErr b a).qy = c.qy ∧ (c.ocErr b a).me = c.me ∧ (c.ocErr b a).sd = c.sd ∧ (c.ocErr b a).fg = c.fg ∧ (c.ocErr b a).sv = c.sv
    ∧ (c.ocErr b a).tt = c.tt ∧ (c.ocErr b a).mc = c.mc ∧ (c.ocErr b a).bs = c.bs ∧ (c.ocErr b a).sy = c.sy ∧ (c.ocErr b a).so = c.so ∧
    (c.ocErr b a).pl = c.pl ∧ (c.ocErr b a).hm = c.hm ∧ (c.ocErr b a).lg = c.lg ∧ (c.ocErr b a).pm = c.pm ∧ (c.ocErr b a).tm = c.tm ∧
    (c.ocErr b a).dram = c.dram ∧ (c.ocErr b a).basin = c.basin ∧ (c.ocErr b a).sram = c.sram ∧ (c.ocErr b a).tx = c.tx ∧ (c.ocErr b a).bus
    = c.bus ∧
    (c.ocErr b a).met = c.met := by
  simp [Chip.ocErr]

@[simp] theorem Chip.mcErr_blocks (b : Nat) (info : Word) (addr : Nat) (step : Word) :
    (c.mcErr b info addr step).clk = c.clk ∧ (c.mcErr b info addr step).por = c.por ∧ (c.mcErr b info addr step).id = c.id ∧ (c.mcErr b
    info addr step).draws = c.draws ∧ (c.mcErr b info addr step).cfg = c.cfg ∧ (c.mcErr b info addr step).qy = c.qy ∧ (c.mcErr b info addr
    step).me = c.me ∧ (c.mcErr b info addr step).sd = c.sd ∧ (c.mcErr b info addr step).oc = c.oc ∧ (c.mcErr b info addr step).fg = c.fg ∧
    (c.mcErr b info addr step).sv = c.sv ∧ (c.mcErr b info addr step).tt = c.tt ∧ (c.mcErr b info addr step).bs = c.bs ∧ (c.mcErr b info
    addr step).sy = c.sy ∧ (c.mcErr b info addr step).so = c.so ∧ (c.mcErr b info addr step).pl = c.pl ∧ (c.mcErr b info addr step).hm =
    c.hm ∧ (c.mcErr b info addr step).lg = c.lg ∧ (c.mcErr b info addr step).pm = c.pm ∧ (c.mcErr b info addr step).tm = c.tm ∧ (c.mcErr b
    info addr step).dram = c.dram ∧ (c.mcErr b info addr step).basin = c.basin ∧ (c.mcErr b info addr step).sram = c.sram ∧ (c.mcErr b info
    addr step).tx = c.tx ∧ (c.mcErr b info addr step).bus = c.bus ∧
    (c.mcErr b info addr step).met = c.met := by
  simp [Chip.mcErr]

@[simp] theorem Chip.bsErr_blocks (b : Nat) (info : Word) (addr : Nat) (step : Word) :
    (c.bsErr b info addr step).clk = c.clk ∧ (c.bsErr b info addr step).por = c.por ∧ (c.bsErr b info addr step).id = c.id ∧ (c.bsErr b
    info addr step).draws = c.draws ∧ (c.bsErr b info addr step).cfg = c.cfg ∧ (c.bsErr b info addr step).qy = c.qy ∧ (c.bsErr b info addr
    step).me = c.me ∧ (c.bsErr b info addr step).sd = c.sd ∧ (c.bsErr b info addr step).oc = c.oc ∧ (c.bsErr b info addr step).fg = c.fg ∧
    (c.bsErr b info addr step).sv = c.sv ∧ (c.bsErr b info addr step).tt = c.tt ∧ (c.bsErr b info addr step).mc = c.mc ∧ (c.bsErr b info
    addr step).sy = c.sy ∧ (c.bsErr b info addr step).so = c.so ∧ (c.bsErr b info addr step).pl = c.pl ∧ (c.bsErr b info addr step).hm =
    c.hm ∧ (c.bsErr b info addr step).lg = c.lg ∧ (c.bsErr b info addr step).pm = c.pm ∧ (c.bsErr b info addr step).tm = c.tm ∧ (c.bsErr b
    info addr step).dram = c.dram ∧ (c.bsErr b info addr step).basin = c.basin ∧ (c.bsErr b info addr step).sram = c.sram ∧ (c.bsErr b info
    addr step).tx = c.tx ∧ (c.bsErr b info addr step).bus = c.bus ∧
    (c.bsErr b info addr step).met = c.met := by
  simp [Chip.bsErr]

@[simp] theorem Chip.soEvt_blocks (n b : Nat) :
    (c.soEvt n b).clk = c.clk ∧ (c.soEvt n b).por = c.por ∧ (c.soEvt n b).id = c.id ∧ (c.soEvt n b).draws = c.draws ∧ (c.soEvt n b).cfg =
    c.cfg ∧ (c.soEvt n b).qy = c.qy ∧ (c.soEvt n b).me = c.me ∧ (c.soEvt n b).sd = c.sd ∧ (c.soEvt n b).oc = c.oc ∧ (c.soEvt n b).fg = c.fg
    ∧ (c.soEvt n b).sv = c.sv ∧ (c.soEvt n b).tt = c.tt ∧ (c.soEvt n b).mc = c.mc ∧ (c.soEvt n b).bs = c.bs ∧ (c.soEvt n b).sy = c.sy ∧
    (c.soEvt n b).pl = c.pl ∧ (c.soEvt n b).hm = c.hm ∧ (c.soEvt n b).lg = c.lg ∧ (c.soEvt n b).pm = c.pm ∧ (c.soEvt n b).tm = c.tm ∧
    (c.soEvt n b).dram = c.dram ∧ (c.soEvt n b).basin = c.basin ∧ (c.soEvt n b).sram = c.sram ∧ (c.soEvt n b).tx = c.tx ∧ (c.soEvt n b).bus
    = c.bus ∧
    (c.soEvt n b).met = c.met := by
  simp only [Chip.soEvt]
  split <;> simp

/-! ### Triggers -/

@[simp] theorem Chip.latch_blocks (cause detail : Nat) :
    (c.latch cause detail).clk = c.clk ∧ (c.latch cause detail).por = c.por ∧ (c.latch cause detail).id = c.id ∧ (c.latch cause
    detail).draws = c.draws ∧ (c.latch cause detail).cfg = c.cfg ∧ (c.latch cause detail).qy = c.qy ∧ (c.latch cause detail).me = c.me ∧
    (c.latch cause detail).sd = c.sd ∧ (c.latch cause detail).oc = c.oc ∧ (c.latch cause detail).fg = c.fg ∧ (c.latch cause detail).sv =
    c.sv ∧ (c.latch cause detail).tt = c.tt ∧ (c.latch cause detail).mc = c.mc ∧ (c.latch cause detail).bs = c.bs ∧ (c.latch cause
    detail).sy = c.sy ∧ (c.latch cause detail).so = c.so ∧ (c.latch cause detail).pl = c.pl ∧ (c.latch cause detail).hm = c.hm ∧ (c.latch
    cause detail).lg = c.lg ∧ (c.latch cause detail).pm = c.pm ∧ (c.latch cause detail).tm = c.tm ∧ (c.latch cause detail).dram = c.dram ∧
    (c.latch cause detail).basin = c.basin ∧ (c.latch cause detail).sram = c.sram ∧ (c.latch cause detail).tx = c.tx ∧ (c.latch cause
    detail).bus = c.bus ∧
    (c.latch cause detail).met = c.met := by
  simp [Chip.latch]

@[simp] theorem Chip.trigger_blocks (cause detail : Nat) :
    (c.trigger cause detail).clk = c.clk ∧ (c.trigger cause detail).por = c.por ∧ (c.trigger cause detail).id = c.id ∧ (c.trigger cause
    detail).draws = c.draws ∧ (c.trigger cause detail).cfg = c.cfg ∧ (c.trigger cause detail).qy = c.qy ∧ (c.trigger cause detail).me =
    c.me ∧ (c.trigger cause detail).sd = c.sd ∧ (c.trigger cause detail).oc = c.oc ∧ (c.trigger cause detail).fg = c.fg ∧ (c.trigger cause
    detail).sv = c.sv ∧ (c.trigger cause detail).tt = c.tt ∧ (c.trigger cause detail).mc = c.mc ∧ (c.trigger cause detail).bs = c.bs ∧
    (c.trigger cause detail).sy = c.sy ∧ (c.trigger cause detail).so = c.so ∧ (c.trigger cause detail).pl = c.pl ∧ (c.trigger cause
    detail).hm = c.hm ∧ (c.trigger cause detail).lg = c.lg ∧ (c.trigger cause detail).pm = c.pm ∧ (c.trigger cause detail).tm = c.tm ∧
    (c.trigger cause detail).dram = c.dram ∧ (c.trigger cause detail).basin = c.basin ∧ (c.trigger cause detail).sram = c.sram ∧ (c.trigger
    cause detail).tx = c.tx ∧ (c.trigger cause detail).bus = c.bus ∧
    (c.trigger cause detail).met = c.met := by
  simp only [Chip.trigger]
  repeat' split
  all_goals simp

theorem Chip.triggers_blocks (l : List (Nat × Nat)) :
    (l.foldl (fun (c : Chip) a => c.trigger a.1 a.2) c).clk = c.clk ∧ (l.foldl (fun (c : Chip) a => c.trigger a.1 a.2) c).por = c.por ∧
    (l.foldl (fun (c : Chip) a => c.trigger a.1 a.2) c).id = c.id ∧ (l.foldl (fun (c : Chip) a => c.trigger a.1 a.2) c).draws = c.draws ∧
    (l.foldl (fun (c : Chip) a => c.trigger a.1 a.2) c).cfg = c.cfg ∧ (l.foldl (fun (c : Chip) a => c.trigger a.1 a.2) c).qy = c.qy ∧
    (l.foldl (fun (c : Chip) a => c.trigger a.1 a.2) c).me = c.me ∧ (l.foldl (fun (c : Chip) a => c.trigger a.1 a.2) c).sd = c.sd ∧
    (l.foldl (fun (c : Chip) a => c.trigger a.1 a.2) c).oc = c.oc ∧ (l.foldl (fun (c : Chip) a => c.trigger a.1 a.2) c).fg = c.fg ∧
    (l.foldl (fun (c : Chip) a => c.trigger a.1 a.2) c).sv = c.sv ∧ (l.foldl (fun (c : Chip) a => c.trigger a.1 a.2) c).tt = c.tt ∧
    (l.foldl (fun (c : Chip) a => c.trigger a.1 a.2) c).mc = c.mc ∧ (l.foldl (fun (c : Chip) a => c.trigger a.1 a.2) c).bs = c.bs ∧
    (l.foldl (fun (c : Chip) a => c.trigger a.1 a.2) c).sy = c.sy ∧ (l.foldl (fun (c : Chip) a => c.trigger a.1 a.2) c).so = c.so ∧
    (l.foldl (fun (c : Chip) a => c.trigger a.1 a.2) c).pl = c.pl ∧ (l.foldl (fun (c : Chip) a => c.trigger a.1 a.2) c).hm = c.hm ∧
    (l.foldl (fun (c : Chip) a => c.trigger a.1 a.2) c).lg = c.lg ∧ (l.foldl (fun (c : Chip) a => c.trigger a.1 a.2) c).pm = c.pm ∧
    (l.foldl (fun (c : Chip) a => c.trigger a.1 a.2) c).tm = c.tm ∧ (l.foldl (fun (c : Chip) a => c.trigger a.1 a.2) c).dram = c.dram ∧
    (l.foldl (fun (c : Chip) a => c.trigger a.1 a.2) c).basin = c.basin ∧ (l.foldl (fun (c : Chip) a => c.trigger a.1 a.2) c).sram = c.sram
    ∧ (l.foldl (fun (c : Chip) a => c.trigger a.1 a.2) c).tx = c.tx ∧ (l.foldl (fun (c : Chip) a => c.trigger a.1 a.2) c).bus = c.bus ∧
    (l.foldl (fun (c : Chip) a => c.trigger a.1 a.2) c).met = c.met := by
  induction l generalizing c with
  | nil => simp
  | cons a l ih =>
    have h := ih (c.trigger a.1 a.2)
    simp only [Chip.trigger_blocks] at h
    exact h

@[simp] theorem Chip.settle_blocks  :
    (c.settle).clk = c.clk ∧ (c.settle).por = c.por ∧ (c.settle).id = c.id ∧ (c.settle).draws = c.draws ∧ (c.settle).cfg = c.cfg ∧
    (c.settle).qy = c.qy ∧ (c.settle).me = c.me ∧ (c.settle).sd = c.sd ∧ (c.settle).oc = c.oc ∧ (c.settle).fg = c.fg ∧ (c.settle).sv = c.sv
    ∧ (c.settle).tt = c.tt ∧ (c.settle).mc = c.mc ∧ (c.settle).bs = c.bs ∧ (c.settle).sy = c.sy ∧ (c.settle).so = c.so ∧ (c.settle).pl =
    c.pl ∧ (c.settle).hm = c.hm ∧ (c.settle).lg = c.lg ∧ (c.settle).pm = c.pm ∧ (c.settle).tm = c.tm ∧ (c.settle).dram = c.dram ∧
    (c.settle).basin = c.basin ∧ (c.settle).sram = c.sram ∧ (c.settle).tx = c.tx ∧ (c.settle).bus = c.bus ∧
    (c.settle).met = c.met := by
  simp only [Chip.settle]
  split
  · have h := Chip.triggers_blocks (c.updSn (fun s => { s with ask := [] })) c.sn.ask
    simp only [Chip.updSn_blocks] at h
    exact h
  · simp

/-! ### Time -/

@[simp] theorem Chip.elapse_blocks (dt : Nat) :
    (c.elapse dt).por = c.por ∧ (c.elapse dt).id = c.id ∧ (c.elapse dt).draws = c.draws ∧ (c.elapse dt).cfg = c.cfg ∧ (c.elapse dt).qy =
    c.qy ∧ (c.elapse dt).me = c.me ∧ (c.elapse dt).sd = c.sd ∧ (c.elapse dt).fg = c.fg ∧ (c.elapse dt).sv = c.sv ∧ (c.elapse dt).tt = c.tt
    ∧ (c.elapse dt).bs = c.bs ∧ (c.elapse dt).sy = c.sy ∧ (c.elapse dt).ic = c.ic ∧ (c.elapse dt).so = c.so ∧ (c.elapse dt).pl = c.pl ∧
    (c.elapse dt).hm = c.hm ∧ (c.elapse dt).lg = c.lg ∧ (c.elapse dt).lh = c.lh ∧ (c.elapse dt).sn = c.sn ∧ (c.elapse dt).dram = c.dram ∧
    (c.elapse dt).basin = c.basin ∧ (c.elapse dt).sram = c.sram ∧ (c.elapse dt).tx = c.tx ∧ (c.elapse dt).bus = c.bus ∧
    (c.elapse dt).met = c.met := by
  simp only [Chip.elapse]
  repeat' split
  all_goals simp

/-- Time passes on the reference and the Lighthouse clock alike, on device time at its rate (R74), and on none in power-on reset. -/
theorem Chip.elapse_clk (dt : Nat) : (c.elapse dt).clk = if c.por then c.clk else c.clk.run dt := by
  simp only [Chip.elapse]
  repeat' split
  all_goals simp

@[simp] theorem Chip.elapse_up (dt : Nat) : (c.elapse dt).up = c.up := by simp [Chip.up]
@[simp] theorem Chip.elapse_awake (dt : Nat) : (c.elapse dt).awake = c.awake := by simp [Chip.awake]
@[simp] theorem Chip.elapse_str (dt : Nat) : (c.elapse dt).str = c.str := by simp [Chip.str]

/-! ### The outcome of a command -/

/-- Outside the factory test state a command of the chip alone answers a next state: where its precondition holds, its effect and what
follows it; where it fails, time has passed. -/
theorem run_next {dt : When} {ok : Chip → Bool} {effect : Chip → Chip} {s : State} (h : s.chip.id.straps.testMode = false) :
    run dt ok effect s = .next { s with
      chip := if ok (s.chip.arrive dt) then (effect (s.chip.arrive dt)).follow else { s.chip.arrive dt with met := [] } } := by
  simp [run, h]

/-- A command of the chip alone, where its precondition holds. -/
theorem run_ok {dt : When} {ok : Chip → Bool} {effect : Chip → Chip} {s : State} (h : s.chip.id.straps.testMode = false)
    (k : ok (s.chip.arrive dt) = true) : run dt ok effect s = .next { s with chip := (effect (s.chip.arrive dt)).follow } := by
  simp [run_next h, k]

/-- A command of the chip alone, where its precondition fails. -/
theorem run_not {dt : When} {ok : Chip → Bool} {effect : Chip → Chip} {s : State} (h : s.chip.id.straps.testMode = false)
    (k : ok (s.chip.arrive dt) = false) : run dt ok effect s = .next { s with chip := { s.chip.arrive dt with met := [] } } := by
  simp [run_next h, k]

/-- Everything that a command of the chip alone can do. -/
theorem run_cases {dt : When} {ok : Chip → Bool} {effect : Chip → Chip} {s t : State} (h : run dt ok effect s = .next t) :
    s.chip.id.straps.testMode = false ∧
      ((ok (s.chip.arrive dt) = true ∧ t = { s with chip := (effect (s.chip.arrive dt)).follow }) ∨
       (ok (s.chip.arrive dt) = false ∧ t = { s with chip := { s.chip.arrive dt with met := [] } })) := by
  unfold run at h
  split at h
  · cases h
  · rename_i hm
    simp only [Host.Outcome.next.injEq] at h
    refine ⟨by simpa using hm, ?_⟩
    cases hk : ok (s.chip.arrive dt) <;> simp [hk] at h <;> simp [← h]

/-- A command that reaches the fuses or the flash, where its precondition holds. -/
theorem runState_ok {dt : When} {ok : State → Bool} {effect : State → State} {s : State} (h : s.chip.id.straps.testMode = false)
    (k : ok { s with chip := s.chip.arrive dt } = true) :
    runState dt ok effect s = .next { effect { s with chip := s.chip.arrive dt } with
      chip := (effect { s with chip := s.chip.arrive dt }).chip.follow } := by
  simp [runState, h, k]

/-- Everything that a command that reaches the fuses or the flash can do. -/
theorem runState_cases {dt : When} {ok : State → Bool} {effect : State → State} {s t : State} (h : runState dt ok effect s = .next t) :
    s.chip.id.straps.testMode = false ∧
      ((ok { s with chip := s.chip.arrive dt } = true ∧ t = { effect { s with chip := s.chip.arrive dt } with
          chip := (effect { s with chip := s.chip.arrive dt }).chip.follow }) ∨
       (ok { s with chip := s.chip.arrive dt } = false ∧ t = { s with chip := { s.chip.arrive dt with met := [] } })) := by
  unfold runState at h
  split at h
  · cases h
  · rename_i hm
    simp only [Host.Outcome.next.injEq] at h
    refine ⟨by simpa using hm, ?_⟩
    cases hk : ok { s with chip := s.chip.arrive dt } <;> simp [hk] at h <;> simp [← h]

end Sys2Proof.Machine
end

