-- ==== Sys2Proof/Laws/Does.lean ====
section
/-! SUPPORT. How a statement that a command completes is proved: the command's row names its precondition and its effect. -/

namespace Sys2Proof.Machine

/-- A command of the chip alone does what its effect does. -/
theorem Does.of_run {i : Instr} {dt : When} {ok : Chip → Bool} {effect : Chip → Chip} {hyp : Chip → Prop} {concl : Chip → Chip → Prop}
    (hi : ∀ s, exec i s = run dt ok effect s) (hok : ∀ b, hyp b → ok b = true) (hc : ∀ b, hyp b → concl b (effect b)) :
    Does i dt hyp concl := fun s ht h => ⟨effect (s.chip.arrive dt), by rw [hi, run_ok ht (hok _ h)], hc _ h⟩

/-- A command that may reach the fuses or the flash does what its effect does. -/
theorem DoesState.of_runState {i : Instr} {dt : When} {ok : State → Bool} {effect : State → State} {hyp : State → Prop}
    {concl : State → State → Prop} (hi : ∀ s, exec i s = runState dt ok effect s) (hok : ∀ b, hyp b → ok b = true)
    (hq : ∀ b, hyp b → (effect b).pending = b.pending) (hc : ∀ b, hyp b → concl b (effect b)) : DoesState i dt hyp concl :=
  fun s ht h => ⟨effect { s with chip := s.chip.arrive dt }, by rw [hi, runState_ok ht (hok _ h)], hq _ h, hc _ h⟩

/-- A command that may reach the fuses or the flash, and whose effect here is on the chip alone. -/
theorem Does.of_runState {i : Instr} {dt : When} {ok : State → Bool} {effect : State → State} {act : Chip → Chip} {hyp : Chip → Prop}
    {concl : Chip → Chip → Prop} (hi : ∀ s, exec i s = runState dt ok effect s) (hok : ∀ s, hyp s.chip → ok s = true)
    (he : ∀ s : State, hyp s.chip → effect s = { s with chip := act s.chip }) (hc : ∀ b, hyp b → concl b (act b)) :
    Does i dt hyp concl := fun s ht h => by
  refine ⟨act (s.chip.arrive dt), ?_, hc _ h⟩
  rw [hi, runState_ok ht (hok _ h), he _ h]

end Sys2Proof.Machine
end

