-- ==== Sys2Proof/Laws/Memory.lean ====
section
/-! SUPPORT. The laws of memory: every operation keeps the canonical form, a read gives the bytes last written, and a write leaves every other
byte as it was. -/

namespace Sys2Proof.Machine

/-! ### The canonical form -/

theorem Memory.wfFrom_weaken {lo k : Nat} {m : Memory} (h : Memory.wfFrom k m = true) (hk : lo ≤ k) : Memory.wfFrom lo m = true := by
  cases m with
  | nil => rfl
  | cons p r =>
    simp only [Memory.wfFrom, Bool.and_eq_true, decide_eq_true_eq] at h ⊢
    exact ⟨⟨by omega, h.1.2⟩, h.2⟩

theorem Memory.wfFrom_append {lo k : Nat} {l r : Memory} (hl : Memory.wfFrom lo l = true) (hb : ∀ p ∈ l, p.1 < k) (hlo : lo ≤ k)
    (hr : Memory.wfFrom k r = true) : Memory.wfFrom lo (l ++ r) = true := by
  induction l generalizing lo with
  | nil => exact Memory.wfFrom_weaken hr hlo
  | cons p l ih =>
    simp only [List.cons_append, Memory.wfFrom, Bool.and_eq_true, decide_eq_true_eq] at hl ⊢
    have hp := hb p (by simp)
    exact ⟨hl.1, ih hl.2 (fun q hq => hb q (by simp [hq])) (by omega)⟩

theorem Memory.wfFrom_takeWhile {lo : Nat} {m : Memory} (f : Host.Cell → Bool) (h : Memory.wfFrom lo m = true) :
    Memory.wfFrom lo (m.takeWhile f) = true := by
  induction m generalizing lo with
  | nil => rfl
  | cons p r ih =>
    simp only [Memory.wfFrom, Bool.and_eq_true, decide_eq_true_eq] at h
    rw [List.takeWhile_cons]
    split
    · simp only [Memory.wfFrom, Bool.and_eq_true, decide_eq_true_eq]
      exact ⟨h.1, ih h.2⟩
    · rfl

theorem Memory.wfFrom_dropWhile {lo : Nat} {m : Memory} (k : Nat) (h : Memory.wfFrom lo m = true) :
    Memory.wfFrom k (m.dropWhile (fun p => decide (p.1 < k))) = true := by
  induction m generalizing lo with
  | nil => rfl
  | cons p r ih =>
    simp only [Memory.wfFrom, Bool.and_eq_true, decide_eq_true_eq] at h
    rw [List.dropWhile_cons]
    split
    · exact ih h.2
    · rename_i hp
      simp only [decide_eq_true_eq] at hp
      simp only [Memory.wfFrom, Bool.and_eq_true, decide_eq_true_eq]
      exact ⟨⟨by omega, h.1.2⟩, h.2⟩

theorem Memory.wfFrom_filter {lo : Nat} {m : Memory} (f : Host.Cell → Bool) (h : Memory.wfFrom lo m = true) :
    Memory.wfFrom lo (m.filter f) = true := by
  induction m generalizing lo with
  | nil => rfl
  | cons p r ih =>
    simp only [Memory.wfFrom, Bool.and_eq_true, decide_eq_true_eq] at h
    rw [List.filter_cons]
    split
    · simp only [Memory.wfFrom, Bool.and_eq_true, decide_eq_true_eq]
      exact ⟨h.1, ih h.2⟩
    · exact Memory.wfFrom_weaken (ih h.2) (by omega)

theorem takeWhile_lt (a : Nat) (m : Memory) : ∀ p ∈ m.takeWhile (fun p => decide (p.1 < a)), p.1 < a := by
  intro p hp
  induction m with
  | nil => simp at hp
  | cons q r ih =>
    rw [List.takeWhile_cons] at hp
    split at hp
    · rename_i hq
      rcases List.mem_cons.mp hp with rfl | h
      · simpa using hq
      · exact ih h
    · simp at hp

theorem cellsOf_wf (a : Nat) (bs : Bytes) : Memory.wfFrom a (cellsOf a bs) = true := by
  induction bs generalizing a with
  | nil => rfl
  | cons b bs ih =>
    simp only [cellsOf]
    split
    · exact Memory.wfFrom_weaken (ih (a + 1)) (by omega)
    · rename_i hb
      simp only [Memory.wfFrom, ih (a + 1), Bool.and_true, Bool.and_eq_true, decide_eq_true_eq]
      exact ⟨Nat.le_refl a, hb⟩

theorem cellsOf_lt (a : Nat) (bs : Bytes) : ∀ p ∈ cellsOf a bs, p.1 < a + bs.length := by
  induction bs generalizing a with
  | nil => simp [cellsOf]
  | cons b bs ih =>
    intro p hp
    simp only [cellsOf] at hp
    split at hp
    · have := ih (a + 1) p hp
      simp only [List.length_cons]; omega
    · rcases List.mem_cons.mp hp with rfl | h
      · simp
      · have := ih (a + 1) p h
        simp only [List.length_cons]; omega

theorem Memory.splice_wf {m mid : Memory} (a n : Nat) (h : m.wf = true) (hm : Memory.wfFrom a mid = true) (hb : ∀ p ∈ mid, p.1 < a + n) :
    (m.splice a n mid).wf = true := by
  unfold Memory.splice Memory.wf
  rw [List.append_assoc]
  refine Memory.wfFrom_append (k := a) (Memory.wfFrom_takeWhile _ h) (takeWhile_lt a m) (Nat.zero_le _) ?_
  exact Memory.wfFrom_append (k := a + n) hm hb (by omega) (Memory.wfFrom_dropWhile _ h)

/-- A write keeps the canonical form. -/
theorem Memory.write_wf {m : Memory} (a : Nat) (bs : Bytes) (h : m.wf = true) : (m.write a bs).wf = true :=
  Memory.splice_wf a bs.length h (cellsOf_wf a bs) (cellsOf_lt a bs)

/-- A zero-fill keeps the canonical form. -/
theorem Memory.clear_wf {m : Memory} (a n : Nat) (h : m.wf = true) : (m.clear a n).wf = true :=
  Memory.splice_wf a n h rfl (by simp)

theorem Memory.filter_wf {m : Memory} (f : Host.Cell → Bool) (h : m.wf = true) : Memory.wf (m.filter f) = true :=
  Memory.wfFrom_filter f h

/-- The memories at reset are in canonical form. -/
theorem reset_memWf : State.reset.memWf = true := by decide

/-! ### What a byte reads as -/

theorem assoc_none_of_lt {lo x : Nat} {m : Memory} (h : Memory.wfFrom lo m = true) (hx : x < lo) : assoc x m = none := by
  induction m generalizing lo with
  | nil => rfl
  | cons p r ih =>
    simp only [Memory.wfFrom, Bool.and_eq_true, decide_eq_true_eq] at h
    have hp : (p.1 == x) = false := by simp; omega
    have hr := ih h.2 (by omega)
    simp only [assoc, List.find?_cons, hp] at hr ⊢
    exact hr

theorem assoc_append (x : Nat) (l r : Memory) : assoc x (l ++ r) = (assoc x l).or (assoc x r) := by
  simp only [assoc, List.find?_append]
  cases l.find? (fun p => p.1 == x) <;> rfl

theorem assoc_takeWhile {lo : Nat} {m : Memory} (a x : Nat) (h : Memory.wfFrom lo m = true) :
    assoc x (m.takeWhile (fun p => decide (p.1 < a))) = if x < a then assoc x m else none := by
  induction m generalizing lo with
  | nil => simp [assoc]
  | cons p r ih =>
    simp only [Memory.wfFrom, Bool.and_eq_true, decide_eq_true_eq] at h
    rw [List.takeWhile_cons]
    have ih := ih h.2
    split
    · rename_i hp
      simp only [decide_eq_true_eq] at hp
      by_cases hx : p.1 = x
      · subst hx
        simp [assoc, hp]
      · have hx' : (p.1 == x) = false := by simpa using hx
        simp only [assoc, List.find?_cons, hx'] at ih ⊢
        exact ih
    · rename_i hp
      simp only [decide_eq_true_eq] at hp
      by_cases hx : x < a
      · have hn : assoc x (p :: r) = none := assoc_none_of_lt (lo := a) (by
          simp only [Memory.wfFrom, Bool.and_eq_true, decide_eq_true_eq]; exact ⟨⟨by omega, h.1.2⟩, h.2⟩) hx
        rw [if_pos hx, hn]
        rfl
      · simp [assoc, hx]

theorem assoc_dropWhile {lo : Nat} {m : Memory} (k x : Nat) (h : Memory.wfFrom lo m = true) :
    assoc x (m.dropWhile (fun p => decide (p.1 < k))) = if x < k then none else assoc x m := by
  induction m generalizing lo with
  | nil => simp [assoc]
  | cons p r ih =>
    simp only [Memory.wfFrom, Bool.and_eq_true, decide_eq_true_eq] at h
    rw [List.dropWhile_cons]
    have ih := ih h.2
    split
    · rename_i hp
      simp only [decide_eq_true_eq] at hp
      rw [ih]
      by_cases hx : x < k
      · simp [hx]
      · have hx' : (p.1 == x) = false := by simp; omega
        simp only [hx, if_false, assoc, List.find?_cons, hx']
    · rename_i hp
      simp only [decide_eq_true_eq] at hp
      by_cases hx : x < k
      · rw [if_pos hx]
        exact assoc_none_of_lt (lo := k) (by
          simp only [Memory.wfFrom, Bool.and_eq_true, decide_eq_true_eq]; exact ⟨⟨by omega, h.1.2⟩, h.2⟩) hx
      · simp [hx]

theorem assoc_cellsOf (a x : Nat) (bs : Bytes) :
    (assoc x (cellsOf a bs)).getD 0 = if a ≤ x ∧ x < a + bs.length then bs.getD (x - a) 0 else 0 := by
  induction bs generalizing a with
  | nil => simp [cellsOf, assoc]
  | cons b bs ih =>
    simp only [cellsOf, List.length_cons]
    have ih := ih (a + 1)
    by_cases hx : x = a
    · subst hx
      have hn : assoc x (cellsOf (x + 1) bs) = none := assoc_none_of_lt (cellsOf_wf (x + 1) bs) (by omega)
      split
      · rename_i hb
        simp [hn, hb]
      · simp [assoc]
    · have hax : (a == x) = false := by simp; omega
      have hc : (assoc x (if b = 0 then cellsOf (a + 1) bs else (a, b) :: cellsOf (a + 1) bs)).getD 0 =
          (assoc x (cellsOf (a + 1) bs)).getD 0 := by
        split
        · rfl
        · simp [assoc, hax]
      rw [hc, ih]
      by_cases hr : a + 1 ≤ x ∧ x < a + 1 + bs.length
      · rw [if_pos hr, if_pos (by omega)]
        obtain ⟨k, hk⟩ : ∃ k, x - a = k + 1 := ⟨x - a - 1, by omega⟩
        have hk' : x - (a + 1) = k := by omega
        rw [hk, hk', List.getD_cons_succ]
      · rw [if_neg hr, if_neg (by omega)]

theorem Memory.get_splice {m mid : Memory} (a n x : Nat) (h : m.wf = true) (hm : Memory.wfFrom a mid = true) (hb : ∀ p ∈ mid, p.1 < a + n) :
    (m.splice a n mid).get x = if a ≤ x ∧ x < a + n then (assoc x mid).getD 0 else m.get x := by
  unfold Memory.splice Memory.get
  rw [assoc_append, assoc_append, assoc_takeWhile a x h, assoc_dropWhile (a + n) x h]
  by_cases h1 : x < a
  · have hn : assoc x mid = none := assoc_none_of_lt hm h1
    rw [if_pos h1, hn, if_pos (show x < a + n by omega), if_neg (by omega)]
    cases assoc x m <;> rfl
  · by_cases h2 : x < a + n
    · rw [if_neg h1, if_pos h2, if_pos ⟨by omega, h2⟩]
      cases assoc x mid <;> rfl
    · have hn : assoc x mid = none := by
        have hf : mid.find? (fun p => p.1 == x) = none := by
          rw [List.find?_eq_none]
          intro p hp
          have := hb p hp
          simp; omega
        simp [assoc, hf]
      rw [if_neg h1, if_neg h2, hn, if_neg (by omega)]
      cases assoc x m <;> rfl

/-- A byte after a write: the byte written where the write reached, the byte that was there everywhere else. -/
theorem Memory.get_write {m : Memory} (a : Nat) (bs : Bytes) (x : Nat) (h : m.wf = true) :
    (m.write a bs).get x = if a ≤ x ∧ x < a + bs.length then bs.getD (x - a) 0 else m.get x := by
  unfold Memory.write
  rw [Memory.get_splice a bs.length x h (cellsOf_wf a bs) (cellsOf_lt a bs), assoc_cellsOf]
  split <;> rfl

/-- A byte after a zero-fill. -/
theorem Memory.get_clear {m : Memory} (a n x : Nat) (h : m.wf = true) :
    (m.clear a n).get x = if a ≤ x ∧ x < a + n then 0 else m.get x := by
  unfold Memory.clear
  rw [Memory.get_splice a n x h rfl (by simp)]
  split <;> rfl

theorem Memory.readFrom_eq (n a : Nat) {m : Memory} (h : Memory.wfFrom a m = true) :
    Memory.readFrom n a m = (List.range n).map (fun i => m.get (a + i)) := by
  induction n generalizing a m with
  | zero => rfl
  | succ n ih =>
    rw [List.range_succ_eq_map, List.map_cons, List.map_map]
    cases m with
    | nil =>
      simp only [Memory.readFrom, List.cons.injEq]
      refine ⟨rfl, ?_⟩
      rw [ih (a + 1) rfl]
      rfl
    | cons p r =>
      obtain ⟨k, b⟩ := p
      simp only [Memory.wfFrom, Bool.and_eq_true, decide_eq_true_eq] at h
      simp only [Memory.readFrom]
      split
      · rename_i hk
        subst hk
        rw [ih (k + 1) h.2]
        simp only [List.cons.injEq]
        refine ⟨by simp [Memory.get, assoc], ?_⟩
        apply List.map_congr_left
        intro i _
        have hne : (k == k + 1 + i) = false := by simp; omega
        have he : k + (i + 1) = k + 1 + i := by omega
        simp [Memory.get, assoc, Function.comp, he, hne]
      · rename_i hk
        have hw : Memory.wfFrom (a + 1) ((k, b) :: r) = true := by
          simp only [Memory.wfFrom, Bool.and_eq_true, decide_eq_true_eq]; exact ⟨⟨by omega, h.1.2⟩, h.2⟩
        rw [ih (a + 1) hw]
        simp only [List.cons.injEq]
        have hn := assoc_none_of_lt hw (Nat.lt_succ_self a)
        refine ⟨by simp [Memory.get, hn], ?_⟩
        apply List.map_congr_left
        intro i _
        simp only [Function.comp]
        congr 1
        omega

/-- A read gives the bytes one by one. -/
theorem Memory.read_eq {m : Memory} (a n : Nat) (h : m.wf = true) : m.read a n = (List.range n).map (fun i => m.get (a + i)) := by
  unfold Memory.read
  rw [Memory.readFrom_eq n a (Memory.wfFrom_dropWhile a h)]
  apply List.map_congr_left
  intro i _
  unfold Memory.get
  rw [assoc_dropWhile a _ h, if_neg (by omega)]

/-! ### The chip's memories -/

/-- The memories of the chip are in canonical form. -/
def Chip.memWf (c : Chip) : Prop := c.dram.wf = true ∧ c.basin.wf = true ∧ c.sram.wf = true

theorem Chip.updDram_write_memWf {c : Chip} (a : Nat) (bs : Bytes) (h : c.memWf) : (c.updDram (fun m => m.write a bs)).memWf :=
  ⟨Memory.write_wf a bs h.1, h.2.1, h.2.2⟩

theorem Chip.updDram_clear_memWf {c : Chip} (a n : Nat) (h : c.memWf) : (c.updDram (fun m => m.clear a n)).memWf :=
  ⟨Memory.clear_wf a n h.1, h.2.1, h.2.2⟩

theorem Chip.updBasin_write_memWf {c : Chip} (a : Nat) (bs : Bytes) (h : c.memWf) : (c.updBasin (fun m => m.write a bs)).memWf :=
  ⟨h.1, Memory.write_wf a bs h.2.1, h.2.2⟩

theorem Chip.updBasin_clear_memWf {c : Chip} (a n : Nat) (h : c.memWf) : (c.updBasin (fun m => m.clear a n)).memWf :=
  ⟨h.1, Memory.clear_wf a n h.2.1, h.2.2⟩

theorem Chip.updSram_write_memWf {c : Chip} (a : Nat) (bs : Bytes) (h : c.memWf) : (c.updSram (fun m => m.write a bs)).memWf :=
  ⟨h.1, h.2.1, Memory.write_wf a bs h.2.2⟩

theorem Chip.updSram_clear_memWf {c : Chip} (a n : Nat) (h : c.memWf) : (c.updSram (fun m => m.clear a n)).memWf :=
  ⟨h.1, h.2.1, Memory.clear_wf a n h.2.2⟩

theorem foldl_memWf {α : Type} (f : Chip → α → Chip) (hf : ∀ c a, c.memWf → (f c a).memWf) (l : List α) {c : Chip} (h : c.memWf) :
    (l.foldl f c).memWf := by
  induction l generalizing c with
  | nil => exact h
  | cons a l ih => exact ih (hf c a h)

end Sys2Proof.Machine
end

