-- ==== Sys2Proof/Laws/Tables.lean ====
section
/-! SUPPORT. Tables: an element after a change, a key after a change, and where an offset falls in a table of registers. -/

namespace Sys2Proof

/-- An element after another, or itself, is set. -/
theorem vget_vset {α : Type} {n : Nat} (d : α) (v : Vector α n) (i j : Nat) (x : α) : vget d (vset v i x) j = if i = j ∧ i < n then x else vget d v j := by
  unfold vget vset
  by_cases hj : j < n
  · simp [Vector.getD, hj]
    by_cases h : i = j
    · subst h; simp [hj]
    · simp [h, hj]
  · simp [Vector.getD, hj]; omega

/-- An element after another, or itself, is changed. -/
theorem vget_vupd {α : Type} {n : Nat} (d : α) (v : Vector α n) (i j : Nat) (f : α → α) : vget d (vupd d v i f) j = if i = j ∧ i < n then f (vget d v j) else vget d v j := by
  unfold vupd; rw [vget_vset]; split <;> simp_all

/-- A key after a value is put under it or another. -/
theorem assoc_assocSet {α : Type} (k j : Nat) (x : α) (l : List (Nat × α)) :
    assoc j (assocSet k x l) = if j = k then some x else assoc j l := by
  induction l with
  | nil => by_cases h : j = k <;> simp [assoc, assocSet, h]; omega
  | cons p ps ih =>
    unfold assocSet
    split
    · by_cases h : j = k
      · simp [assoc, h]
      · have : (k == j) = false := by simp; omega
        simp [assoc, h, this]
    · split
      · by_cases h : j = k
        · simp [assoc, h]
        · have h1 : (k == j) = false := by simp; omega
          have h2 : (p.1 == j) = false := by simp; omega
          simp [assoc, h, h1, h2]
      · by_cases h : p.1 = j
        · have : j ≠ k := by omega
          simp [assoc, h, this]
        · have h1 : (p.1 == j) = false := by simp; omega
          have h2 : assoc j (p :: assocSet k x ps) = assoc j (assocSet k x ps) := by simp [assoc, h1]
          have h3 : assoc j (p :: ps) = assoc j ps := by simp [assoc, h1]
          rw [h2, h3, ih]

end Sys2Proof

namespace Sys2Proof.Machine

/-- An offset that lies in a table. -/
theorem inTable_hit {base st n o i r : Nat} (h : o = base + st * i + r) (hi : i < n) (hr : r < st) : inTable base st n o = some (i, r) := by
  subst h
  have h1 : st * i + r < st * n := by
    have := Nat.mul_le_mul_left st (show i + 1 ≤ n from hi)
    rw [Nat.mul_add] at this; omega
  have h2 : base + st * i + r - base = r + st * i := by omega
  unfold inTable
  rw [if_pos (by simp; omega), h2, Nat.add_mul_div_left _ _ (by omega), Nat.add_mul_mod_self_left, Nat.div_eq_of_lt hr, Nat.mod_eq_of_lt hr]
  simp

/-- An offset that lies outside a table. -/
theorem inTable_miss {base st n o : Nat} (h : o < base ∨ base + st * n ≤ o) : inTable base st n o = none := by
  unfold inTable; rw [if_neg]; simp; omega

end Sys2Proof.Machine
end

