-- ==== Sys2Proof/Laws/Registers.lean ====
section
/-! SUPPORT. Accesses to a register of a block window, and what a raising counts. -/

namespace Sys2Proof.Machine

/-- An aligned address of a block window. -/
theorem Chip.regPlace_block {c : Chip} {a : Nat} (h : a % 4 = 0) (k : a < 0x140000) : c.regPlace a = some (.block (a / 2 ^ 16) (a % 2 ^ 16)) := by
  simp [Chip.regPlace, h, k]

/-- A write of a register that answers and is not refused: its effect, and the answer (every block but the triggers of SY and TT_CTX_RESTART). -/
theorem Chip.busWrite_eq {addr w o : Nat} {c : Chip} {who v} (h4 : addr % 4 = 0) (hk : addr < 0x140000) (hw : addr / 2 ^ 16 = w)
   (ho : addr % 2 ^ 16 = o) (hon : c.windowOn w = true)
   (hr : (c.readWindow w o).isNone = false) (hf : c.writeRefused who w o v = none)
   (ha : ¬ (w = 0x0A ∧ (o = 0x10 ∨ o = 0x14))) (hb : ¬ (w = 7 ∧ o = 0x2C)) :
   c.busWrite who addr v = ((c.writeWindow w o v).getD c).answer .done := by
  have hon : (windowDomain w).any c.isOff = false := by simpa [Chip.windowOn] using hon
  have ha' : (decide (w = 10) && (decide (o = 16) || decide (o = 20))) = false := by simpa using ha
  have hb' : (decide (w = 7) && decide (o = 44)) = false := by simpa using hb
  simp only [Chip.busWrite, Chip.regWrite, Chip.regPlace_block h4 hk, hw, ho, hon, hr, hf, ha', hb']
  simp

/-- A write that is refused. -/
theorem Chip.busWrite_refused {addr w o : Nat} {c : Chip} {who v code} (h4 : addr % 4 = 0) (hk : addr < 0x140000) (hw : addr / 2 ^ 16 = w)
   (ho : addr % 2 ^ 16 = o) (hon : c.windowOn w = true)
   (hr : (c.readWindow w o).isNone = false) (hf : c.writeRefused who w o v = some code) :
   c.busWrite who addr v = c.answer (.error addr) := by
  have hon : (windowDomain w).any c.isOff = false := by simpa [Chip.windowOn] using hon
  simp only [Chip.busWrite, Chip.regWrite, Chip.regPlace_block h4 hk, hw, ho, hon, hr, hf]
  simp

/-- Latching a wake leaves the Lighthouse's state. -/
@[simp] theorem Chip.latchWake_up (c : Chip) (a b : Nat) : (c.latchWake a b).up = c.up := by
  simp only [Chip.latchWake]
  repeat' split
  all_goals simp [Chip.up]

/-- A raising leaves the Lighthouse's state. -/
@[simp] theorem Chip.raiseCore_up (c : Chip) (k src : Nat) (d : Bytes) : (c.raiseCore k src d).up = c.up := by
  have h : ∀ c : Chip, ∀ a b : Nat, (c.askSource a b).up = c.up := fun c a b => by simp [Chip.up]
  unfold Chip.raiseCore
  simp only
  generalize hw : (if (vget (Route.mk 0 0 false) c.ic.route src).watch = true then c.latchWake 5 src else c) = w
  have hu : w.up = c.up := by rw [← hw]; split <;> simp
  split
  · rw [h]; simpa [Chip.up] using hu
  · exact hu

/-- The arrival counters after k raisings. -/
theorem Chip.raiseCore_count (c : Chip) (k src : Nat) (d : Bytes) (hu : c.up = true) (h : src < 1024) (n : Nat) :
    vget 0 (c.raiseCore k src d).ic.count n = if src = n then min 255 (vget 0 c.ic.count n + k) else vget 0 c.ic.count n := by
  unfold Chip.raiseCore
  simp only
  have : (if (vget (Route.mk 0 0 false) c.ic.route src).watch = true then c.latchWake 5 src else c).icOn = true := by
    unfold Chip.icOn
    split <;> simp [hu]
  rw [if_pos this]
  have h2 : (if (vget (Route.mk 0 0 false) c.ic.route src).watch = true then c.latchWake 5 src else c).ic = c.ic := by split <;> simp
  simp only [Chip.askSource_blocks, Chip.updIc, h2, vget_vset]
  by_cases hs : src = n <;> simp [hs, h]
  omega

/-- A raising of source 798 for lost raisings counts at no other source. -/
theorem Chip.raise798_count (c : Chip) (k bit : Nat) (hu : c.up = true) (n : Nat) (hn : n ≠ 798) :
    vget 0 (c.raise798 k bit).ic.count n = vget 0 c.ic.count n := by
  unfold Chip.raise798
  simp only
  have h := Chip.raiseCore_count (c.updIc (fun ic => { ic with err := ic.err ||| BitVec.ofNat 32 (2 ^ bit) })) k 798
    (statusDetail (c.updIc (fun ic => { ic with err := ic.err ||| BitVec.ofNat 32 (2 ^ bit) })).ic.err)
    (by simpa [Chip.up] using hu) (by decide) n
  rw [if_neg (by omega)] at h
  split
  · exact h
  · simpa [Chip.updIc] using h

/-- The arrival counters after a raising, source 798 apart. -/
theorem Chip.raise_count (c : Chip) (src : Nat) (d : Bytes) (hu : c.up = true) (h : src < 1024) (n : Nat) (hn : n ≠ 798) :
    vget 0 (c.raise src d).ic.count n = if src = n then min 255 (vget 0 c.ic.count n + 1) else vget 0 c.ic.count n := by
  unfold Chip.raise Chip.raiseN
  simp only [Nat.one_ne_zero, if_false]
  split
  · exact Chip.raiseCore_count c 1 src d hu h n
  · rw [Chip.raise798_count _ _ _ (by simpa using hu) n hn]
    exact Chip.raiseCore_count c 1 src d hu h n

/-- A raising counts once at its source. -/
theorem Chip.raise_counted (c : Chip) (src : Nat) (d : Bytes) (hu : c.up = true) (h : src < 1024) (hn : src ≠ 798) :
    c.counted (c.raise src d) src := by
  unfold Chip.counted
  rw [Chip.raise_count c src d hu h src hn, if_pos rfl]

end Sys2Proof.Machine
end

