-- ==== Sys2Proof/Laws/Rows.lean ====
section
/-! SUPPORT. What each command's row is: its time, its precondition and its effect. -/

namespace Sys2Proof.Machine

theorem exec_qcpHello (dt : When) (f : QcpFrame) (s : State) : exec (.qcpHello dt f) s = qcpRow dt .hello f [] s := rfl
theorem exec_qcpOpen (dt : When) (f : QcpFrame) (s : State) : exec (.qcpOpen dt f) s = qcpRow dt .opn f [] s := rfl
theorem exec_qcpClose (dt : When) (f : QcpFrame) (s : State) : exec (.qcpClose dt f) s = qcpRow dt .close f [] s := rfl
theorem exec_qcpNop (dt : When) (f : QcpFrame) (s : State) : exec (.qcpNop dt f) s = qcpRow dt .nop f [] s := rfl
theorem exec_qcpRegRead (dt : When) (f : QcpFrame) (s : State) : exec (.qcpRegRead dt f) s = qcpRow dt .regRead f [] s := rfl
theorem exec_qcpRegWrite (dt : When) (f : QcpFrame) (s : State) : exec (.qcpRegWrite dt f) s = qcpRow dt .regWrite f [] s := rfl
theorem exec_qcpBulkRead (dt : When) (f : QcpFrame) (errs : List Sys2Proof.SectorErr) (s : State) :
    exec (.qcpBulkRead dt f errs) s = qcpRow dt .bulkRead f errs s := rfl
theorem exec_qcpBulkWrite (dt : When) (f : QcpFrame) (s : State) : exec (.qcpBulkWrite dt f) s = qcpRow dt .bulkWrite f [] s := rfl
theorem exec_qcpImageLoad (dt : When) (f : QcpFrame) (s : State) : exec (.qcpImageLoad dt f) s = qcpRow dt .imageLoad f [] s := rfl
theorem exec_qcpAdmit (dt : When) (f : QcpFrame) (s : State) : exec (.qcpAdmit dt f) s = qcpRow dt .admitImg f [] s := rfl
theorem exec_qcpAbort (dt : When) (f : QcpFrame) (s : State) : exec (.qcpAbort dt f) s = qcpRow dt .abortImg f [] s := rfl
theorem exec_qcpWeightLoad (dt : When) (f : QcpFrame) (s : State) : exec (.qcpWeightLoad dt f) s = qcpRow dt .weightLoad f [] s := rfl
theorem exec_qcpSeal (dt : When) (f : QcpFrame) (s : State) : exec (.qcpSeal dt f) s = qcpRow dt .sealSet f [] s := rfl
theorem exec_sealComplete (dt : When) (set : Nat) (s : State) :
    exec (.sealComplete dt set) s = run dt (fun c => c.sealing set) (Chip.sealDone set) s := rfl
theorem exec_qcpQuery (dt : When) (f : QcpFrame) (s : State) : exec (.qcpQuery dt f) s = qcpRow dt .query f [] s := rfl
theorem exec_qcpQueryTokens (dt : When) (f : QcpFrame) (s : State) : exec (.qcpQueryTokens dt f) s = qcpRow dt .queryTokens f [] s := rfl
theorem exec_qcpCancel (dt : When) (f : QcpFrame) (s : State) : exec (.qcpCancel dt f) s = qcpRow dt .cancel f [] s := rfl
theorem exec_qcpResend (dt : When) (f : QcpFrame) (s : State) : exec (.qcpResend dt f) s = qcpRow dt .resend f [] s := rfl
theorem exec_qcpSnapshot (dt : When) (f : QcpFrame) (s : State) : exec (.qcpSnapshot dt f) s = qcpRow dt .snapshot f [] s := rfl
theorem exec_qcpWarmReset (dt : When) (f : QcpFrame) (s : State) : exec (.qcpWarmReset dt f) s = qcpRow dt .warmReset f [] s := rfl
theorem exec_qcpSleep (dt : When) (f : QcpFrame) (s : State) : exec (.qcpSleep dt f) s = qcpRow dt .sleep f [] s := rfl
theorem exec_qcpAttest (dt : When) (f : QcpFrame) (s : State) : exec (.qcpAttest dt f) s = qcpRow dt .attest f [] s := rfl
theorem exec_qcpFwLoad (dt : When) (f : QcpFrame) (s : State) : exec (.qcpFwLoad dt f) s = qcpRow dt .fwLoad f [] s := rfl
theorem exec_qcpFwUpdate (dt : When) (f : QcpFrame) (s : State) : exec (.qcpFwUpdate dt f) s = qcpRow dt .fwUpdate f [] s := rfl
theorem exec_qcpOwnerKey (dt : When) (f : QcpFrame) (s : State) : exec (.qcpOwnerKey dt f) s = qcpRow dt .ownerKey f [] s := rfl
theorem exec_unknownOpcode (dt : When) (opcode : BitVec 16) (f : QcpFrame) (s : State) :
    exec (.unknownOpcode dt opcode f) s = qcpRow dt (Op.ofCode opcode) f [] s := rfl
theorem exec_qcpFrameDrop (dt : When) (f : RawQcp) (s : State) :
    exec (.qcpFrameDrop dt f) s = run dt (fun c => c.hearsQcp f.rx) (Chip.rawQcp f) s := rfl
theorem exec_sessionIdleExpiry (dt : When) (s : State) : exec (.sessionIdleExpiry dt) s = run dt (Chip.idleDue) (Chip.closeSession) s := rfl
theorem exec_imgCtlAdmit (dt : When) (who : Master) (value : Word) (s : State) :
    exec (.imgCtlAdmit dt who value) s = run dt (fun c => c.reaches who) (Chip.busWrite who (0x00000100) value) s := rfl
theorem exec_imgCtlAbort (dt : When) (who : Master) (value : Word) (s : State) :
    exec (.imgCtlAbort dt who value) s = run dt (fun c => c.reaches who) (Chip.busWrite who (0x00000100) value) s := rfl
theorem exec_validationEnd (dt : When) (bad : Option Nat) (s : State) :
    exec (.validationEnd dt bad) s = run dt (fun c => c.awake && c.cfg.state == .validating) (fun c => (c.endValidation bad).answerAdmit) s := rfl
theorem exec_registerWrite (dt : When) (who : Master) (addr : Nat) (value : Word) (s : State) :
    exec (.registerWrite dt who addr value) s = run dt (fun c => c.reaches who) (Chip.busWrite who (addr) value) s := rfl
theorem exec_latchingLoRead (dt : When) (who : Master) (addr : Nat) (s : State) :
    exec (.latchingLoRead dt who addr) s = run dt (fun c => c.reaches who) (Chip.busRead addr) s := rfl
theorem exec_portRoleWrite (dt : When) (who : Master) (port : Nat) (value : Word) (s : State) :
    exec (.portRoleWrite dt who port value) s = run dt (fun c => c.reaches who) (Chip.busWrite who (0x00011000 + 0x100 * port) value) s := rfl
theorem exec_portDownWrite (dt : When) (who : Master) (port : Nat) (value : Word) (s : State) :
    exec (.portDownWrite dt who port value) s = run dt (fun c => c.reaches who) (Chip.busWrite who (0x00011000 + 0x100 * port) value) s := rfl
theorem exec_ttPartReset (dt : When) (who : Master) (value : Word) (s : State) :
    exec (.ttPartReset dt who value) s = run dt (fun c => c.reaches who) (Chip.busWrite who (0x00070028) value) s := rfl
theorem exec_ttCtxRestart (dt : When) (who : Master) (value : Word) (s : State) :
    exec (.ttCtxRestart dt who value) s = run dt (fun c => c.reaches who) (Chip.busWrite who (0x0007002C) value) s := rfl
theorem exec_svCancel (dt : When) (who : Master) (value : Word) (s : State) :
    exec (.svCancel dt who value) s = run dt (fun c => c.reaches who) (Chip.busWrite who (0x00060010) value) s := rfl
theorem exec_sySignal (dt : When) (who : Master) (value : Word) (s : State) :
    exec (.sySignal dt who value) s = run dt (fun c => c.reaches who) (Chip.busWrite who (0x000A0010) value) s := rfl
theorem exec_syReset (dt : When) (who : Master) (value : Word) (s : State) :
    exec (.syReset dt who value) s = run dt (fun c => c.reaches who) (Chip.busWrite who (0x000A0014) value) s := rfl
theorem exec_icSet (dt : When) (who : Master) (value : Word) (s : State) :
    exec (.icSet dt who value) s = run dt (fun c => c.reaches who) (Chip.busWrite who (0x000B000C) value) s := rfl
theorem exec_icClaim (dt : When) (who : Master) (target : Nat) (value : Word) (s : State) :
    exec (.icClaim dt who target value) s = run dt (fun c => c.reaches who) (Chip.busWrite who (0x000B0400 + 0x10 * target) value) s := rfl
theorem exec_icEoi (dt : When) (who : Master) (target : Nat) (value : Word) (s : State) :
    exec (.icEoi dt who target value) s = run dt (fun c => c.reaches who) (Chip.busWrite who (0x000B0408 + 0x10 * target) value) s := rfl
theorem exec_hmCakCtl (dt : When) (who : Master) (value : Word) (s : State) :
    exec (.hmCakCtl dt who value) s = run dt (fun c => c.reaches who) (Chip.busWrite who (0x000D0120) value) s := rfl
theorem exec_lhSleepSleep (dt : When) (who : Master) (value : Word) (s : State) :
    exec (.lhSleepSleep dt who value) s = run dt (fun c => c.reaches who) (Chip.busWrite who (0x00100008) value) s := rfl
theorem exec_lhSleepWatch (dt : When) (who : Master) (value : Word) (s : State) :
    exec (.lhSleepWatch dt who value) s = run dt (fun c => c.reaches who) (Chip.busWrite who (0x00100008) value) s := rfl
theorem exec_snRelease (dt : When) (who : Master) (value : Word) (s : State) :
    exec (.snRelease dt who value) s = run dt (fun c => c.reaches who) (Chip.busWrite who (0x0011000C) value) s := rfl
theorem exec_peerDisable (dt : When) (who : Master) (peer : Nat) (value : Word) (s : State) :
    exec (.peerDisable dt who peer value) s = run dt (fun c => c.reaches who) (Chip.busWrite who (0x00121008 + 0x10 * peer) value) s := rfl
theorem exec_linkUp (dt : When) (port : Nat) (partnerMaster : Bool) (s : State) :
    exec (.linkUp dt port partnerMaster) s = run dt (fun c => c.canLink port partnerMaster) (Chip.linkUp port) s := rfl
theorem exec_linkDown (dt : When) (port : Nat) (s : State) :
    exec (.linkDown dt port) s = run dt (fun c => c.receiving && (c.port port).link) (Chip.linkDrop port) s := rfl
theorem exec_rxFrameDrop (dt : When) (rx : RxInfo) (overflow : Bool) (s : State) :
    exec (.rxFrameDrop dt rx overflow) s = run dt (fun c => c.hears rx) (Chip.rxDrop rx overflow) s := rfl
theorem exec_syncReceived (dt : When) (m : SyncMsg) (s : State) :
    exec (.syncReceived dt m) s = run dt (fun c => c.hears m.rx) (Chip.syncFrame m) s := rfl
theorem exec_syncLossHoldover (dt : When) (s : State) : exec (.syncLossHoldover dt) s = run dt (Chip.holdoverDue) (Chip.holdover) s := rfl
theorem exec_mkaFrame (dt : When) (m : MkaFrame) (s : State) :
    exec (.mkaFrame dt m) s = run dt (fun c => c.mkaRuns && c.hears m.rx) (Chip.mkaFrame m) s := rfl
theorem exec_mkaLifeExpiry (dt : When) (port : Nat) (s : State) :
    exec (.mkaLifeExpiry dt port) s = run dt (fun c => c.mkaDead port) (Chip.mkaLost port) s := rfl
theorem exec_rvfPacket (dt : When) (p : RvfPacket) (s : State) : exec (.rvfPacket dt p) s = run dt (fun c => c.hears p.rx) (Chip.rvf p) s := rfl
theorem exec_graceExpiry (dt : When) (stream : Nat) (s : State) :
    exec (.graceExpiry dt stream) s = run dt (fun c => c.graceDue stream) (Chip.closeStream stream) s := rfl
theorem exec_inputPeriodExpiry (dt : When) (stream : Nat) (s : State) :
    exec (.inputPeriodExpiry dt stream) s = run dt (fun c => c.periodDue stream) (Chip.closeStream stream) s := rfl
theorem exec_evidenceCopyDone (dt : When) (stream : Nat) (fails : List Sys2Proof.JobErr) (s : State) :
    exec (.evidenceCopyDone dt stream fails) s = run dt (fun c => c.awake && (c.evidCopy stream).isSome) (Chip.evidDone stream fails) s := rfl
theorem exec_motionJobStart (dt : When) (fails : List Sys2Proof.JobErr) (s : State) :
    exec (.motionJobStart dt fails) s = run dt (Chip.motionReady) (Chip.motionStart fails) s := rfl
theorem exec_motionJobDone (dt : When) (s : State) :
    exec (.motionJobDone dt) s = run dt (fun c => c.awake && c.me.eng.run.isSome) (Chip.motionDone) s := rfl
theorem exec_disparityPairTimeout (dt : When) (stream : Nat) (s : State) :
    exec (.disparityPairTimeout dt stream) s = run dt (fun c => c.awake && (c.pairLate stream).isSome) (Chip.pairTimeout stream) s := rfl
theorem exec_disparityJobStart (dt : When) (fails : List Sys2Proof.JobErr) (s : State) :
    exec (.disparityJobStart dt fails) s = run dt (Chip.dispReady) (Chip.dispStart fails) s := rfl
theorem exec_disparityJobDone (dt : When) (s : State) :
    exec (.disparityJobDone dt) s = run dt (fun c => c.awake && c.sd.eng.run.isSome) (Chip.dispDone) s := rfl
theorem exec_matmul (dt : When) (array : Nat) (errs : List HwErr) (s : State) :
    exec (.matmul dt array errs) s = run dt (fun c => c.descReady array 1) (Chip.execute array errs) s := rfl
theorem exec_conv (dt : When) (array : Nat) (errs : List HwErr) (s : State) :
    exec (.conv dt array errs) s = run dt (fun c => c.descReady array 2) (Chip.execute array errs) s := rfl
theorem exec_deconv (dt : When) (array : Nat) (errs : List HwErr) (s : State) :
    exec (.deconv dt array errs) s = run dt (fun c => c.descReady array 3) (Chip.execute array errs) s := rfl
theorem exec_pool (dt : When) (array : Nat) (errs : List HwErr) (s : State) :
    exec (.pool dt array errs) s = run dt (fun c => c.descReady array 4) (Chip.execute array errs) s := rfl
theorem exec_warp (dt : When) (array : Nat) (errs : List HwErr) (s : State) :
    exec (.warp dt array errs) s = run dt (fun c => c.descReady array 5) (Chip.execute array errs) s := rfl
theorem exec_vector (dt : When) (array : Nat) (errs : List HwErr) (s : State) :
    exec (.vector dt array errs) s = run dt (fun c => c.descReady array 6) (Chip.execute array errs) s := rfl
theorem exec_norm (dt : When) (array : Nat) (errs : List HwErr) (s : State) :
    exec (.norm dt array errs) s = run dt (fun c => c.descReady array 7) (Chip.execute array errs) s := rfl
theorem exec_attend (dt : When) (array : Nat) (errs : List HwErr) (s : State) :
    exec (.attend dt array errs) s = run dt (fun c => c.descReady array 8) (Chip.execute array errs) s := rfl
theorem exec_expand (dt : When) (array : Nat) (errs : List HwErr) (s : State) :
    exec (.expand dt array errs) s = run dt (fun c => c.descReady array 9) (Chip.execute array errs) s := rfl
theorem exec_copy (dt : When) (array : Nat) (errs : List HwErr) (s : State) :
    exec (.copy dt array errs) s = run dt (fun c => c.descReady array 10) (Chip.execute array errs) s := rfl
theorem exec_wait (dt : When) (array : Nat) (s : State) :
    exec (.wait dt array) s = run dt (fun c => c.descReady array 11) (Chip.takeWait array) s := rfl
theorem exec_signal (dt : When) (array : Nat) (s : State) :
    exec (.signal dt array) s = run dt (fun c => c.descReady array 12) (Chip.takeSignal array) s := rfl
theorem exec_invalidDescriptor (dt : When) (array : Nat) (s : State) :
    exec (.invalidDescriptor dt array) s = run dt (fun c => c.invalidOk array) (Chip.invalid array) s := rfl
theorem exec_waitSatisfied (dt : When) (array : Nat) (ctx : Nat) (object : Nat) (s : State) :
    exec (.waitSatisfied dt array ctx object) s = run dt (fun c => c.satOk array ctx object) (Chip.waitDone array ctx object) s := rfl
theorem exec_waitTimeout (dt : When) (array : Nat) (ctx : Nat) (object : Nat) (s : State) :
    exec (.waitTimeout dt array ctx object) s = run dt (fun c => c.timeoutOk array ctx object) (Chip.waitTimeout array ctx object) s := rfl
theorem exec_descriptorComplete (dt : When) (array : Nat) (s : State) :
    exec (.descriptorComplete dt array) s = run dt (fun c => c.completeOk array) (Chip.complete array) s := rfl
theorem exec_preemptSaveDone (dt : When) (array : Nat) (pass : Nat) (s : State) :
    exec (.preemptSaveDone dt array pass) s = run dt (fun c => c.awake && (c.arr array).st == .save) (Chip.saveDone array pass) s := rfl
theorem exec_restoreDone (dt : When) (array : Nat) (s : State) :
    exec (.restoreDone dt array) s = run dt (fun c => c.awake && (c.arr array).st == .restore) (Chip.restoreDone array) s := rfl
theorem exec_stepReplay (dt : When) (step : Word) (s : State) :
    exec (.stepReplay dt step) s = run dt (fun c => c.replayOk step) (Chip.replayStep step) s := rfl
theorem exec_majorCycleBoundary (dt : When) (ready : Bool) (s : State) :
    exec (.majorCycleBoundary dt ready) s = run dt (Chip.boundaryDue) (fun c => (c.boundary ready).regate) s := rfl
theorem exec_tideLiveInstant (dt : When) (entry : Nat) (bad : Bool) (s : State) :
    exec (.tideLiveInstant dt entry bad) s = run dt (Chip.tideOk 0 entry bad) (Chip.tideRun entry bad) s := rfl
theorem exec_tideSettledPeriod (dt : When) (entry : Nat) (bad : Bool) (s : State) :
    exec (.tideSettledPeriod dt entry bad) s = run dt (Chip.tideOk 1 entry bad) (Chip.tideRun entry bad) s := rfl
theorem exec_tideContextStep (dt : When) (entry : Nat) (bad : Bool) (s : State) :
    exec (.tideContextStep dt entry bad) s = run dt (Chip.tideOk 2 entry bad) (Chip.tideRun entry bad) s := rfl
theorem exec_tideMarker (dt : When) (entry : Nat) (bad : Bool) (s : State) :
    exec (.tideMarker dt entry bad) s = run dt (Chip.tideOk 3 entry bad) (Chip.tideRun entry bad) s := rfl
theorem exec_stepOverrun (dt : When) (step : Word) (s : State) :
    exec (.stepOverrun dt step) s = run dt (fun c => c.overrunDue step) (Chip.overrun step) s := rfl
theorem exec_kernelPlace (dt : When) (part : Nat) (s : State) :
    exec (.kernelPlace dt part) s = run dt (fun c => c.awake && (c.nextPlacement part).isSome) (Chip.placeNext part) s := rfl
theorem exec_swapOutDone (dt : When) (berth : Nat) (s : State) :
    exec (.swapOutDone dt berth) s = run dt (fun c => c.awake && (c.berth berth).xfer == 1) (Chip.swapOutDone berth dt.fails) s := rfl
theorem exec_swapInDone (dt : When) (berth : Nat) (s : State) :
    exec (.swapInDone dt berth) s = run dt (fun c => c.awake && (c.berth berth).xfer == 2) (Chip.swapInDone berth) s := rfl
theorem exec_quantumExpiry (dt : When) (ctx : Nat) (s : State) :
    exec (.quantumExpiry dt ctx) s =
      run dt (fun c => c.quantumDue ctx) (fun c => (c.updCtx ctx (fun k => { k with quantum := true })).schedule) s := rfl
theorem exec_fgInputsReady (dt : When) (step : Word) (fails : List Sys2Proof.JobErr) (s : State) :
    exec (.fgInputsReady dt step fails) s = run dt (fun c => c.awake && (c.step? step).any c.canBind) (Chip.fgInputs step fails) s := rfl
theorem exec_liveGate (dt : When) (stream : Nat) (s : State) :
    exec (.liveGate dt stream) s = run dt (fun c => c.awake && (c.gateOf stream).isSome) (Chip.closeGate stream) s := rfl
theorem exec_liveDeadlineMiss (dt : When) (stream : Nat) (s : State) :
    exec (.liveDeadlineMiss dt stream) s = run dt (fun c => c.awake && (c.missOf stream).isSome) (Chip.missLive stream) s := rfl
theorem exec_packDone (dt : When) (step : Word) (s : State) :
    exec (.packDone dt step) s = run dt (fun c => c.awake && (c.packOf step).isSome) (Chip.endPack step dt.fails) s := rfl
theorem exec_queryAdmitHead (dt : When) (s : State) :
    exec (.queryAdmitHead dt) s = run dt (fun c => c.awake && !c.sv.queue.isEmpty) (Chip.admitHead) s := rfl
theorem exec_batchStepAssemble (dt : When) (ctx : Nat) (s : State) :
    exec (.batchStepAssemble dt ctx) s = run dt (fun c => c.awake && c.canBatch ctx) (Chip.startBatch ctx) s := rfl
theorem exec_visionStep (dt : When) (ctx : Nat) (s : State) :
    exec (.visionStep dt ctx) s = run dt (fun c => c.awake && c.canVision ctx) (Chip.startVision ctx) s := rfl
theorem exec_basinScrub (dt : When) (hits : List Sys2Proof.ScrubHit) (s : State) :
    exec (.basinScrub dt hits) s = run dt (Chip.awake) (Chip.basinScrub hits) s := rfl
theorem exec_dramScrub (dt : When) (channel : Nat) (slot : Nat) (errs : List Sys2Proof.SectorErr) (s : State) :
    exec (.dramScrub dt channel slot errs) s =
      run dt (fun c => c.chanOn channel && slot == (c.chan channel).scrubSlot) (Chip.dramScrub channel slot errs) s := rfl
theorem exec_dqsCheck (dt : When) (channel : Nat) (drift64 : Nat) (retrained : Bool) (s : State) :
    exec (.dqsCheck dt channel drift64 retrained) s = run dt (fun c => c.chanOn channel) (Chip.dqsCheck channel drift64 retrained) s := rfl
theorem exec_mr4Poll (dt : When) (channel : Nat) (rate : BitVec 4) (s : State) :
    exec (.mr4Poll dt channel rate) s = run dt (fun c => c.chanOn channel) (Chip.mr4Poll channel rate) s := rfl
theorem exec_channelPowerDown (dt : When) (channel : Nat) (s : State) :
    exec (.channelPowerDown dt channel) s = run dt (fun c => c.canPowerDown channel) (Chip.setPower channel .powerDown) s := rfl
theorem exec_channelSelfRefresh (dt : When) (channel : Nat) (s : State) :
    exec (.channelSelfRefresh dt channel) s = run dt (fun c => c.canSelfRefresh channel) (Chip.setPower channel .selfRefresh) s := rfl
theorem exec_eventFrameSend (dt : When) (s : State) : exec (.eventFrameSend dt) s = run dt (Chip.canSendEvent) (Chip.sendEvent) s := rfl
theorem exec_vblankStart (dt : When) (output : Nat) (late : List (Nat × Nat × Nat)) (s : State) :
    exec (.vblankStart dt output late) s = run dt (fun c => c.vblankDue output) (Chip.vblank output late) s := rfl
theorem exec_hpdAsserted (dt : When) (output : Nat) (s : State) :
    exec (.hpdAsserted dt output) s = run dt (fun c => c.outputOn output && !(c.out output).hpd) (Chip.hpdUp output) s := rfl
theorem exec_hpdUnplug (dt : When) (output : Nat) (s : State) :
    exec (.hpdUnplug dt output) s = run dt (fun c => c.outputOn output && (c.out output).hpd) (Chip.hpdDown output) s := rfl
theorem exec_irqHpd (dt : When) (output : Nat) (lostLock : Bool) (s : State) :
    exec (.irqHpd dt output lostLock) s = run dt (fun c => c.outputOn output && (c.out output).st == .active) (Chip.irqHpd output lostLock) s := rfl
theorem exec_linkTrainingDone (dt : When) (output : Nat) (ok : Bool) (s : State) :
    exec (.linkTrainingDone dt output ok) s = run dt (fun c => c.outputOn output && (c.out output).st == .training) (Chip.trained output ok) s := rfl
theorem exec_tornCheck (dt : When) (window : Nat) (s : State) :
    exec (.tornCheck dt window) s =
      run dt (fun c => c.awake && (c.win window).valid && (c.out (c.win window).output).st == .active) (Chip.tornCheck window) s := rfl
theorem exec_heartbeatTimer (dt : When) (s : State) : exec (.heartbeatTimer dt) s = run dt (Chip.heartbeatDue) (Chip.heartbeats) s := rfl
theorem exec_pwpHeartbeat (dt : When) (f : PwpFrame) (s : State) :
    exec (.pwpHeartbeat dt f) s = run dt (fun c => c.awake && c.hears f.rx) (Chip.pwpHeartbeat f) s := rfl
theorem exec_pwpRead (dt : When) (f : PwpFrame) (errs : List Sys2Proof.SectorErr) (s : State) :
    exec (.pwpRead dt f errs) s = run dt (fun c => c.awake && c.hears f.rx) (Chip.pwpRead f errs) s := rfl
theorem exec_pwpReadData (dt : When) (f : PwpFrame) (s : State) :
    exec (.pwpReadData dt f) s = run dt (fun c => c.awake && c.hears f.rx) (Chip.pwpReadData f) s := rfl
theorem exec_pwpSignal (dt : When) (f : PwpFrame) (s : State) :
    exec (.pwpSignal dt f) s = run dt (fun c => c.awake && c.hears f.rx) (Chip.pwpSignal f) s := rfl
theorem exec_pwpSignalAck (dt : When) (f : PwpFrame) (s : State) :
    exec (.pwpSignalAck dt f) s = run dt (fun c => c.awake && c.hears f.rx) (Chip.pwpSignalAck f) s := rfl
theorem exec_peerReqResend (dt : When) (tag : Word) (s : State) :
    exec (.peerReqResend dt tag) s = run dt (fun c => c.awake && c.resendDue tag) (Chip.resendReq tag) s := rfl
theorem exec_peerReqTimeout (dt : When) (tag : Word) (s : State) :
    exec (.peerReqTimeout dt tag) s = run dt (fun c => c.awake && c.reqLate tag) (Chip.reqTimedOut tag) s := rfl
theorem exec_boot (dt : When) (ctrlErr : Bool) (trained : List Sys2Proof.TrainResult) (s : State) :
    exec (.boot dt ctrlErr trained) s = runState dt (fun s => s.chip.canBoot) (State.bootUp ctrlErr trained) s := rfl
theorem exec_idKeyReady (dt : When) (s : State) : exec (.idKeyReady dt) s = run dt (Chip.canDerive) (Chip.derive) s := rfl
theorem exec_rngHealthFail (dt : When) (s : State) : exec (.rngHealthFail dt) s = run dt (Chip.up) (Chip.rngFail) s := rfl
theorem exec_flashRewriteDone (dt : When) (verified : Bool) (s : State) :
    exec (.flashRewriteDone dt verified) s = runState dt (fun s => s.chip.fwRewriting) (State.fwRewritten verified) s := rfl
theorem exec_debugUnlock (dt : When) (signature : Rsa) (s : State) :
    exec (.debugUnlock dt signature) s = run dt (Chip.canUnlock) (Chip.unlock signature) s := rfl
theorem exec_checkpointClose (dt : When) (s : State) : exec (.checkpointClose dt) s = run dt (Chip.ckptDue) (fun c => c.closeCkpt c.lg.flags) s := rfl
theorem exec_checkpointWritten (dt : When) (failed : Bool) (s : State) :
    exec (.checkpointWritten dt failed) s = run dt (fun c => c.awake && c.hm.idReady && !c.lg.signing.isEmpty) (Chip.writeCkpt failed) s := rfl
theorem exec_ledgerRewrite (dt : When) (failed : Bool) (s : State) :
    exec (.ledgerRewrite dt failed) s = run dt (fun c => c.awake && !c.lg.rewrite.isEmpty) (Chip.lgRewrite failed) s := rfl
theorem exec_opTransition (dt : When) (acked : Bool) (s : State) :
    exec (.opTransition dt acked) s = run dt (Chip.canMove) (Chip.startMove acked) s := rfl
theorem exec_pmbusPoll (dt : When) (vout : Option (BitVec 16)) (iout : Option (BitVec 16)) (ulinear16 : Option Bool) (s : State) :
    exec (.pmbusPoll dt vout iout ulinear16) s = run dt (Chip.awake) (Chip.poll vout iout ulinear16) s := rfl
theorem exec_pmbusRetry (dt : When) (acked : Bool) (s : State) :
    exec (.pmbusRetry dt acked) s = run dt (Chip.retryDue) (Chip.retryMove acked) s := rfl
theorem exec_powerCapWindow (dt : When) (s : State) : exec (.powerCapWindow dt) s = run dt (Chip.windowDue) (Chip.capWindow) s := rfl
theorem exec_pmbAlert (dt : When) (s : State) : exec (.pmbAlert dt) s = run dt (Chip.awake) (Chip.pmErr 3) s := rfl
theorem exec_thermalSample (dt : When) (readings : List Int) (s : State) :
    exec (.thermalSample dt readings) s = run dt (fun c => !c.por) (Chip.thermal readings) s := rfl
theorem exec_tripRecovery (dt : When) (s : State) : exec (.tripRecovery dt) s = runState dt (fun s => s.chip.recoverDue) (State.recover) s := rfl
theorem exec_domainSwitchOn (dt : When) (domain : Nat) (s : State) :
    exec (.domainSwitchOn dt domain) s = run dt (fun c => c.canSwitchOn domain) (Chip.switchOn domain) s := rfl
theorem exec_wakeNAsserted (dt : When) (ticks : Nat) (s : State) :
    exec (.wakeNAsserted dt ticks) s = run dt (fun c => !c.por && decide (33 ≤ ticks)) (Chip.latchWake 2 0) s := rfl
theorem exec_i2cAddressMatch (dt : When) (address : Nat) (s : State) :
    exec (.i2cAddressMatch dt address) s = run dt (fun c => c.i2cMatches address) (Chip.i2cMatch address) s := rfl
theorem exec_i2cStatusRead (dt : When) (s : State) : exec (.i2cStatusRead dt) s = run dt (fun c => !c.por) (Chip.i2cRead) s := rfl
theorem exec_watchCycleStart (dt : When) (s : State) : exec (.watchCycleStart dt) s = run dt (Chip.cycleDue) (Chip.startCycle) s := rfl
theorem exec_watchCompare (dt : When) (s : State) : exec (.watchCompare dt) s = run dt (Chip.compareDue) (Chip.compare) s := rfl
theorem exec_watchCycleTimeout (dt : When) (s : State) : exec (.watchCycleTimeout dt) s = run dt (Chip.watchLate) (Chip.watchFail) s := rfl
theorem exec_wake (dt : When) (power : CoreUp) (trained : List Sys2Proof.TrainResult) (s : State) :
    exec (.wake dt power trained) s = runState dt (fun s => s.chip.canWake) (State.wake power trained) s := rfl
theorem exec_wakePgRetry (dt : When) (power : CoreUp) (trained : List Sys2Proof.TrainResult) (s : State) :
    exec (.wakePgRetry dt power trained) s = runState dt (fun s => s.chip.canRetryWake) (State.wake power trained) s := rfl
theorem exec_warmResetPin (dt : When) (lowNs : Nat) (s : State) :
    exec (.warmResetPin dt lowNs) s = runState dt (fun s => s.chip.warmPin lowNs) (State.warmReset) s := rfl
theorem exec_coreWatchdog (dt : When) (core : Nat) (s : State) :
    exec (.coreWatchdog dt core) s =
      run dt (fun c => c.up && decide (core < 4)) (Chip.updSn (fun n => { n with restarts := vupd 0 n.restarts core satInc })) s := rfl
theorem exec_snapInTrigger (dt : When) (highNs : Nat) (s : State) :
    exec (.snapInTrigger dt highNs) s = run dt (fun c => c.up && decide (100 ≤ highNs)) (Chip.askSnap 1 0) s := rfl
theorem exec_bestMasterSelection (dt : When) (port : Option Nat) (s : State) :
    exec (.bestMasterSelection dt port) s = run dt (fun c => c.receiving && port.all (fun p => (c.port p).link)) (Chip.selectMaster port) s := rfl
theorem exec_fwVerificationEnd (dt : When) (s : State) :
    exec (.fwVerificationEnd dt) s = runState dt (fun s => s.chip.fwVerifying) (State.fwVerified) s := rfl
theorem exec_swapInHoldExpiry (dt : When) (ctx : Nat) (s : State) :
    exec (.swapInHoldExpiry dt ctx) s =
      run dt (fun c => c.holdDue ctx) (fun c => (c.updCtx ctx (fun k => { k with progressed := true })).schedule) s := rfl
theorem exec_lowPowerExit (dt : When) (channel : Nat) (s : State) :
    exec (.lowPowerExit dt channel) s = run dt (fun c => c.canExit channel) (Chip.setPower channel .active) s := rfl
theorem exec_sleepEntryComplete (dt : When) (s : State) :
    exec (.sleepEntryComplete dt) s = run dt (fun c => !c.por && c.lh.st == .entering) (Chip.asleep) s := rfl
theorem exec_randomSourcePassing (dt : When) (s : State) :
    exec (.randomSourcePassing dt) s = runState dt (fun s => s.chip.awake && !s.chip.hm.rngOk) (State.rngPass) s := rfl
theorem exec_mkaHelloTime (dt : When) (port : Nat) (s : State) :
    exec (.mkaHelloTime dt port) s = run dt (fun c => c.mkaHelloDue port) (Chip.mkaHello port) s := rfl
theorem exec_voltageSettled (dt : When) (good : Bool) (s : State) :
    exec (.voltageSettled dt good) s = run dt (fun c => c.raisingTo.isSome) (Chip.settleVolt good) s := rfl

/-- Every command that reaches neither the fuses nor the flash is a command of the chip alone. -/
theorem exec_chip {i : Instr} (h : i.reachesStore = false) : ∃ dt ok effect, ∀ s, exec i s = run dt ok effect s := by
  cases i with
  | qcpHello => cases h
  | qcpOpen => cases h
  | qcpClose => cases h
  | qcpNop => cases h
  | qcpRegRead => cases h
  | qcpRegWrite => cases h
  | qcpBulkRead => cases h
  | qcpBulkWrite => cases h
  | qcpImageLoad => cases h
  | qcpAdmit => cases h
  | qcpAbort => cases h
  | qcpWeightLoad => cases h
  | qcpSeal => cases h
  | sealComplete x0 x1 => exact ⟨_, _, _, exec_sealComplete x0 x1⟩
  | qcpQuery => cases h
  | qcpQueryTokens => cases h
  | qcpCancel => cases h
  | qcpResend => cases h
  | qcpSnapshot => cases h
  | qcpWarmReset => cases h
  | qcpSleep => cases h
  | qcpAttest => cases h
  | qcpFwLoad => cases h
  | qcpFwUpdate => cases h
  | qcpOwnerKey => cases h
  | unknownOpcode => cases h
  | qcpFrameDrop x0 x1 => exact ⟨_, _, _, exec_qcpFrameDrop x0 x1⟩
  | sessionIdleExpiry x0 => exact ⟨_, _, _, exec_sessionIdleExpiry x0⟩
  | imgCtlAdmit x0 x1 x2 => exact ⟨_, _, _, exec_imgCtlAdmit x0 x1 x2⟩
  | imgCtlAbort x0 x1 x2 => exact ⟨_, _, _, exec_imgCtlAbort x0 x1 x2⟩
  | validationEnd x0 x1 => exact ⟨_, _, _, exec_validationEnd x0 x1⟩
  | registerWrite x0 x1 x2 x3 => exact ⟨_, _, _, exec_registerWrite x0 x1 x2 x3⟩
  | latchingLoRead x0 x1 x2 => exact ⟨_, _, _, exec_latchingLoRead x0 x1 x2⟩
  | portRoleWrite x0 x1 x2 x3 => exact ⟨_, _, _, exec_portRoleWrite x0 x1 x2 x3⟩
  | portDownWrite x0 x1 x2 x3 => exact ⟨_, _, _, exec_portDownWrite x0 x1 x2 x3⟩
  | ttPartReset x0 x1 x2 => exact ⟨_, _, _, exec_ttPartReset x0 x1 x2⟩
  | ttCtxRestart x0 x1 x2 => exact ⟨_, _, _, exec_ttCtxRestart x0 x1 x2⟩
  | svCancel x0 x1 x2 => exact ⟨_, _, _, exec_svCancel x0 x1 x2⟩
  | sySignal x0 x1 x2 => exact ⟨_, _, _, exec_sySignal x0 x1 x2⟩
  | syReset x0 x1 x2 => exact ⟨_, _, _, exec_syReset x0 x1 x2⟩
  | icSet x0 x1 x2 => exact ⟨_, _, _, exec_icSet x0 x1 x2⟩
  | icClaim x0 x1 x2 x3 => exact ⟨_, _, _, exec_icClaim x0 x1 x2 x3⟩
  | icEoi x0 x1 x2 x3 => exact ⟨_, _, _, exec_icEoi x0 x1 x2 x3⟩
  | hmCakCtl x0 x1 x2 => exact ⟨_, _, _, exec_hmCakCtl x0 x1 x2⟩
  | lhSleepSleep x0 x1 x2 => exact ⟨_, _, _, exec_lhSleepSleep x0 x1 x2⟩
  | lhSleepWatch x0 x1 x2 => exact ⟨_, _, _, exec_lhSleepWatch x0 x1 x2⟩
  | snRelease x0 x1 x2 => exact ⟨_, _, _, exec_snRelease x0 x1 x2⟩
  | peerDisable x0 x1 x2 x3 => exact ⟨_, _, _, exec_peerDisable x0 x1 x2 x3⟩
  | linkUp x0 x1 x2 => exact ⟨_, _, _, exec_linkUp x0 x1 x2⟩
  | linkDown x0 x1 => exact ⟨_, _, _, exec_linkDown x0 x1⟩
  | rxFrameDrop x0 x1 x2 => exact ⟨_, _, _, exec_rxFrameDrop x0 x1 x2⟩
  | syncReceived x0 x1 => exact ⟨_, _, _, exec_syncReceived x0 x1⟩
  | syncLossHoldover x0 => exact ⟨_, _, _, exec_syncLossHoldover x0⟩
  | mkaFrame x0 x1 => exact ⟨_, _, _, exec_mkaFrame x0 x1⟩
  | mkaLifeExpiry x0 x1 => exact ⟨_, _, _, exec_mkaLifeExpiry x0 x1⟩
  | rvfPacket x0 x1 => exact ⟨_, _, _, exec_rvfPacket x0 x1⟩
  | graceExpiry x0 x1 => exact ⟨_, _, _, exec_graceExpiry x0 x1⟩
  | inputPeriodExpiry x0 x1 => exact ⟨_, _, _, exec_inputPeriodExpiry x0 x1⟩
  | evidenceCopyDone x0 x1 x2 => exact ⟨_, _, _, exec_evidenceCopyDone x0 x1 x2⟩
  | motionJobStart x0 x1 => exact ⟨_, _, _, exec_motionJobStart x0 x1⟩
  | motionJobDone x0 => exact ⟨_, _, _, exec_motionJobDone x0⟩
  | disparityPairTimeout x0 x1 => exact ⟨_, _, _, exec_disparityPairTimeout x0 x1⟩
  | disparityJobStart x0 x1 => exact ⟨_, _, _, exec_disparityJobStart x0 x1⟩
  | disparityJobDone x0 => exact ⟨_, _, _, exec_disparityJobDone x0⟩
  | matmul x0 x1 x2 => exact ⟨_, _, _, exec_matmul x0 x1 x2⟩
  | conv x0 x1 x2 => exact ⟨_, _, _, exec_conv x0 x1 x2⟩
  | deconv x0 x1 x2 => exact ⟨_, _, _, exec_deconv x0 x1 x2⟩
  | pool x0 x1 x2 => exact ⟨_, _, _, exec_pool x0 x1 x2⟩
  | warp x0 x1 x2 => exact ⟨_, _, _, exec_warp x0 x1 x2⟩
  | vector x0 x1 x2 => exact ⟨_, _, _, exec_vector x0 x1 x2⟩
  | norm x0 x1 x2 => exact ⟨_, _, _, exec_norm x0 x1 x2⟩
  | attend x0 x1 x2 => exact ⟨_, _, _, exec_attend x0 x1 x2⟩
  | expand x0 x1 x2 => exact ⟨_, _, _, exec_expand x0 x1 x2⟩
  | copy x0 x1 x2 => exact ⟨_, _, _, exec_copy x0 x1 x2⟩
  | wait x0 x1 => exact ⟨_, _, _, exec_wait x0 x1⟩
  | signal x0 x1 => exact ⟨_, _, _, exec_signal x0 x1⟩
  | invalidDescriptor x0 x1 => exact ⟨_, _, _, exec_invalidDescriptor x0 x1⟩
  | waitSatisfied x0 x1 x2 x3 => exact ⟨_, _, _, exec_waitSatisfied x0 x1 x2 x3⟩
  | waitTimeout x0 x1 x2 x3 => exact ⟨_, _, _, exec_waitTimeout x0 x1 x2 x3⟩
  | descriptorComplete x0 x1 => exact ⟨_, _, _, exec_descriptorComplete x0 x1⟩
  | preemptSaveDone x0 x1 x2 => exact ⟨_, _, _, exec_preemptSaveDone x0 x1 x2⟩
  | restoreDone x0 x1 => exact ⟨_, _, _, exec_restoreDone x0 x1⟩
  | stepReplay x0 x1 => exact ⟨_, _, _, exec_stepReplay x0 x1⟩
  | majorCycleBoundary x0 x1 => exact ⟨_, _, _, exec_majorCycleBoundary x0 x1⟩
  | tideLiveInstant x0 x1 x2 => exact ⟨_, _, _, exec_tideLiveInstant x0 x1 x2⟩
  | tideSettledPeriod x0 x1 x2 => exact ⟨_, _, _, exec_tideSettledPeriod x0 x1 x2⟩
  | tideContextStep x0 x1 x2 => exact ⟨_, _, _, exec_tideContextStep x0 x1 x2⟩
  | tideMarker x0 x1 x2 => exact ⟨_, _, _, exec_tideMarker x0 x1 x2⟩
  | stepOverrun x0 x1 => exact ⟨_, _, _, exec_stepOverrun x0 x1⟩
  | kernelPlace x0 x1 => exact ⟨_, _, _, exec_kernelPlace x0 x1⟩
  | swapOutDone x0 x1 => exact ⟨_, _, _, exec_swapOutDone x0 x1⟩
  | swapInDone x0 x1 => exact ⟨_, _, _, exec_swapInDone x0 x1⟩
  | quantumExpiry x0 x1 => exact ⟨_, _, _, exec_quantumExpiry x0 x1⟩
  | fgInputsReady x0 x1 x2 => exact ⟨_, _, _, exec_fgInputsReady x0 x1 x2⟩
  | liveGate x0 x1 => exact ⟨_, _, _, exec_liveGate x0 x1⟩
  | liveDeadlineMiss x0 x1 => exact ⟨_, _, _, exec_liveDeadlineMiss x0 x1⟩
  | packDone x0 x1 => exact ⟨_, _, _, exec_packDone x0 x1⟩
  | queryAdmitHead x0 => exact ⟨_, _, _, exec_queryAdmitHead x0⟩
  | batchStepAssemble x0 x1 => exact ⟨_, _, _, exec_batchStepAssemble x0 x1⟩
  | visionStep x0 x1 => exact ⟨_, _, _, exec_visionStep x0 x1⟩
  | basinScrub x0 x1 => exact ⟨_, _, _, exec_basinScrub x0 x1⟩
  | dramScrub x0 x1 x2 x3 => exact ⟨_, _, _, exec_dramScrub x0 x1 x2 x3⟩
  | dqsCheck x0 x1 x2 x3 => exact ⟨_, _, _, exec_dqsCheck x0 x1 x2 x3⟩
  | mr4Poll x0 x1 x2 => exact ⟨_, _, _, exec_mr4Poll x0 x1 x2⟩
  | channelPowerDown x0 x1 => exact ⟨_, _, _, exec_channelPowerDown x0 x1⟩
  | channelSelfRefresh x0 x1 => exact ⟨_, _, _, exec_channelSelfRefresh x0 x1⟩
  | eventFrameSend x0 => exact ⟨_, _, _, exec_eventFrameSend x0⟩
  | vblankStart x0 x1 x2 => exact ⟨_, _, _, exec_vblankStart x0 x1 x2⟩
  | hpdAsserted x0 x1 => exact ⟨_, _, _, exec_hpdAsserted x0 x1⟩
  | hpdUnplug x0 x1 => exact ⟨_, _, _, exec_hpdUnplug x0 x1⟩
  | irqHpd x0 x1 x2 => exact ⟨_, _, _, exec_irqHpd x0 x1 x2⟩
  | linkTrainingDone x0 x1 x2 => exact ⟨_, _, _, exec_linkTrainingDone x0 x1 x2⟩
  | tornCheck x0 x1 => exact ⟨_, _, _, exec_tornCheck x0 x1⟩
  | heartbeatTimer x0 => exact ⟨_, _, _, exec_heartbeatTimer x0⟩
  | pwpHeartbeat x0 x1 => exact ⟨_, _, _, exec_pwpHeartbeat x0 x1⟩
  | pwpRead x0 x1 x2 => exact ⟨_, _, _, exec_pwpRead x0 x1 x2⟩
  | pwpReadData x0 x1 => exact ⟨_, _, _, exec_pwpReadData x0 x1⟩
  | pwpSignal x0 x1 => exact ⟨_, _, _, exec_pwpSignal x0 x1⟩
  | pwpSignalAck x0 x1 => exact ⟨_, _, _, exec_pwpSignalAck x0 x1⟩
  | peerReqResend x0 x1 => exact ⟨_, _, _, exec_peerReqResend x0 x1⟩
  | peerReqTimeout x0 x1 => exact ⟨_, _, _, exec_peerReqTimeout x0 x1⟩
  | boot => cases h
  | idKeyReady x0 => exact ⟨_, _, _, exec_idKeyReady x0⟩
  | rngHealthFail x0 => exact ⟨_, _, _, exec_rngHealthFail x0⟩
  | flashRewriteDone => cases h
  | debugUnlock x0 x1 => exact ⟨_, _, _, exec_debugUnlock x0 x1⟩
  | checkpointClose x0 => exact ⟨_, _, _, exec_checkpointClose x0⟩
  | checkpointWritten x0 x1 => exact ⟨_, _, _, exec_checkpointWritten x0 x1⟩
  | ledgerRewrite x0 x1 => exact ⟨_, _, _, exec_ledgerRewrite x0 x1⟩
  | opTransition x0 x1 => exact ⟨_, _, _, exec_opTransition x0 x1⟩
  | pmbusPoll x0 x1 x2 x3 => exact ⟨_, _, _, exec_pmbusPoll x0 x1 x2 x3⟩
  | pmbusRetry x0 x1 => exact ⟨_, _, _, exec_pmbusRetry x0 x1⟩
  | powerCapWindow x0 => exact ⟨_, _, _, exec_powerCapWindow x0⟩
  | pmbAlert x0 => exact ⟨_, _, _, exec_pmbAlert x0⟩
  | thermalSample x0 x1 => exact ⟨_, _, _, exec_thermalSample x0 x1⟩
  | tripRecovery => cases h
  | domainSwitchOn x0 x1 => exact ⟨_, _, _, exec_domainSwitchOn x0 x1⟩
  | wakeNAsserted x0 x1 => exact ⟨_, _, _, exec_wakeNAsserted x0 x1⟩
  | i2cAddressMatch x0 x1 => exact ⟨_, _, _, exec_i2cAddressMatch x0 x1⟩
  | i2cStatusRead x0 => exact ⟨_, _, _, exec_i2cStatusRead x0⟩
  | watchCycleStart x0 => exact ⟨_, _, _, exec_watchCycleStart x0⟩
  | watchCompare x0 => exact ⟨_, _, _, exec_watchCompare x0⟩
  | watchCycleTimeout x0 => exact ⟨_, _, _, exec_watchCycleTimeout x0⟩
  | wake => cases h
  | wakePgRetry => cases h
  | powerOnReset => cases h
  | warmResetPin => cases h
  | coreWatchdog x0 x1 => exact ⟨_, _, _, exec_coreWatchdog x0 x1⟩
  | snapInTrigger x0 x1 => exact ⟨_, _, _, exec_snapInTrigger x0 x1⟩
  | bestMasterSelection x0 x1 => exact ⟨_, _, _, exec_bestMasterSelection x0 x1⟩
  | fwVerificationEnd => cases h
  | swapInHoldExpiry x0 x1 => exact ⟨_, _, _, exec_swapInHoldExpiry x0 x1⟩
  | lowPowerExit x0 x1 => exact ⟨_, _, _, exec_lowPowerExit x0 x1⟩
  | sleepEntryComplete x0 => exact ⟨_, _, _, exec_sleepEntryComplete x0⟩
  | randomSourcePassing => cases h
  | mkaHelloTime x0 x1 => exact ⟨_, _, _, exec_mkaHelloTime x0 x1⟩
  | voltageSettled x0 x1 => exact ⟨_, _, _, exec_voltageSettled x0 x1⟩
  | powerOnResetAsserted => cases h

/-- Every command that may reach the fuses or the flash, but power-on reset and its release, is a command of the state. -/
theorem exec_state {i : Instr} (h : i.reachesStore = true) (hr : ∀ dt role addr mode, i ≠ .powerOnReset dt role addr mode)
    (ha : ∀ dt, i ≠ .powerOnResetAsserted dt) : ∃ dt ok effect, ∀ s, exec i s = runState dt ok effect s := by
  cases i with
  | qcpHello x0 x1 => exact ⟨_, _, _, exec_qcpHello x0 x1⟩
  | qcpOpen x0 x1 => exact ⟨_, _, _, exec_qcpOpen x0 x1⟩
  | qcpClose x0 x1 => exact ⟨_, _, _, exec_qcpClose x0 x1⟩
  | qcpNop x0 x1 => exact ⟨_, _, _, exec_qcpNop x0 x1⟩
  | qcpRegRead x0 x1 => exact ⟨_, _, _, exec_qcpRegRead x0 x1⟩
  | qcpRegWrite x0 x1 => exact ⟨_, _, _, exec_qcpRegWrite x0 x1⟩
  | qcpBulkRead x0 x1 x2 => exact ⟨_, _, _, exec_qcpBulkRead x0 x1 x2⟩
  | qcpBulkWrite x0 x1 => exact ⟨_, _, _, exec_qcpBulkWrite x0 x1⟩
  | qcpImageLoad x0 x1 => exact ⟨_, _, _, exec_qcpImageLoad x0 x1⟩
  | qcpAdmit x0 x1 => exact ⟨_, _, _, exec_qcpAdmit x0 x1⟩
  | qcpAbort x0 x1 => exact ⟨_, _, _, exec_qcpAbort x0 x1⟩
  | qcpWeightLoad x0 x1 => exact ⟨_, _, _, exec_qcpWeightLoad x0 x1⟩
  | qcpSeal x0 x1 => exact ⟨_, _, _, exec_qcpSeal x0 x1⟩
  | sealComplete => cases h
  | qcpQuery x0 x1 => exact ⟨_, _, _, exec_qcpQuery x0 x1⟩
  | qcpQueryTokens x0 x1 => exact ⟨_, _, _, exec_qcpQueryTokens x0 x1⟩
  | qcpCancel x0 x1 => exact ⟨_, _, _, exec_qcpCancel x0 x1⟩
  | qcpResend x0 x1 => exact ⟨_, _, _, exec_qcpResend x0 x1⟩
  | qcpSnapshot x0 x1 => exact ⟨_, _, _, exec_qcpSnapshot x0 x1⟩
  | qcpWarmReset x0 x1 => exact ⟨_, _, _, exec_qcpWarmReset x0 x1⟩
  | qcpSleep x0 x1 => exact ⟨_, _, _, exec_qcpSleep x0 x1⟩
  | qcpAttest x0 x1 => exact ⟨_, _, _, exec_qcpAttest x0 x1⟩
  | qcpFwLoad x0 x1 => exact ⟨_, _, _, exec_qcpFwLoad x0 x1⟩
  | qcpFwUpdate x0 x1 => exact ⟨_, _, _, exec_qcpFwUpdate x0 x1⟩
  | qcpOwnerKey x0 x1 => exact ⟨_, _, _, exec_qcpOwnerKey x0 x1⟩
  | unknownOpcode x0 x1 x2 => exact ⟨_, _, _, exec_unknownOpcode x0 x1 x2⟩
  | qcpFrameDrop => cases h
  | sessionIdleExpiry => cases h
  | imgCtlAdmit => cases h
  | imgCtlAbort => cases h
  | validationEnd => cases h
  | registerWrite => cases h
  | latchingLoRead => cases h
  | portRoleWrite => cases h
  | portDownWrite => cases h
  | ttPartReset => cases h
  | ttCtxRestart => cases h
  | svCancel => cases h
  | sySignal => cases h
  | syReset => cases h
  | icSet => cases h
  | icClaim => cases h
  | icEoi => cases h
  | hmCakCtl => cases h
  | lhSleepSleep => cases h
  | lhSleepWatch => cases h
  | snRelease => cases h
  | peerDisable => cases h
  | linkUp => cases h
  | linkDown => cases h
  | rxFrameDrop => cases h
  | syncReceived => cases h
  | syncLossHoldover => cases h
  | mkaFrame => cases h
  | mkaLifeExpiry => cases h
  | rvfPacket => cases h
  | graceExpiry => cases h
  | inputPeriodExpiry => cases h
  | evidenceCopyDone => cases h
  | motionJobStart => cases h
  | motionJobDone => cases h
  | disparityPairTimeout => cases h
  | disparityJobStart => cases h
  | disparityJobDone => cases h
  | matmul => cases h
  | conv => cases h
  | deconv => cases h
  | pool => cases h
  | warp => cases h
  | vector => cases h
  | norm => cases h
  | attend => cases h
  | expand => cases h
  | copy => cases h
  | wait => cases h
  | signal => cases h
  | invalidDescriptor => cases h
  | waitSatisfied => cases h
  | waitTimeout => cases h
  | descriptorComplete => cases h
  | preemptSaveDone => cases h
  | restoreDone => cases h
  | stepReplay => cases h
  | majorCycleBoundary => cases h
  | tideLiveInstant => cases h
  | tideSettledPeriod => cases h
  | tideContextStep => cases h
  | tideMarker => cases h
  | stepOverrun => cases h
  | kernelPlace => cases h
  | swapOutDone => cases h
  | swapInDone => cases h
  | quantumExpiry => cases h
  | fgInputsReady => cases h
  | liveGate => cases h
  | liveDeadlineMiss => cases h
  | packDone => cases h
  | queryAdmitHead => cases h
  | batchStepAssemble => cases h
  | visionStep => cases h
  | basinScrub => cases h
  | dramScrub => cases h
  | dqsCheck => cases h
  | mr4Poll => cases h
  | channelPowerDown => cases h
  | channelSelfRefresh => cases h
  | eventFrameSend => cases h
  | vblankStart => cases h
  | hpdAsserted => cases h
  | hpdUnplug => cases h
  | irqHpd => cases h
  | linkTrainingDone => cases h
  | tornCheck => cases h
  | heartbeatTimer => cases h
  | pwpHeartbeat => cases h
  | pwpRead => cases h
  | pwpReadData => cases h
  | pwpSignal => cases h
  | pwpSignalAck => cases h
  | peerReqResend => cases h
  | peerReqTimeout => cases h
  | boot x0 x1 x2 => exact ⟨_, _, _, exec_boot x0 x1 x2⟩
  | idKeyReady => cases h
  | rngHealthFail => cases h
  | flashRewriteDone x0 x1 => exact ⟨_, _, _, exec_flashRewriteDone x0 x1⟩
  | debugUnlock => cases h
  | checkpointClose => cases h
  | checkpointWritten => cases h
  | ledgerRewrite => cases h
  | opTransition => cases h
  | pmbusPoll => cases h
  | pmbusRetry => cases h
  | powerCapWindow => cases h
  | pmbAlert => cases h
  | thermalSample => cases h
  | tripRecovery x0 => exact ⟨_, _, _, exec_tripRecovery x0⟩
  | domainSwitchOn => cases h
  | wakeNAsserted => cases h
  | i2cAddressMatch => cases h
  | i2cStatusRead => cases h
  | watchCycleStart => cases h
  | watchCompare => cases h
  | watchCycleTimeout => cases h
  | wake x0 x1 x2 => exact ⟨_, _, _, exec_wake x0 x1 x2⟩
  | wakePgRetry x0 x1 x2 => exact ⟨_, _, _, exec_wakePgRetry x0 x1 x2⟩
  | powerOnReset x0 x1 x2 x3 => exact absurd rfl (hr x0 x1 x2 x3)
  | warmResetPin x0 x1 => exact ⟨_, _, _, exec_warmResetPin x0 x1⟩
  | coreWatchdog => cases h
  | snapInTrigger => cases h
  | bestMasterSelection => cases h
  | fwVerificationEnd x0 => exact ⟨_, _, _, exec_fwVerificationEnd x0⟩
  | swapInHoldExpiry => cases h
  | lowPowerExit => cases h
  | sleepEntryComplete => cases h
  | randomSourcePassing x0 => exact ⟨_, _, _, exec_randomSourcePassing x0⟩
  | mkaHelloTime => cases h
  | voltageSettled => cases h
  | powerOnResetAsserted x0 => exact absurd rfl (ha x0)

end Sys2Proof.Machine
end

