-- ==== Sys2Proof/WellFormed.lean ====
section
/-! DEFINITION. When a command is well formed: its operands name things the device has, a port 0 to 7, an array 0 to 31, a
stream 0 to 255 and so on, and the fields of a frame fit their widths. -/

namespace Sys2Proof

/-- What a port can report of a frame. -/
def RxInfo.wf (r : RxInfo) : Bool :=
  decide (r.port < 8) && (match r.sec with
    | .plain => true
    | .tagged _ an pn _ => decide (an < 4) && decide (pn < 2 ^ 64))

/-- A QCP frame's payload fits its 16-bit length. -/
def QcpFrame.wf (f : QcpFrame) : Bool := f.rx.wf && decide (f.payload.length < 65536)

/-- A raw QCP frame's payload fits a frame. -/
def RawQcp.wf (f : RawQcp) : Bool := f.rx.wf && decide (f.payload.length < 65536)

/-- The fields of an RVF packet fit their widths (R77). -/
def RvfPacket.wf (p : RvfPacket) : Bool :=
  p.rx.wf && decide (p.version < 8) && decide (p.depth < 16) && decide (p.format < 16) && decide (p.width < 65536) &&
    decide (p.height < 65536) && decide (p.firstLine < 65536) && decide (p.lines < 256)

/-- A Sync's domain number is a byte, its log interval a signed byte. -/
def SyncMsg.wf (m : SyncMsg) : Bool := m.rx.wf && decide (m.domain < 256) && decide (-128 ≤ m.logInterval) && decide (m.logInterval < 128)

/-- An association number is 0 to 3. -/
def MkaFrame.wf (m : MkaFrame) : Bool := m.rx.wf && m.sak.all (fun s => decide (s.an < 4))

/-- A PWP frame's data fits a frame. -/
def PwpFrame.wf (f : PwpFrame) : Bool := f.rx.wf && decide (f.data.length < 65536)

/-- A control core is 0 to 3. -/
def Master.wf : Master → Bool
  | .host => true
  | .core k => decide (k < 4)
  | .harbourmaster => true

/-- A sector error names an address of the 37-bit DRAM space; a decode corrects at most eight symbols (R337). -/
def SectorErr.wf (e : SectorErr) : Bool := decide (e.addr < 2 ^ 37) && (e.fails || decide (e.symbols ≤ 8))

/-- A failed Basin read names a byte of the 512 MiB. -/
def JobErr.wf : JobErr → Bool
  | .word a _ => decide (a < 2 ^ 29)
  | .check => true

/-- Its errors name addresses of their memories. -/
def When.wf (t : When) : Bool := t.errs.all SectorErr.wf && t.fails.all JobErr.wf

/-- A hardware error names an address of its memory. -/
def HwErr.wf : HwErr → Bool
  | .basin _ a _ => decide (a < 2 ^ 29)
  | .sector _ e => e.wf
  | _ => true

/-- The opcodes that R418 lists; every other is reserved. -/
def listedCodes : List (BitVec 16) :=
  [0x0001, 0x0002, 0x0003, 0x0004, 0x0010, 0x0011, 0x0020, 0x0021, 0x0030, 0x0031, 0x0032, 0x0033, 0x0034, 0x0040, 0x0041, 0x0042, 0x0043,
    0x0050, 0x0051, 0x0052, 0x0060, 0x0061, 0x0062, 0x0063]

/-- The command is well formed. -/
def Instr.wf (i : Instr) : Bool :=
  match i with
  | .qcpHello dt f => dt.wf && f.wf
  | .qcpOpen dt f => dt.wf && f.wf
  | .qcpClose dt f => dt.wf && f.wf
  | .qcpNop dt f => dt.wf && f.wf
  | .qcpRegRead dt f => dt.wf && f.wf
  | .qcpRegWrite dt f => dt.wf && f.wf
  | .qcpBulkRead dt f errs => dt.wf && f.wf && errs.all SectorErr.wf
  | .qcpBulkWrite dt f => dt.wf && f.wf
  | .qcpImageLoad dt f => dt.wf && f.wf
  | .qcpAdmit dt f => dt.wf && f.wf
  | .qcpAbort dt f => dt.wf && f.wf
  | .qcpWeightLoad dt f => dt.wf && f.wf
  | .qcpSeal dt f => dt.wf && f.wf
  | .sealComplete dt set => dt.wf && decide (set < 65536)
  | .qcpQuery dt f => dt.wf && f.wf
  | .qcpQueryTokens dt f => dt.wf && f.wf
  | .qcpCancel dt f => dt.wf && f.wf
  | .qcpResend dt f => dt.wf && f.wf
  | .qcpSnapshot dt f => dt.wf && f.wf
  | .qcpWarmReset dt f => dt.wf && f.wf
  | .qcpSleep dt f => dt.wf && f.wf
  | .qcpAttest dt f => dt.wf && f.wf
  | .qcpFwLoad dt f => dt.wf && f.wf
  | .qcpFwUpdate dt f => dt.wf && f.wf
  | .qcpOwnerKey dt f => dt.wf && f.wf
  | .unknownOpcode dt opcode f => dt.wf && f.wf && !listedCodes.contains opcode
  | .qcpFrameDrop dt f => dt.wf && f.wf
  | .sessionIdleExpiry dt => dt.wf
  | .imgCtlAdmit dt who _ => dt.wf && who.wf
  | .imgCtlAbort dt who _ => dt.wf && who.wf
  | .validationEnd dt bad => dt.wf && bad.all (fun o => decide (o < 8388608))
  | .registerWrite dt who addr _ => dt.wf && who.wf && decide (addr < 4294967296)
  | .latchingLoRead dt who addr => dt.wf && who.wf && decide (addr < 4294967296)
  | .portRoleWrite dt who port _ => dt.wf && who.wf && decide (port < 8)
  | .portDownWrite dt who port _ => dt.wf && who.wf && decide (port < 8)
  | .ttPartReset dt who _ => dt.wf && who.wf
  | .ttCtxRestart dt who _ => dt.wf && who.wf
  | .svCancel dt who _ => dt.wf && who.wf
  | .sySignal dt who _ => dt.wf && who.wf
  | .syReset dt who _ => dt.wf && who.wf
  | .icSet dt who _ => dt.wf && who.wf
  | .icClaim dt who target _ => dt.wf && who.wf && decide (target < 5)
  | .icEoi dt who target _ => dt.wf && who.wf && decide (target < 5)
  | .hmCakCtl dt who _ => dt.wf && who.wf
  | .lhSleepSleep dt who _ => dt.wf && who.wf
  | .lhSleepWatch dt who _ => dt.wf && who.wf
  | .snRelease dt who _ => dt.wf && who.wf
  | .peerDisable dt who peer _ => dt.wf && who.wf && decide (peer < 255)
  | .linkUp dt port _ => dt.wf && decide (port < 8)
  | .linkDown dt port => dt.wf && decide (port < 8)
  | .rxFrameDrop dt rx _ => dt.wf && rx.wf
  | .syncReceived dt m => dt.wf && m.wf
  | .syncLossHoldover dt => dt.wf
  | .mkaFrame dt m => dt.wf && m.wf
  | .mkaLifeExpiry dt port => dt.wf && decide (port < 8)
  | .rvfPacket dt p => dt.wf && p.wf
  | .graceExpiry dt stream => dt.wf && decide (stream < 256)
  | .inputPeriodExpiry dt stream => dt.wf && decide (stream < 256)
  | .evidenceCopyDone dt stream fails => dt.wf && decide (stream < 256) && fails.all JobErr.wf
  | .motionJobStart dt fails => dt.wf && fails.all JobErr.wf
  | .motionJobDone dt => dt.wf
  | .disparityPairTimeout dt stream => dt.wf && decide (stream < 256)
  | .disparityJobStart dt fails => dt.wf && fails.all JobErr.wf
  | .disparityJobDone dt => dt.wf
  | .matmul dt array errs => dt.wf && decide (array < 32) && errs.all HwErr.wf
  | .conv dt array errs => dt.wf && decide (array < 32) && errs.all HwErr.wf
  | .deconv dt array errs => dt.wf && decide (array < 32) && errs.all HwErr.wf
  | .pool dt array errs => dt.wf && decide (array < 32) && errs.all HwErr.wf
  | .warp dt array errs => dt.wf && decide (array < 32) && errs.all HwErr.wf
  | .vector dt array errs => dt.wf && decide (array < 32) && errs.all HwErr.wf
  | .norm dt array errs => dt.wf && decide (array < 32) && errs.all HwErr.wf
  | .attend dt array errs => dt.wf && decide (array < 32) && errs.all HwErr.wf
  | .expand dt array errs => dt.wf && decide (array < 32) && errs.all HwErr.wf
  | .copy dt array errs => dt.wf && decide (array < 32) && errs.all HwErr.wf
  | .wait dt array => dt.wf && decide (array < 32)
  | .signal dt array => dt.wf && decide (array < 32)
  | .invalidDescriptor dt array => dt.wf && decide (array < 32)
  | .waitSatisfied dt array ctx object => dt.wf && decide (array < 32) && decide (ctx < 256) && decide (object < 65536)
  | .waitTimeout dt array ctx object => dt.wf && decide (array < 32) && decide (ctx < 256) && decide (object < 65536)
  | .descriptorComplete dt array => dt.wf && decide (array < 32)
  | .preemptSaveDone dt array _ => dt.wf && decide (array < 32)
  | .restoreDone dt array => dt.wf && decide (array < 32)
  | .stepReplay dt _ => dt.wf
  | .majorCycleBoundary dt _ => dt.wf
  | .tideLiveInstant dt entry _ => dt.wf && decide (entry < 8192)
  | .tideSettledPeriod dt entry _ => dt.wf && decide (entry < 8192)
  | .tideContextStep dt entry _ => dt.wf && decide (entry < 8192)
  | .tideMarker dt entry _ => dt.wf && decide (entry < 8192)
  | .stepOverrun dt _ => dt.wf
  | .kernelPlace dt part => dt.wf && decide (part < 8)
  | .swapOutDone dt berth => dt.wf && decide (berth < 16)
  | .swapInDone dt berth => dt.wf && decide (berth < 16)
  | .quantumExpiry dt ctx => dt.wf && decide (ctx < 256)
  | .fgInputsReady dt _ fails => dt.wf && fails.all JobErr.wf
  | .liveGate dt stream => dt.wf && decide (stream < 256)
  | .liveDeadlineMiss dt stream => dt.wf && decide (stream < 256)
  | .packDone dt _ => dt.wf
  | .queryAdmitHead dt => dt.wf
  | .batchStepAssemble dt ctx => dt.wf && decide (ctx < 256)
  | .visionStep dt ctx => dt.wf && decide (ctx < 256)
  | .basinScrub dt hits => dt.wf && hits.all (fun h => decide (h.addr < 2 ^ 29))
  | .dramScrub dt channel slot errs => dt.wf && decide (channel < 16) && decide (slot < 8192) && errs.all SectorErr.wf
  | .dqsCheck dt channel _ _ => dt.wf && decide (channel < 16)
  | .mr4Poll dt channel _ => dt.wf && decide (channel < 16)
  | .channelPowerDown dt channel => dt.wf && decide (channel < 16)
  | .channelSelfRefresh dt channel => dt.wf && decide (channel < 16)
  | .eventFrameSend dt => dt.wf
  | .vblankStart dt output late => dt.wf && decide (output < 4) && late.all (fun r => decide (r.1 < 2160) && decide (r.2.1 + r.2.2 ≤ 3840))
  | .hpdAsserted dt output => dt.wf && decide (output < 4)
  | .hpdUnplug dt output => dt.wf && decide (output < 4)
  | .irqHpd dt output _ => dt.wf && decide (output < 4)
  | .linkTrainingDone dt output _ => dt.wf && decide (output < 4)
  | .tornCheck dt window => dt.wf && decide (window < 64)
  | .heartbeatTimer dt => dt.wf
  | .pwpHeartbeat dt f => dt.wf && f.wf
  | .pwpRead dt f errs => dt.wf && f.wf && errs.all SectorErr.wf
  | .pwpReadData dt f => dt.wf && f.wf
  | .pwpSignal dt f => dt.wf && f.wf
  | .pwpSignalAck dt f => dt.wf && f.wf
  | .peerReqResend dt _ => dt.wf
  | .peerReqTimeout dt _ => dt.wf
  | .boot dt _ trained => dt.wf && trained.all (fun t => decide (t.channel < 16))
  | .idKeyReady dt => dt.wf
  | .rngHealthFail dt => dt.wf
  | .flashRewriteDone dt _ => dt.wf
  | .debugUnlock dt _ => dt.wf
  | .checkpointClose dt => dt.wf
  | .checkpointWritten dt _ => dt.wf
  | .ledgerRewrite dt _ => dt.wf
  | .opTransition dt _ => dt.wf
  | .pmbusPoll dt _ _ _ => dt.wf
  | .pmbusRetry dt _ => dt.wf
  | .powerCapWindow dt => dt.wf
  | .pmbAlert dt => dt.wf
  | .thermalSample dt readings => dt.wf && decide (readings.length = 19)
  | .tripRecovery dt => dt.wf
  | .domainSwitchOn dt domain => dt.wf && decide (domain < 96)
  | .wakeNAsserted dt _ => dt.wf
  | .i2cAddressMatch dt address => dt.wf && decide (address < 128)
  | .i2cStatusRead dt => dt.wf
  | .watchCycleStart dt => dt.wf
  | .watchCompare dt => dt.wf
  | .watchCycleTimeout dt => dt.wf
  | .wake dt _ trained => dt.wf && trained.all (fun t => decide (t.channel < 16))
  | .wakePgRetry dt _ trained => dt.wf && trained.all (fun t => decide (t.channel < 16))
  | .powerOnReset dt _ _ _ => dt.wf
  | .warmResetPin dt _ => dt.wf
  | .coreWatchdog dt core => dt.wf && decide (core < 4)
  | .snapInTrigger dt _ => dt.wf
  | .bestMasterSelection dt port => dt.wf && port.all (fun p => decide (p < 8))
  | .fwVerificationEnd dt => dt.wf
  | .swapInHoldExpiry dt ctx => dt.wf && decide (ctx < 256)
  | .lowPowerExit dt channel => dt.wf && decide (channel < 16)
  | .sleepEntryComplete dt => dt.wf
  | .randomSourcePassing dt => dt.wf
  | .mkaHelloTime dt port => dt.wf && decide (port < 8)
  | .voltageSettled dt _ => dt.wf
  | .powerOnResetAsserted dt => dt.wf

end Sys2Proof
end

