-- ==== Sys2Proof/Tests/Slice0.lean ====
section
/-! SUPPORT. The model's own tests: for every statement with hypotheses a small state that meets them, clause by clause (Met: the clause's
hypothesis holds of the chip at the command's time); a command that is not well formed for each check of Instr.wf; the worked examples of
the spec. -/

namespace Sys2Proof.Tests

open Sys2Proof Sys2Proof.Machine

set_option Elab.async false
set_option maxRecDepth 8000


/-! ### Small states -/

/-- What port 0 saw of a good frame of QCP. -/
def rxQcp : RxInfo :=
  { port := 0, dst := 0, src := 0xAA, tags := [], etype := 0x88B5, size := 100, fcsOk := true, sec := .tagged 5 0 20 true }

/-- A frame of QCP with a sequence and a payload. -/
def qcp (seq : Word) (payload : Bytes) : QcpFrame := { rx := rxQcp, seq := seq, session := 7, payload := payload }

/-- A link with its associations. -/
def linked : Port := { link := true, rx := [{ sci := 5, an := 0, high := 10 }], tx := some 0 }

/-- A device that runs firmware 1 s after power-on, every domain on, port 0 linked, an owned session open at sequence 5, no structure applied. -/
def bare : Chip :=
  let c := State.reset.chip
  { c with
    clk := { ref := 1000000000, dev := 1000000000, lh := 1000000000 }
    hm := { c.hm with stage := .running, rngOk := true }
    pm := { off := 0, vmodeRead := true, cur := 0 }
    qy := { c.qy with ports := vset c.qy.ports 0 linked }
    pl := { c.pl with session := some { id := 7, owned := true, mac := 0xAA, port := 0, tag := none, lastAt := 1000000000 }, next := 5 }
    mc := { c.mc with ch := Vector.replicate 16 { trained := true, power := .active } } }

/-- So many nanoseconds after the command before, no read meeting an error. -/
def ns (n : Nat) : When := { ns := n }

/-- A state of a chip. -/
def at_ (c : Chip) : State := { State.reset with chip := c }

/-- The clause of a statement and a state: the state is outside the factory test state and meets the clause's hypothesis. -/
abbrev Met {X : Prop} {i : Instr} {dt : When} {hyp : Chip → Prop} {concl : Chip → Chip → Prop} (_ : X → Does i dt hyp concl)
    (c : Chip) : Prop := c.id.straps.testMode = false ∧ hyp (c.arrive dt)

/-- The same for a clause about the fuses or the flash as well. -/
abbrev MetState {X : Prop} {i : Instr} {dt : When} {hyp : State → Prop} {concl : State → State → Prop} (_ : X → DoesState i dt hyp concl)
    (s : State) : Prop := s.chip.id.straps.testMode = false ∧ hyp { s with chip := s.chip.arrive dt }

/-- A stream of 64 x 16 monochrome at 50 Hz, of context 0. -/
def stream3 : StreamDecl :=
  { idx := 3, active := true, live := true, settled := true, port := 0, fmt := 1, w := 64, h := 16, fps := 50, sc := 1, tm := 2,
    dlive := 20, partner := 255, rank := 0, ctx := 0, sid := 0x33, seed := 9, span := 4, evid := 22, liveRing := 20, setRing := 21,
    analysis := 23 }

/-- A frame-generation program of no kernels, and a serving program. -/
def desc1 : Bytes := toLe 1 1 ++ zeros 255

def desc2 : Bytes := [2, 0, 1, 32, 1, 1, 0, 0] ++ toLe 4 100 ++ toLe 2 64 ++ toLe 2 64 ++ zeros 8 ++ toLe 2 4 ++ zeros 6 ++ toLe 4 8 ++
  toLe 2 2 ++ toLe 2 31 ++ toLe 2 32 ++ toLe 2 33 ++ zeros 84

/-- A structure: a latency-critical partition with a stream and a best-effort one with two contexts. -/
def str0 : Structure :=
  { serial := 1, cycle := 10, store := 10
    parts := [{ id := 0, cls := .lc, arrays := 3, chans := 0xF, banks := 3 }, { id := 1, cls := .be, arrays := 0xC, chans := 0xF0, banks := 0xC }]
    berths := [{ id := 0, part := 0, arrayShare := 4096, basinShare := 4096 }, { id := 1, part := 1, arrayShare := 4096, basinShare := 4096 }]
    ctxs := [{ id := 0, part := 0, berth := 0, prog := 0 }, { id := 1, part := 1, berth := 1, prog := 1 }, { id := 2, part := 1, berth := 1, prog := 1 }]
    regions := [{ first := 0, count := 40, id := 10, owner := 255, repl := false, rdonly := false, zero := false, chans := 0xF, reps := 0 },
      { first := 40, count := 3, id := 3839, owner := 255, repl := false, rdonly := false, zero := false, chans := 0xF, reps := 0 },
      { first := 50, count := 2, id := 20, owner := 0, repl := false, rdonly := false, zero := false, chans := 0xF, reps := 0 },
      { first := 52, count := 2, id := 21, owner := 0, repl := false, rdonly := false, zero := false, chans := 0xF, reps := 0 },
      { first := 54, count := 2, id := 22, owner := 0, repl := false, rdonly := false, zero := false, chans := 0xF, reps := 0 },
      { first := 56, count := 2, id := 23, owner := 0, repl := false, rdonly := false, zero := false, chans := 0xF, reps := 0 },
      { first := 58, count := 2, id := 30, owner := 1, repl := false, rdonly := true, zero := false, chans := 0xF0, reps := 0 },
      { first := 60, count := 2, id := 31, owner := 1, repl := false, rdonly := false, zero := false, chans := 0xF0, reps := 0 },
      { first := 62, count := 2, id := 32, owner := 1, repl := false, rdonly := false, zero := false, chans := 0xF0, reps := 0 },
      { first := 64, count := 2, id := 3841, owner := 1, repl := false, rdonly := false, zero := false, chans := 0xF0, reps := 0 },
      { first := 66, count := 2, id := 3842, owner := 1, repl := false, rdonly := false, zero := false, chans := 0xF0, reps := 0 }]
    streams := [stream3]
    tide := [{ offset := 0, kind := 3, part := 0, target := 0, list := 0, budget := 0, cls := .lc, snap := true },
      { offset := 0, kind := 2, part := 0, target := 0, list := 0, budget := 10, cls := .lc, snap := false },
      { offset := 0, kind := 0, part := 0, target := 3, list := 0, budget := 10, cls := .lc, snap := false },
      { offset := 0, kind := 1, part := 0, target := 3, list := 0, budget := 10, cls := .lc, snap := false }]
    syncs := [{ first := 4, count := 3, owner := 0, signaller := 7, peer := false, init := 0 }]
    outputs := [{ output := 1, enabled := true, mode := 0, bpc := 8, lanes := 4, rate := 3, bg := 0 }]
    windows := [{ id := 2, output := 1, stream := 3, ring := 0, layer := 0, d := 1, overlay := 0, sx := 0, sy := 0, w := 64, h := 16,
                  dx := 0, dy := 0, bg := 0 }]
    progs := [{ id := 0, kind := 1, sets := [0], desc := desc1, waits := [5], signals := [6, 4], raw := [] },
      { id := 1, kind := 2, sets := [0], desc := desc2, waits := [5], signals := [6], raw := [] }]
    weights := [{ id := 0, region := 30, length := 32, hash := 0 }, { id := 1, region := 30, length := 32, hash := sha256 (zeros 32) }] }

/-- The region table of a structure, each entry in a slot of its own number of channel 0. -/
def tableOf (s : Structure) : List (Nat × Entry) :=
  s.regions.flatMap (fun r => (List.range r.count).map (fun k => (r.first + k,
    { repl := false, rdonly := r.rdonly, device := r.owner == 255, owner := r.owner, plost := false, rlost := false, decl := r.id,
      pch := 0, pslot := r.first + k, rch := 0, rslot := 0 })))

/-- The same device with that structure applied: contexts 0 and 1 hold their berths, context 2 is swapped out, set 0 is sealed. -/
def dev : Chip :=
  { bare with
    cfg := { bare.cfg with applied := some str0, everApplied := true, state := .applied, next := .running, sealedSets := [0] }
    tt := { bare.tt with
      inCycle := true, start := 1000000000
      mask := vset (vset bare.tt.mask 0 3) 1 0xC
      pst := vset (vset bare.tt.pst 0 .run) 1 .run
      ctx := vset (vset (vset bare.tt.ctx 0 { st := .idle, berth := some 0 }) 1 { st := .idle, berth := some 1 }) 2 { st := .swapped }
      berth := vset (vset bare.tt.berth 0 { occ := some 0 }) 1 { occ := some 1 }
      layout := [{ part := 0, kind := 3, id := 0, off := 65536, size := 4096 }, { part := 0, kind := 4, id := 0, off := 0, size := 4096 },
        { part := 0, kind := 0, id := 9, off := 0, size := 8192 }, { part := 0, kind := 0, id := 10, off := 8192, size := 8192 },
        { part := 0, kind := 0, id := 11, off := 16384, size := 8192 },
        { part := 1, kind := 3, id := 1, off := 65536, size := 4096 }, { part := 1, kind := 4, id := 1, off := 0, size := 4096 }] }
    mc := { bare.mc with table := tableOf str0 }
    sy := { bare.sy with objs := [(4, { value := 0, peer := false, signaller := 0, owner := 0 }), (5, { value := 3, peer := true, signaller := 7, owner := 0 }),
      (6, { value := 0, peer := false, signaller := 4, owner := 0 }), (771, { value := 1, peer := false, signaller := 4, owner := 0 })] }
    lg := { bare.lg with started := true, index := 5, ckpts := 1 } }

/-- A frame-generation step of context 0, and a serving step of context 1, running. -/
def step0 : Step :=
  { no := 0x10, ctx := 0, part := 0, be := false, subj := .context 1 0, phase := .running, opened := 0, jent := 0, jext := none, runs := 1,
    mism := 0, replay := none, marks := [], sigs := [], binds := [], gen := 1, parity := false, anchor := true, discard := false, kind := 0,
    pres := 0, epoch := 0, e := 0, den := 1, a := 0, b := 0, out1 := false, list := 0, budgetEnd := some 900000000, segs := [], later := [] }

/-- A query of context 1 with one token. -/
def query0 : Query :=
  { id := 0x51, ctx := 1, topk := 1, temp := 0, stops := [], clips := [], n := 1, maxNew := 4, seed := 1, tokens := [7] }

/-- A sequence of that query. -/
def seq0 : Seq :=
  { entry := 0, slot := 0, q := query0, st := .prefill, reserved := 1, blocks := [], frames := [], vdone := 0, rows := 1, done := 0,
    positions := 0, gen := 1, generated := 0, last := 0, cancel := false }

/-- A batch step that prefills that sequence. -/
def batch0 : Step :=
  { step0 with no := 0x20, ctx := 1, part := 1, be := true, subj := .batch 0, segs := [{ seq := 0, slot := 0, rows := 1, r0 := 0, p0 := 0, decode := false, sample := true }] }

/-- The device with an enabled, present peer and a signal sent to it by context 1. -/
def request0 : PeerReq :=
  { id := 0, tag := 0x77, peer := 254, ctx := 1, step := 0x20, isSignal := true, target := 9, value := 1, length := 0, dest := 0, array := 0,
    sentAt := 0, resent := false, pieces := [] }

def peerDev (i : Nat) : Chip :=
  (dev.updPeer i (fun p => { p with mac := 0xBB, ctl := 0x80000000, present := true })).updPl (fun p => { p with reqs := [{ request0 with peer := i }] })

/-- Frames of the other protocols as port 0 sees them. -/
def rxOf (etype : BitVec 16) (dst : Mac) : RxInfo := { rxQcp with etype := etype, dst := dst }

def sync0 (gm : Nat) : SyncMsg := { rx := rxOf 0x88F7 0x0180C200000E, gmTime := gm, logInterval := -3 }

def mka0 (xpn icv : Bool) : MkaFrame :=
  { rx := rxOf 0x888E 0x0180C2000003, ckn := 0x4B, icvOk := icv, sak := some { xpn256 := xpn, an := 1, peers := [5] } }

/-- The device with key slot 1 loaded. -/
def mkaDev : Chip := dev.updHm (fun h => { h with cak := vset h.cak 1 (some { key := 1, name := 0x4B }) })

/-- A packet of two lines of the stream. -/
def rvf0 : RvfPacket :=
  { rx := rxOf 0x22F0 0, streamId := 0x33, version := 0, sv := true, tv := true, timestamp := 999000000, progressive := true, depth := 8,
    format := 1, width := 64, height := 16, firstLine := 0, lines := 2, payload := zeros 128 }

/-- A descriptor of context 0: its opcode, its three operands and the parameters from byte 0x20. -/
def descOf (op a b out : Nat) (params : Bytes) : Bytes :=
  [BitVec.ofNat 8 op] ++ zeros 7 ++ toLe 8 a ++ toLe 8 b ++ toLe 8 out ++ (params ++ zeros 96).take 96

/-- A descriptor in execution. -/
def curOf (bytes : Bytes) (ctx : Nat) : Cur :=
  { d := { ctx := ctx, step := 0x10, bytes := bytes, place := 0, sig := 0, bound := [] }, be := false, executed := false, pass := 0 }

/-- The device with step0 issued and a descriptor in execution on array 1. -/
def runs (k : Cur) : Chip :=
  (dev.updTt (fun t => { t with steps := [step0] })).updArr 1 (fun r => { r with st := .run, cur := some k })

/-- A VECTOR of two positions of four channels between two places of the Basin; the same with its output in a reserved space. -/
def vec0 : Cur := curOf (descOf 6 (2 * 2 ^ 61 + 0x100000) 0 (2 * 2 ^ 61 + 0x200000) (toLe 4 2 ++ toLe 4 4)) 0

def vecBad : Cur := curOf (descOf 6 (2 * 2 ^ 61 + 0x100000) 0 (7 * 2 ^ 61) (toLe 4 2 ++ toLe 4 4)) 0

/-- A COPY from the window of peer 254. -/
def copy0 : Cur := curOf (descOf 10 (6 * 2 ^ 61 + 254 * 2 ^ 32) 0 (2 * 2 ^ 61 + 0x200000) (toLe 4 64 ++ toLe 4 64 ++ toLe 4 64 ++ toLe 4 64)) 0

/-- A WAIT for object 5 and a SIGNAL of object 6, or 4. -/
def wait0 (o value limit : Nat) : Cur := curOf (descOf 11 0 0 0 (toLe 4 o ++ toLe 4 value ++ toLe 4 limit)) 0

def signal0 (o n peer : Nat) : Cur := curOf (descOf 12 0 0 0 (toLe 4 o ++ toLe 4 n ++ toLe 1 peer)) 0

/-- A waiter of context 0 on array 1 for object 5. -/
def waiter0 (sat : Bool) : Waiter :=
  { array := 1, be := false, ctx := 0, step := 0x10, obj := 5, value := 3, left := some 0, since := 0, sat := sat }

/-- A closed frame of the stream. -/
def frame0 : ClosedFrame := { counter := 4, capture := 900000000, close := 920000000, closeIdx := 0, slot := 0, lost := 0, first := true, evidDone := true }

def job0 : Job := { stream := 3, frame := frame0, order := 0 }

/-- The device with that frame held, a job waiting or running at each engine. -/
def engines (run : Bool) : Chip :=
  let e : Engine := if run then { run := some job0, out := [1, 2], at_ := 56 * 2 ^ 20 } else { q := [job0] }
  ((dev.updStream 3 (fun q => { q with frames := [frame0], nclosed := 1 })).updMe (fun m => { m with eng := e })).updSd (fun m => { m with eng := e })

/-- An entry of that structure's tide table. -/
def tideN (k : Nat) : TideDecl := (str0.tide[k]?).getD { offset := 0, kind := 3, part := 0, target := 0, list := 0, budget := 0, cls := .lc, snap := false }

/-- The device with entry k the next of the tide table. -/
def tideAt (k : Nat) : Chip := dev.updTt (fun t => { t with next := k })

/-- The same with a mode of the stream changed. -/
def modeAt (k : Nat) (settled : Bool) (m : FgMode) : Chip := (tideAt k).updMode 3 settled (fun _ => m)

def period0 : Period := { c := 4, m := 1, only0 := false, ref := (0, 900000000), epoch := 0 }

/-- A kernel of step0. -/
def kernel0 : Kernel := { step := 0x10, ctx := 0, part := 0, be := false, descs := [vec0.d] }

/-- Berth 1 in a transfer with context 1. -/
def transfer (n : Nat) (st : CtxState) : Chip :=
  (dev.updCtx 1 (fun k => { k with st := st, berth := some 1, fresh := true })).updBerth 1 (fun b => { b with xfer := n })

/-- A LIVE step of the stream, waiting for its inputs. -/
def frameStep (runs : Nat) : Step :=
  { step0 with subj := .frame 3 false 9, phase := .waiting, pres := 1010000000, a := 4, b := 4, runs := runs }

/-- The device with that step, its frame held and its motion field written. -/
def frameReady (runs : Nat) : Chip :=
  (((dev.updStream 3 (fun q => { q with frames := [frame0], nclosed := 1 })).updMe (fun m => { m with written := [{ stream := 3, closeIdx := 0, at_ := 900000000 }] })).updTt
    (fun t => { t with steps := [frameStep runs] }))

def pack0 : Pack :=
  { step := 0x10, ctx := 0, stream := 3, settled := false, j := 9, pres := 1010000000, kind := 0, e := 0, den := 2, a := 4, b := 4,
    lossA := [0], lossB := [0], outAt := 65536, s0 := 0, cold := false, prog := 0, epoch := 0 }

/-- The serving header of context 1. -/
def hdr0 : SvHdr := svHdrOf desc2

/-- A clip of the stream's evidence ring, a sequence that takes one frame of it, and the device with that sequence, the entry holding a
frame of the given counter. -/
def clip0 : Clip := { stream := 3, source := 1, stride := 1, cap := 1, start := 0, stop := 1000000000 }

def clipFrame0 : ClipFrame := { clip := 0, stream := 3, source := 1, entry := 0, key := 7 }

def seqV : Seq :=
  { seq0 with q := { query0 with clips := [clip0], tokens := [0xFFFFFF00] }, st := .vision, frames := [clipFrame0] }

def visionDev (counter : Nat) : Chip :=
  ((dev.updCfg (fun g => { g with applied := some { str0 with grants := [{ id := 0, region := 22, grantee := 1, cap := 0 }] } })).updSv
    (fun v => { v with seqs := [seqV] })).dramWrite (54 * 2 ^ 20) (toLe 8 counter)

/-- Output 1, active since an earlier blanking; window 2 of it, its chosen slot of instant j at the ring's first slot, where instant 9 lies. -/
def out1 : OutputDecl := { output := 1, enabled := true, mode := 0, bpc := 8, lanes := 4, rate := 3, bg := 0 }

def win2 : WindowDecl :=
  { id := 2, output := 1, stream := 3, ring := 0, layer := 0, d := 1, overlay := 0, sx := 0, sy := 0, w := 64, h := 16, dx := 0, dy := 0, bg := 0 }

def outDev (st : OutState) (vb : Option Nat) : Chip :=
  dev.updOut 1 (fun o => { o with st := st, vbAt := vb, lanes := 4, rate := 3, tryLanes := 4, tryRate := 3 })

def slotDev (j : Nat) : Chip :=
  ((outDev .active (some 0)).updWin 2 (fun w => { w with valid := true, output := 1, inst := some j, addr := 50 * 2 ^ 20 })).dramWrite
    (50 * 2 ^ 20) (toLe 8 9 ++ zeros 16 ++ toLe 8 950000000 ++ zeros 8 ++ [3, 0, 0, 0, 64, 0])

/-- A frame of PWP from peer 3. -/
def pwp (type status : Byte) (tag target value length piece : Word) (data : Bytes) : PwpFrame :=
  { rx := { rxOf 0x88B6 0 with src := 0xBB }, version := 1, type := type, status := status, tag := tag, target := target, value := value,
    length := length, piece := piece, data := data }

/-- Peer 3 present, with window 0 of region 20 published to it. -/
def peer3 : Chip :=
  (dev.updPeer 3 (fun p => { p with mac := 0xBB, ctl := 0x80010000, present := true })).updPl (fun p => { p with
    pub := vset p.pub 0 { decl := w32 (2 ^ 31 + 20), off := 0, len := 4096 } })

/-- The same with a request of context 1 to it outstanding. -/
def asked (sig : Bool) (sentAt : Nat) : Chip :=
  peer3.updPl (fun p => { p with reqs := [{ request0 with peer := 3, isSignal := sig, length := 4, sentAt := sentAt }] })

def ask0 (sig : Bool) (sentAt : Nat) : PeerReq := { request0 with peer := 3, isSignal := sig, length := 4, sentAt := sentAt }

/-- A firmware image of version 9 and epoch 2 without code: a header, the modulus of a key (a prime), and its signature of the two. -/
def key0 : Rsa := BitVec.ofNat 3072 (2 ^ 3072 - 1103717)

def sig0 : Rsa := BitVec.ofNat 3072
  0x2c25e9979e675c7d72408dc9e6007068a28240bb7051f12bb61f381be0018317a76482c9441f232f47b9b4615aea0b419f54e9747d57feb66c5730c1dab8138b0121280441f8d76474e6d6f4504bb9ac14063350fd74a899baf9aa4b499a7550974a5d235d7f7cf23bbb890e0a5083b49c7bf2e53632bdf74a995bf43962bffc7934ffe77a72acb67436d379a3f2f1af07d40ce69a5fe396368741f3c1a8e2e0af5739e599a2c397ef12ad17e29da3381c26de62bcee64f34b8a5bb9d75832e6c6ccef43a63d87253d158cee6ef44569774f4fe809b6d071cfef8c63be147d0729f2a9db9625ea28eb8d36aadfd9be699bf508be77d2dc42c4632ef6bea5397957638ad3e902c60d856c3fd44f92d2a9bc9e5fd2b48d2a45e9b67b99ca84840a60b5e3988ebbeaba27a79db356fdca548eb6f14f46816e8f28bcfc64bc7c4498927fd9ff6b3e7719e14c67e6cbbce55df12ec864d4ddd578aeca2ec403447e806b96b02bf7bf5399f9e0ac086e9a3b2b0d10933b83f144e4deec19427612a9f7

def image0 : Bytes := toLe 4 0x57465844 ++ toLe 4 9 ++ toLe 4 784 ++ [2, 0, 0, 0] ++ rsaBytes key0 ++ rsaBytes sig0

def flash0 : Flash := { present := true, mem := Memory.write [] 0 image0 }

/-- The fuses of a device with that root key. -/
def fuses0 : Fuses := { rootHash := sha256 (rsaBytes key0) }

/-- The device in its boot ROM. -/
def romDev : Chip := bare.updHm (fun h => { h with stage := .rom })

/-- An update under way: in a network boot with the image in the Basin, or with it in the store region. -/
def netUpdate : Chip :=
  (bare.updHm (fun h => { h with stage := .network, upd := .verifying, updLen := 784 })).basinWrite [31] (8 * 2 ^ 20) image0

def liveUpdate : Chip := (dev.updHm (fun h => { h with upd := .verifying, updLen := 784 })).dramWrite (24 * 2 ^ 20) image0

/-- A closed checkpoint. -/
def ckpt0 : Ckpt := { q := 1, time := 1000000000, head := 9, first := 0, count := 1, state := 0, serial := 0, bootCount := 0, fwVersion := 0, storeHash := 0, flags := 0 }

def region1 : RegionDecl :=
  { first := 40, count := 3, id := 3839, owner := 255, repl := false, rdonly := false, zero := false, chans := 0xF, reps := 0 }

def signing (debug : Bool) : Chip :=
  (dev.updLg (fun l => { l with signing := [ckpt0], rewrite := [(512, [1, 2])] })).updHm (fun h => { h with idReady := true, debug := debug })

/-- The device with changes to its power, its Lighthouse. -/
def pmDev (f : Power → Power) : Chip := bare.updPm f

def lhDev (f : Lighthouse → Lighthouse) : Chip := dev.updLh f

/-- A watch cycle whose frame is ready. -/
def compare0 (hasRef : Bool) (thresh : Word) : Chip :=
  (lhDev (fun l => { l with st := .watchCycle, frameReady := true, watchStream := some stream3, hasRef := hasRef, watchThresh := thresh })).basinWrite
    [31] (2 ^ 20 + 4096) [9]

/-- The device with its session's next command waiting to be taken: bytes of a payload at most, deferred commands at most 7. -/
def owned0 : Session := { id := 7, owned := true, mac := 0xAA, port := 0, tag := none, lastAt := 1000000000 }

def plDev (f : Proto → Proto) : Chip := dev.updPl f

/-- A nonce of zeros, and the payload of an OPEN or of an OWNER_KEY of a zero modulus with exponent 65,537. -/
def nonce0 : Nonce := { value := 0, at_ := 999999999, used := false }

def ownerKey0 : Bytes := zeros 384 ++ toLe 4 65537 ++ zeros 384

/-- The device in a network boot. -/
def netDev : Chip := bare.updHm (fun h => { h with stage := .network })

/-- The device with a weight set, or an image, under way. -/
def deferred0 (op : Op) (arg : Nat) : Deferred := { r := { op := op, f := qcp 4 [] }, arg := arg }

def cfgDev (f : Cfg → Cfg) : Chip := dev.updCfg f

/-- A query record of context 1 with n tokens announced and the given ones carried, and m tokens to make. -/
def queryPayload (n m : Nat) (ts : List Nat) : Bytes :=
  toLe 4 0x51 ++ toLe 2 1 ++ toLe 2 1 ++ zeros 4 ++ toLe 4 n ++ toLe 4 m ++ zeros 4 ++ toLe 8 1 ++ zeros (0xB0 - 0x20) ++ ts.flatMap (toLe 4)

def staged0 : Query := { query0 with n := 5, tokens := [7] }

def staged1 : Query := { staged0 with n := 3 }

def tok0 : TokFrame := { seq := 3, payload := [1, 2], sent := true }

/-- The test that a frame is the session's next command, and its meaning. -/
def takesTest (b : Chip) (f : QcpFrame) : Bool := b.hearsQcp f.rx && (b.ingress f.rx).2 == some .qcp && decide (f.payload.length ≤ 8256)

def turnTest (b : Chip) (f : QcpFrame) : Bool :=
  takesTest b f && b.pl.session.any (fun x => x.id == f.session) && f.seq == b.pl.next &&
    b.pl.held.all (fun r => r.f.seq != f.seq && r.f.seq != f.seq + 1)

theorem takes_of {b : Chip} {f : QcpFrame} (h : takesTest b f = true) : b.takesQcp f := by
  simpa [takesTest, Chip.takesQcp, and_assoc] using h

theorem turn_of {b : Chip} {f : QcpFrame} (h : turnTest b f = true) : b.inTurn f := by
  simp only [turnTest, Bool.and_eq_true, beq_iff_eq, List.all_eq_true, bne_iff_ne] at h
  obtain ⟨⟨⟨h1, h2⟩, h3⟩, h4⟩ := h
  refine ⟨takes_of h1, ?_, h3, fun r hr => h4 r hr⟩
  cases hs : b.pl.session with
  | none => rw [hs] at h2; simp at h2
  | some x => rw [hs] at h2; exact ⟨x, hs, by simpa using h2⟩

theorem runs_of {b : Chip} {f : QcpFrame} (h : (turnTest b f && b.hm.stage == .running && decide (b.pl.deferred.length < 8)) = true) :
    b.inTurnRunning f := by
  simp only [Bool.and_eq_true, beq_iff_eq, decide_eq_true_eq] at h
  exact ⟨turn_of h.1.1, h.1.2, h.2⟩

/-! ### Witnesses that are worked out by hand -/

theorem vget_replicate (n i : Nat) : vget 0 (Vector.replicate n 0) i = 0 := by
  by_cases h : i < n <;> simp [vget, Vector.getD, h]

/-- The one source counted is the only one pending. -/
theorem pending_one (ic : IntCtl) (h : ic.count = vset (Vector.replicate 1024 0) 781 1) (n : Nat) (hp : ic.pending n = true) : n = 781 := by
  unfold IntCtl.pending at hp
  rw [h, vget_vset] at hp
  split at hp
  · omega
  · rw [vget_replicate] at hp; simp at hp

/-- The device with source 781 counted once. -/
def counted0 : Chip := bare.updIc (fun ic => { ic with count := vset (Vector.replicate 1024 0) 781 1 })

theorem counted0_wins : (counted0.arrive (ns 7)).ic.wins 4 781 := by
  rw [show (counted0.arrive (ns 7)).ic = counted0.ic from rfl]
  have hc : counted0.ic.count = vset (Vector.replicate 1024 0) 781 1 := rfl
  have hq : counted0.ic.qualifies 4 781 = true := by decide +kernel
  generalize counted0.ic = ic at hc hq
  refine ⟨by decide, hq, fun m _ h => ?_⟩
  have hm : m = 781 := pending_one ic hc m (by unfold IntCtl.qualifies at h; simp only [Bool.and_eq_true] at h; exact h.1.1.2)
  subst hm; exact .inr ⟨rfl, Nat.le_refl _⟩

theorem bare_none : ∀ n < 1024, (bare.arrive (ns 7)).ic.qualifies 4 n = false := by
  intro n _
  rw [show (bare.arrive (ns 7)).ic = bare.ic from rfl]
  have hc : bare.ic.count = Vector.replicate 1024 0 := rfl
  generalize bare.ic = ic at hc
  have hp : ic.pending n = false := by unfold IntCtl.pending; rw [hc, vget_replicate]; rfl
  unfold IntCtl.qualifies; rw [hp]; simp

theorem witness_InterruptWrites_claim : Met (fun h : Obligations.InterruptWrites => (h.1 (ns 7) .host 4 0 (by decide)).1 781) counted0 :=
  ⟨rfl, by decide +kernel, by decide +kernel, counted0_wins⟩

theorem witness_InterruptWrites_none : Met (fun h : Obligations.InterruptWrites => (h.1 (ns 7) .host 4 0 (by decide)).2) bare :=
  ⟨rfl, by decide +kernel, by decide +kernel, bare_none⟩

theorem image0_good : fwCheck fuses0.rootHash fuses0.epoch image0 784 = none := by decide +kernel

theorem flash0_image : flash0.image = image0 := by decide +kernel

theorem flash0_length : leNat (flash0.mem.read 8 4) = 784 := by decide +kernel

theorem witness_TheBootRomStartsFirmware_good : MetState (fun h : Obligations.TheBootRomStartsFirmware => (h (ns 7) false []).1)
    { at_ romDev with fuses := fuses0, flash := flash0 } :=
  ⟨rfl, by decide +kernel, by decide +kernel, by
    show bootCheck fuses0 flash0 false = none
    unfold bootCheck; rw [flash0_image, flash0_length, image0_good]; rfl⟩

theorem witness_UpdatesReachTheFlash_network : MetState (fun h : Obligations.UpdatesReachTheFlash => (h (ns 7)).2.1)
    { at_ netUpdate with fuses := fuses0 } :=
  ⟨rfl, by decide +kernel, by decide +kernel, by
    show fwCheck fuses0.rootHash fuses0.epoch ((netUpdate.arrive (ns 7)).staged 784) 784 = none
    rw [show (netUpdate.arrive (ns 7)).staged 784 = image0 by decide +kernel]; exact image0_good⟩

theorem witness_UpdatesReachTheFlash_live : MetState (fun h : Obligations.UpdatesReachTheFlash => (h (ns 7)).2.2.1)
    { at_ liveUpdate with fuses := fuses0 } :=
  ⟨rfl, by decide +kernel, by decide +kernel, by
    show fwCheck fuses0.rootHash fuses0.epoch ((liveUpdate.arrive (ns 7)).staged 784) 784 = none
    rw [show (liveUpdate.arrive (ns 7)).staged 784 = image0 by decide +kernel]; exact image0_good⟩
theorem beNat_snoc (l : Bytes) (a : Nat) : l.foldl (fun a b => a * 256 + b.toNat) a < (a + 1) * 256 ^ l.length := by
  induction l generalizing a with
  | nil => simp
  | cons b l ih =>
    have hb : b.toNat < 256 := b.isLt
    refine Nat.lt_of_lt_of_le (ih (a * 256 + b.toNat)) ?_
    rw [List.length_cons, Nat.pow_succ, Nat.mul_comm (256 ^ l.length), ← Nat.mul_assoc]
    exact Nat.mul_le_mul_right _ (by omega)

theorem beNat_ge (l : Bytes) (a : Nat) : a ≤ l.foldl (fun a b => a * 256 + b.toNat) a := by
  induction l generalizing a with
  | nil => simp
  | cons b l ih => exact Nat.le_trans (by omega) (ih (a * 256 + b.toNat))

/-- An encoded digest lies between 2 and 2^3064. -/
theorem emsa_range (h : Hash) : 2 ≤ emsa h ∧ emsa h < 2 ^ 3064 := by
  have hl : (hashBytes h).length = 32 := by simp [hashBytes, toBe, toLe]
  have e : emsa h = (hashBytes h).foldl (fun a b => a * 256 + b.toNat)
      (beNat ([0x00, 0x01] ++ List.replicate 330 0xFF ++ [0x00] ++ digestInfo)) := by
    unfold emsa beNat; rw [List.foldl_append]
  rw [e]
  have hn : 2 ≤ beNat ([0x00, 0x01] ++ List.replicate 330 0xFF ++ [0x00] ++ digestInfo) ∧
      beNat ([0x00, 0x01] ++ List.replicate 330 0xFF ++ [0x00] ++ digestInfo) + 1 ≤ 2 ^ 2808 := by decide +kernel
  generalize beNat ([0x00, 0x01] ++ List.replicate 330 0xFF ++ [0x00] ++ digestInfo) = m at hn
  refine ⟨Nat.le_trans hn.1 (beNat_ge _ _), Nat.lt_of_lt_of_le (beNat_snoc _ _) ?_⟩
  rw [hl, show (256 : Nat) ^ 32 = 2 ^ 256 by decide, show 2 ^ 3064 = 2 ^ 2808 * 2 ^ 256 by decide +kernel]
  exact Nat.mul_le_mul_right _ hn.2

theorem square_neg (m : Nat) (h : 2 ≤ m) : m * m % (m + 1) = 1 := by
  obtain ⟨k, rfl⟩ : ∃ k, m = k + 1 := ⟨m - 1, by omega⟩
  have : (k + 1) * (k + 1) = 1 + (k + 1 + 1) * k := by
    simp only [Nat.add_mul, Nat.mul_add, Nat.mul_one, Nat.one_mul]; omega
  rw [this, Nat.add_mul_mod_self_left, Nat.mod_eq_of_lt (by omega)]

theorem powMod_one (m n e acc : Nat) (h : 2 ≤ m) (ha : acc < m) : powMod m n 1 e acc = acc := by
  induction n generalizing e with
  | zero => rfl
  | succ n ih =>
    unfold powMod
    simp only [Nat.mul_one, Nat.mod_eq_of_lt (show 1 < m by omega), Nat.mod_eq_of_lt ha, ite_self]
    exact ih (e / 2)

/-- A number one below a modulus is its own 65,537th power. -/
theorem powMod_neg (m : Nat) (h : 2 ≤ m) : powMod (m + 1) 17 m 65537 1 = m := by
  have hm : 1 * m % (m + 1) = m := by rw [Nat.one_mul]; exact Nat.mod_eq_of_lt (by omega)
  show powMod (m + 1) 16 (m * m % (m + 1)) (65537 / 2) (1 * m % (m + 1)) = m
  rw [square_neg m h, hm]
  exact powMod_one (m + 1) 16 _ m (by omega) (by omega)

/-- A key under which the encoding of a digest is its own signature. -/
theorem rsa_self (h : Hash) : rsaVerify (BitVec.ofNat 3072 (emsa h + 1)) h (BitVec.ofNat 3072 (emsa h)) = true := by
  obtain ⟨h2, hr⟩ := emsa_range h
  have hb : (2 : Nat) ^ 3064 + 1 < 2 ^ 3072 := by decide +kernel
  have t1 : (BitVec.ofNat 3072 (emsa h + 1)).toNat = emsa h + 1 := by
    rw [BitVec.toNat_ofNat]; exact Nat.mod_eq_of_lt (by omega)
  have t2 : (BitVec.ofNat 3072 (emsa h)).toNat = emsa h := by
    rw [BitVec.toNat_ofNat]; exact Nat.mod_eq_of_lt (by omega)
  unfold rsaVerify
  rw [t1, t2, powMod_neg _ h2]
  simp

/-- The digest that a debugger of the bare device signs. -/
def challenge0 : Hash := sha256 (hashBytes 5 ++ hashBytes (bare.arrive (ns 7)).idHash)

theorem witness_TheRandomSourceAndDebugUnlock_held : Met (fun h : Obligations.TheRandomSourceAndDebugUnlock =>
    ((h (ns 7)).2.2 (BitVec.ofNat 3072 (emsa challenge0 + 1)) (BitVec.ofNat 3072 (emsa challenge0)) 5).1)
    (bare.updHm (fun h => { h with owner := some (BitVec.ofNat 3072 (emsa challenge0 + 1)), challenge := some 5 })) :=
  ⟨rfl, rfl, rfl, rfl, rsa_self challenge0⟩

theorem witness_TheRandomSourceAndDebugUnlock_failed : Met (fun h : Obligations.TheRandomSourceAndDebugUnlock =>
    ((h (ns 7)).2.2 0 1 5).2) (bare.updHm (fun h => { h with owner := some 0, challenge := some 5 })) :=
  ⟨rfl, rfl, rfl, rfl, rfl⟩

theorem best_step (ic : IntCtl) (ok : Nat → Bool) (n : Nat) (h : ∀ m, ok m = true → m = n) (l : List Nat) (b : Option Nat)
    (hb : b = none ∨ b = some n) : l.foldl (fun b n => if ok n then match b with
      | none => some n
      | some m => if (ic.routeOf m).prio < (ic.routeOf n).prio then some n else b else b) b =
    if b = some n ∨ ∃ m ∈ l, ok m = true then some n else none := by
  induction l generalizing b with
  | nil => rcases hb with rfl | rfl <;> simp
  | cons k l ih =>
    rw [List.foldl_cons]
    by_cases hk : ok k = true
    · have := h k hk; subst this
      rcases hb with rfl | rfl
      · rw [if_pos hk, ih _ (.inr rfl)]; simp [hk]
      · rw [if_pos hk]; simp only [Nat.lt_irrefl, if_false]; rw [ih _ (.inr rfl)]; simp
    · rw [if_neg hk, ih _ hb]; simp [hk]

/-- The one source that satisfies a test is the best. -/
theorem best_only (ic : IntCtl) (ok : Nat → Bool) (n : Nat) (hn : n < 1024) (h1 : ok n = true) (h : ∀ m, ok m = true → m = n) :
    ic.best ok = some n := by
  unfold IntCtl.best
  refine (best_step ic ok n h (List.range 1024) none (.inl rfl)).trans (if_pos (.inr ⟨n, List.mem_range.mpr hn, h1⟩))

/-- The device with source 3 counted twice. -/
def event0 : Chip := dev.updIc (fun i => { i with count := vset (Vector.replicate 1024 0) 3 2, last := [(3, { time := 5, detail := zeros 16 })] })

theorem event0_next : (event0.arrive (ns 7)).ic.nextEvent = some 3 := by
  rw [show (event0.arrive (ns 7)).ic = event0.ic from rfl]
  have hc : event0.ic.count = vset (Vector.replicate 1024 0) 3 2 := rfl
  have h1 : ((event0.ic.routeOf 3).target == 5 && event0.ic.pending 3 && !event0.ic.masked 3) = true := by decide +kernel
  generalize event0.ic = ic at hc h1
  refine best_only ic _ 3 (by decide) h1 (fun m h => ?_)
  simp only [Bool.and_eq_true] at h
  have hp := h.1.2
  unfold IntCtl.pending at hp
  rw [hc, vget_vset] at hp
  split at hp
  · omega
  · rw [vget_replicate] at hp; simp at hp

theorem event0_can : (event0.arrive (ns 7)).canSendEvent = true := by
  unfold Chip.canSendEvent
  rw [event0_next]; decide +kernel

theorem witness_QueriesAndFramesToTheHost_event : Met (fun h : Obligations.QueriesAndFramesToTheHost => (h (ns 7) (qcp 5 [])).2.2.2.2.2.2 3 owned0 (by decide))
    event0 := ⟨rfl, event0_can, event0_next, rfl⟩


/-! ### Witnesses of the clauses -/

theorem witness_RegisterAccesses_1 :
    Met (fun h : Obligations.RegisterAccesses => h.1.1 (ns 7) .host 5) (bare) ∧
    Met (fun h : Obligations.RegisterAccesses => h.1.2.2.2.2.2.2.2.2.2.2.1 255 (by decide) (ns 7) (.core 1) 20000) (bare) ∧
    Met (fun h : Obligations.RegisterAccesses => h.1.2.2.2.2.2.2.2.2.2.2.2 255 (by decide) (ns 7) (.core 1) 0) (bare) ∧
    Met (fun h : Obligations.RegisterAccesses => h.2.1.1 (ns 7) .host 5) (bare.updQy (fun q => { q with err := 7 })) ∧
    Met (fun h : Obligations.RegisterAccesses => (h.2.2.1 (ns 7) .host 5 131071 (by decide) 1 (by decide)).1) (bare) ∧
    Met (fun h : Obligations.RegisterAccesses => (h.2.2.1 (ns 7) .host 5 131071 (by decide) 1 (by decide)).2) (bare) :=
  ⟨(by decide +kernel),
    (by decide +kernel),
    (by decide +kernel),
    (by decide +kernel),
    (by decide +kernel),
    by decide +kernel⟩

theorem witness_RegisterAccesses_2 :
    Met (fun h : Obligations.RegisterAccesses => (h.2.2.1 (ns 7) .host 5 41 (by decide) 0 (by decide)).1) (dev) ∧
    Met (fun h : Obligations.RegisterAccesses => h.2.2.2.1 (ns 7) .host) (bare) ∧
    Met (fun h : Obligations.RegisterAccesses => h.2.2.2.2.2.2.2.2.2 (ns 7) .host 1 (by decide)) (dev) :=
  ⟨(by decide +kernel),
    (by decide +kernel),
    by decide +kernel⟩

theorem witness_OtherAccesses_1 :
    Met (fun h : Obligations.OtherAccesses => h.1 (0x120000, 0x12) (by decide) (ns 7) .host 5) (bare) ∧
    Met (fun h : Obligations.OtherAccesses => (h.2 (ns 7) .host 0x140000 0 _ (.head _)).1) (bare) ∧
    Met (fun h : Obligations.OtherAccesses => (h.2 (ns 7) .host 0x140000 0 _ (.head _)).2) (bare) ∧
    Met (fun h : Obligations.OtherAccesses => (h.2 (ns 7) .host 0x1000001 0 _ (.head _)).1) (bare) ∧
    Met (fun h : Obligations.OtherAccesses => (h.2 (ns 7) .host 0x1100000 0 _ (.tail _ (.head _))).1) (bare.updId (fun d => { d with grade := .dx3230 })) ∧
    Met (fun h : Obligations.OtherAccesses => (h.2 (ns 7) .host 0x1100000 0 _ (.tail _ (.head _))).2) (bare.updId (fun d => { d with grade := .dx3230 })) :=
  ⟨(by decide +kernel),
    (by decide +kernel),
    (by decide +kernel),
    (by decide +kernel),
    (by decide +kernel),
    by decide +kernel⟩

theorem witness_OtherAccesses_2 :
    Met (fun h : Obligations.OtherAccesses => (h.2 (ns 7) .host 0x30000 0 _ (.tail _ (.tail _ (.head _)))).1) (bare) ∧
    Met (fun h : Obligations.OtherAccesses => (h.2 (ns 7) .host 0x30000 0 _ (.tail _ (.tail _ (.head _)))).2) (bare) ∧
    Met (fun h : Obligations.OtherAccesses => (h.2 (ns 7) .harbourmaster 0x30000 0 _ (.tail _ (.tail _ (.tail _ (.head _))))).1) (bare.updLh (fun l => { l with st := .watchCycle })) ∧
    Met (fun h : Obligations.OtherAccesses => (h.2 (ns 7) .host 0x1000000 0 _ (.tail _ (.tail _ (.tail _ (.tail _ (.head _)))))).1) (bare.updPm (fun p => { p with off := 1 })) ∧
    Met (fun h : Obligations.OtherAccesses => (h.2 (ns 7) .host 0x1000000 0 _ (.tail _ (.tail _ (.tail _ (.tail _ (.head _)))))).2) (bare.updPm (fun p => { p with off := 1 })) :=
  ⟨(by decide +kernel),
    (by decide +kernel),
    (by decide +kernel),
    (by decide +kernel),
    by decide +kernel⟩

theorem witness_AdmitsAreRejected :
    Met (fun h : Obligations.AdmitsAreRejected => h.1 (ns 7) .host 1 (by decide) (by decide)) (bare.updCfg (fun g => { g with state := .pending })) ∧
    Met (fun h : Obligations.AdmitsAreRejected => h.1 (ns 7) .host 1 (by decide) (by decide)) (bare.updCfg (fun g => { g with state := .validating })) ∧
    Met (fun h : Obligations.AdmitsAreRejected => h.2 (ns 7)) (bare.updCfg (fun g => { g with state := .validating, admitLen := 8 * 2 ^ 20 + 1 })) ∧
    Met (fun h : Obligations.AdmitsAreRejected => h.2 (ns 7)) (bare.updCfg (fun g => { g with state := .validating, admitLen := 8 })) :=
  ⟨(by decide +kernel),
    (by decide +kernel),
    (by decide +kernel),
    by decide +kernel⟩

theorem witness_ImageControlWrites :
    Met (fun h : Obligations.ImageControlWrites => (h (ns 7) .host 1).1 (by decide) (by decide)) (bare) ∧
    Met (fun h : Obligations.ImageControlWrites => ((h (ns 7) .host 2).2 (by decide) (by decide)).1) (bare.updCfg (fun g => { g with state := .pending })) ∧
    Met (fun h : Obligations.ImageControlWrites => ((h (ns 7) .host 2).2 (by decide) (by decide)).2.1) (bare.updCfg (fun g => { g with state := .validating })) ∧
    Met (fun h : Obligations.ImageControlWrites => ((h (ns 7) .host 2).2 (by decide) (by decide)).2.2) (bare) :=
  ⟨(by decide +kernel),
    (by decide +kernel),
    (by decide +kernel),
    by decide +kernel⟩

theorem witness_ValidationEnds :
    Met (fun h : Obligations.ValidationEnds => h (ns 7) (some 16)) (bare.updCfg (fun g => { g with state := .validating, admitLen := 32 })) ∧
    Met (fun h : Obligations.ValidationEnds => h (ns 7) none) (bare.updCfg (fun g => { g with state := .validating, admitLen := 32 })) :=
  ⟨(by decide +kernel),
    by decide +kernel⟩

theorem witness_SchedulerWrites_1 :
    Met (fun h : Obligations.SchedulerWrites => (h.1 (ns 7) .host 0x100).1) (dev) ∧
    Met (fun h : Obligations.SchedulerWrites => (h.1 (ns 7) .host 0x107).2) (dev) ∧
    Met (fun h : Obligations.SchedulerWrites => (h.1 (ns 7) .host 0x0).2) (dev) ∧
    Met (fun h : Obligations.SchedulerWrites => (h.2 (ns 7) 2).1 .host) (dev) ∧
    Met (fun h : Obligations.SchedulerWrites => (h.2 (ns 7) 1).2.1) (dev.updCtx 1 (fun k => { k with st := .faulted, fault := 3 })) ∧
    Met (fun h : Obligations.SchedulerWrites => ((h.2 (ns 7) 1).2.2 0).1) (dev.updCtx 1 (fun k => { k with st := .faulted, fault := 0x105 })) :=
  ⟨(by decide +kernel),
    (by decide +kernel),
    (by decide +kernel),
    (by decide +kernel),
    (by decide +kernel),
    by decide +kernel⟩

theorem witness_SchedulerWrites_2 :
    Met (fun h : Obligations.SchedulerWrites => ((h.2 (ns 7) 1).2.2 0).2) (dev.updCtx 1 (fun k => { k with st := .faulted, fault := 3 })) ∧
    Met (fun h : Obligations.SchedulerWrites => ((h.2 (ns 7) 1).2.2 0).2) ((dev.updCtx 1 (fun k => { k with st := .faulted, fault := 7 })).updTt (fun t => { t with fwRestarts := [(1, 5)] })) :=
  ⟨(by decide +kernel),
    by decide +kernel⟩

theorem witness_CancelWrites :
    Met (fun h : Obligations.CancelWrites => (h (ns 7) .host 0x51).1) (dev.updSv (fun v => { v with queue := [query0] })) ∧
    Met (fun h : Obligations.CancelWrites => (h (ns 7) .host 0x51).2.1) ((dev.updSv (fun v => { v with seqs := [seq0] })).updTt (fun t => { t with steps := [batch0] })) ∧
    Met (fun h : Obligations.CancelWrites => (h (ns 7) .host 0x51).2.2.1 seq0) (dev.updSv (fun v => { v with seqs := [seq0] })) ∧
    Met (fun h : Obligations.CancelWrites => (h (ns 7) .host 0x51).2.2.2) (dev) :=
  ⟨(by decide +kernel),
    (by decide +kernel),
    (by decide +kernel),
    by decide +kernel⟩

theorem witness_ObjectWrites :
    Met (fun h : Obligations.ObjectWrites => (h.1 (ns 7) .host 0x20005).1) (dev) ∧
    Met (fun h : Obligations.ObjectWrites => (h.1 (ns 7) .host 0xFFFF0005).1) (dev) ∧
    Met (fun h : Obligations.ObjectWrites => (h.1 (ns 7) .host 0x5).2.1) (dev) ∧
    Met (fun h : Obligations.ObjectWrites => (h.1 (ns 7) .host 0x10006).2.2 _ (.head _)) (dev) ∧
    Met (fun h : Obligations.ObjectWrites => (h.1 (ns 7) .host 0x10007).2.2 _ (.tail _ (.head _))) (dev) ∧
    Met (fun h : Obligations.ObjectWrites => h.2 (ns 7) .host 0x5) (dev) :=
  ⟨(by decide +kernel),
    (by decide +kernel),
    (by decide +kernel),
    (by decide +kernel),
    (by decide +kernel),
    by decide +kernel⟩

theorem witness_InterruptWrites :
    Met (fun h : Obligations.InterruptWrites => ((h.2 (ns 7) .host 0).1 4 (by decide)).1 3 [2]) (bare.updIc (fun i => { i with stack := vset i.stack 4 [3, 2] })) ∧
    Met (fun h : Obligations.InterruptWrites => ((h.2 (ns 7) .host 0).1 4 (by decide)).2) (bare) ∧
    Met (fun h : Obligations.InterruptWrites => (h.2 (ns 7) .host 800).2.1) (bare) ∧
    Met (fun h : Obligations.InterruptWrites => (h.2 (ns 7) .host 831).2.1) (bare) ∧
    Met (fun h : Obligations.InterruptWrites => (h.2 (ns 7) .host 832).2.2) (bare) ∧
    Met (fun h : Obligations.InterruptWrites => (h.2 (ns 7) .host 799).2.2) (bare) :=
  ⟨(by decide +kernel),
    (by decide +kernel),
    (by decide +kernel),
    (by decide +kernel),
    (by decide +kernel),
    by decide +kernel⟩

theorem witness_KeySleepAndReleaseWrites_1 :
    Met (fun h : Obligations.KeySleepAndReleaseWrites => (h.1 (ns 7) .host 0).1 0 (by decide) (by decide)) (bare) ∧
    Met (fun h : Obligations.KeySleepAndReleaseWrites => (h.1 (ns 7) .host 3).1 3 (by decide) (by decide)) (bare.updHm (fun h => { h with cakData := vset h.cakData 2 5 })) ∧
    Met (fun h : Obligations.KeySleepAndReleaseWrites => (h.1 (ns 7) (.core 0) 3).2) (bare) ∧
    Met (fun h : Obligations.KeySleepAndReleaseWrites => (h.2.1 (ns 7) .host 0x100 _ (.head _)).1) (dev.updSv (fun v => { v with queue := [query0] })) ∧
    Met (fun h : Obligations.KeySleepAndReleaseWrites => (h.2.1 (ns 7) .host 0x101 _ (.tail _ (.head _))).1) ((dev.updLh (fun l => { l with watchCfg := 3 })).updCfg (fun g => { g with state := .pending })) ∧
    Met (fun h : Obligations.KeySleepAndReleaseWrites => (h.2.1 (ns 7) .host 0x101 _ (.tail _ (.head _))).2.1) (dev) :=
  ⟨(by decide +kernel),
    (by decide +kernel),
    (by decide +kernel),
    (by decide +kernel),
    (by decide +kernel),
    by decide +kernel⟩

theorem witness_KeySleepAndReleaseWrites_2 :
    Met (fun h : Obligations.KeySleepAndReleaseWrites => (h.2.1 (ns 7) .host 0x101 _ (.head _)).2.1) (dev) ∧
    Met (fun h : Obligations.KeySleepAndReleaseWrites => (h.2.1 (ns 7) .host 0x1 _ (.head _)).2.2) (dev) ∧
    Met (fun h : Obligations.KeySleepAndReleaseWrites => (h.2.1 (ns 7) .host 0x1 _ (.tail _ (.head _))).2.2) (dev) ∧
    Met (fun h : Obligations.KeySleepAndReleaseWrites => (h.2.1 (ns 7) .host 0x100 _ (.head _)).2.2) (dev.updLh (fun l => { l with st := .entering })) ∧
    Met (fun h : Obligations.KeySleepAndReleaseWrites => h.2.2 (ns 7) .host 0) (bare.updSn (fun s => { s with held := true, cause := 1 })) :=
  ⟨(by decide +kernel),
    (by decide +kernel),
    (by decide +kernel),
    (by decide +kernel),
    by decide +kernel⟩

theorem witness_PeerControlWrites :
    Met (fun h : Obligations.PeerControlWrites => (h (ns 7) .host 254 0 (by decide)).1) (peerDev 254) ∧
    Met (fun h : Obligations.PeerControlWrites => (h (ns 7) .host 254 0x80000000 (by decide)).2) (peerDev 254) ∧
    Met (fun h : Obligations.PeerControlWrites => (h (ns 7) .host 0 0 (by decide)).2) (dev) :=
  ⟨(by decide +kernel),
    (by decide +kernel),
    by decide +kernel⟩

theorem witness_LinksGoUpAndDown :
    Met (fun h : Obligations.LinksGoUpAndDown => h.1 (ns 7) .host 0 1 (by decide) _ (.head _)) (bare) ∧
    Met (fun h : Obligations.LinksGoUpAndDown => h.1 (ns 7) .host 0 2 (by decide) _ (.tail _ (.head _))) (dev) ∧
    Met (fun h : Obligations.LinksGoUpAndDown => h.1 (ns 7) .host 7 0 (by decide) _ (.head _)) (dev) ∧
    Met (fun h : Obligations.LinksGoUpAndDown => (h.2 (ns 7) 1).1 true) (bare) ∧
    Met (fun h : Obligations.LinksGoUpAndDown => (h.2 (ns 7) 0).2) ((dev.updQy (fun q => { q with slave := some 0 })).updStream 3 (fun q => { q with cur := some { capture := 0, slot := 0, got := [], finalAt := none } })) :=
  ⟨(by decide +kernel),
    (by decide +kernel),
    (by decide +kernel),
    (by decide +kernel),
    by decide +kernel⟩

theorem witness_DroppedFramesAreCounted :
    Met (fun h : Obligations.DroppedFramesAreCounted => (h (ns 7) { rxQcp with size := 9217 } true).1) (bare) ∧
    Met (fun h : Obligations.DroppedFramesAreCounted => (h (ns 7) { rxQcp with fcsOk := false } false).1) (bare) ∧
    Met (fun h : Obligations.DroppedFramesAreCounted => (h (ns 7) { rxQcp with sec := .plain } false).2.1) (bare) ∧
    Met (fun h : Obligations.DroppedFramesAreCounted => (h (ns 7) { rxQcp with etype := 0x1234 } false).2.2.1) (bare) ∧
    Met (fun h : Obligations.DroppedFramesAreCounted => (h (ns 7) (rxOf 0x22F0 0) true).2.2.2) (dev) :=
  ⟨(by decide +kernel),
    (by decide +kernel),
    (by decide +kernel),
    (by decide +kernel),
    by decide +kernel⟩

theorem witness_DeviceTimeIsSteered_1 :
    Met (fun h : Obligations.DeviceTimeIsSteered => (h.1 (ns 7) (sync0 1000001007)).1 _ (.head _)) (bare.updQy (fun q => { q with slave := some 0 })) ∧
    Met (fun h : Obligations.DeviceTimeIsSteered => (h.1 (ns 7) (sync0 1000000000)).1 _ (.head _)) (bare.updQy (fun q => { q with slave := some 0, good := 7 })) ∧
    Met (fun h : Obligations.DeviceTimeIsSteered => (h.1 (ns 7) (sync0 1000000000)).1 _ (.tail _ (.head _))) (bare.updQy (fun q => { q with tst := .sync, slave := some 0 })) ∧
    Met (fun h : Obligations.DeviceTimeIsSteered => (h.1 (ns 7) (sync0 1000000000)).1 _ (.tail _ (.tail _ (.head _)))) (bare.updQy (fun q => { q with tst := .holdover, slave := some 0 })) ∧
    Met (fun h : Obligations.DeviceTimeIsSteered => (h.1 (ns 7) (sync0 1000001008)).1 _ (.tail _ (.tail _ (.tail _ (.head _))))) (bare.updQy (fun q => { q with slave := some 0, tst := .sync, outRun := 1 })) ∧
    Met (fun h : Obligations.DeviceTimeIsSteered => (h.1 (ns 7) (sync0 1000001008)).1 _ (.tail _ (.tail _ (.tail _ (.tail _ (.head _)))))) (bare.updQy (fun q => { q with slave := some 0, tst := .sync, outRun := 2 })) :=
  ⟨(by decide +kernel),
    (by decide +kernel),
    (by decide +kernel),
    (by decide +kernel),
    (by decide +kernel),
    by decide +kernel⟩

theorem witness_DeviceTimeIsSteered_2 :
    Met (fun h : Obligations.DeviceTimeIsSteered => (h.1 (ns 7) (sync0 5)).1 _ (.tail _ (.tail _ (.tail _ (.tail _ (.head _)))))) (dev.updQy (fun q => { q with slave := some 0, tst := .free, good := 3 })) ∧
    Met (fun h : Obligations.DeviceTimeIsSteered => (h.1 (ns 7) (sync0 5)).2.2) (bare.updQy (fun q => { q with slave := some 2 })) ∧
    Met (fun h : Obligations.DeviceTimeIsSteered => (h.1 (ns 7) { sync0 5 with domain := 1 }).2.2) (bare.updQy (fun q => { q with slave := some 0 })) ∧
    Met (fun h : Obligations.DeviceTimeIsSteered => (h.1 (ns 7) (sync0 1000000900)).2.1 875000000 875000007) (bare.updQy (fun q => { q with slave := some 0, tst := .sync, lastGm := some (875000000, 875000007) })) ∧
    Met (fun h : Obligations.DeviceTimeIsSteered => (h.2 (ns 7)).1) (bare.updQy (fun q => { q with tst := .sync, lastSync := 625000007 })) ∧
    Met (fun h : Obligations.DeviceTimeIsSteered => (h.2 (ns 7)).2 (some 0)) (bare) :=
  ⟨(by decide +kernel),
    (by decide +kernel),
    (by decide +kernel),
    (by decide +kernel),
    (by decide +kernel),
    by decide +kernel⟩

theorem witness_DeviceTimeIsSteered_3 : Met (fun h : Obligations.DeviceTimeIsSteered => (h.2 (ns 7)).2 none) (bare) :=
  by decide +kernel

theorem witness_KeyAgreement :
    Met (fun h : Obligations.KeyAgreement => ((h (ns 7)).1 (mka0 true true)).1) (mkaDev) ∧
    Met (fun h : Obligations.KeyAgreement => ((h (ns 7)).1 (mka0 false true)).1) (mkaDev) ∧
    Met (fun h : Obligations.KeyAgreement => ((h (ns 7)).1 (mka0 true false)).2) (mkaDev) ∧
    Met (fun h : Obligations.KeyAgreement => ((h (ns 7)).1 (mka0 true true)).2) (dev) ∧
    Met (fun h : Obligations.KeyAgreement => ((h (ns 6000000000)).2 0).1) (mkaDev.updPort 0 (fun p => { p with mkaAt := some 1000000000 })) ∧
    Met (fun h : Obligations.KeyAgreement => ((h (ns 7)).2 0).2) (mkaDev) :=
  ⟨(by decide +kernel),
    (by decide +kernel),
    (by decide +kernel),
    (by decide +kernel),
    (by decide +kernel),
    by decide +kernel⟩

theorem witness_VideoPackets_1 :
    Met (fun h : Obligations.VideoPackets => (h (ns 7) { rvf0 with streamId := 9 }).1) (dev) ∧
    Met (fun h : Obligations.VideoPackets => ((h (ns 7) { rvf0 with lines := 17 }).2 stream3 (by decide)).1) (dev) ∧
    Met (fun h : Obligations.VideoPackets => ((h (ns 7) rvf0).2 { stream3 with port := 1 } (by decide)).2.1) (dev.updCfg (fun g => { g with applied := some { str0 with streams := [{ stream3 with port := 1 }] } })) ∧
    Met (fun h : Obligations.VideoPackets => ((h (ns 7) rvf0).2 stream3 (by decide)).2.2.1) ((dev.updStream 3 (fun q => { q with opened := some 999000000 }))) ∧
    Met (fun h : Obligations.VideoPackets => ((h (ns 7) rvf0).2 stream3 (by decide)).2.2.2.1) ((dev.updStream 3 (fun q => { q with opened := some 998000000 }))) ∧
    Met (fun h : Obligations.VideoPackets => ((h (ns 7) rvf0).2 stream3 (by decide)).2.2.2.1) (dev) :=
  ⟨(by decide +kernel),
    (by decide +kernel),
    (by decide +kernel),
    (by decide +kernel),
    (by decide +kernel),
    by decide +kernel⟩

theorem witness_VideoPackets_2 : Met (fun h : Obligations.VideoPackets => ((h (ns 7) rvf0).2 stream3 (by decide)).2.2.2.2) (dev.updStream 3 (fun q => { q with opened := some 999000000, cur := some { capture := 999000000, slot := 0, got := [0, 1], finalAt := none } })) :=
  by decide +kernel

theorem witness_FramesClose :
    Met (fun h : Obligations.FramesClose => h.1 (ns 7) 3 stream3 { capture := 999000000, slot := 0, got := [0, 1], finalAt := some 900000000 } (by decide) _ (.head _)) (dev.updStream 3 (fun q => { q with opened := some 999000000, cur := some { capture := 999000000, slot := 0, got := [0, 1], finalAt := some 900000000 } })) ∧
    Met (fun h : Obligations.FramesClose => h.1 (ns 7) 3 stream3 { capture := 980000000, slot := 0, got := [0, 1], finalAt := none } (by decide) _ (.tail _ (.head _))) (dev.updStream 3 (fun q => { q with opened := some 980000000, cur := some { capture := 980000000, slot := 0, got := [0, 1], finalAt := none } })) ∧
    Met (fun h : Obligations.FramesClose => (h.2.1 (ns 7) 3 [] stream3 { stream := 3, frame := frame0, entry := 0 } (by decide)).1) ((dev.updQy (fun q => { q with copies := [{ stream := 3, frame := frame0, entry := 0 }] })).updStream 3 (fun q => { q with evNext := 1, frames := [{ frame0 with evidDone := false }] })) ∧
    Met (fun h : Obligations.FramesClose => (h.2.1 (ns 7) 3 [.word 0 false] stream3 { stream := 3, frame := frame0, entry := 0 } (by decide)).1) ((dev.updQy (fun q => { q with copies := [{ stream := 3, frame := frame0, entry := 0 }] })).updStream 3 (fun q => { q with evNext := 1, frames := [{ frame0 with evidDone := false }] })) ∧
    Met (fun h : Obligations.FramesClose => (h.2.1 (ns 7) 3 [] stream3 { stream := 3, frame := frame0, entry := 0 } (by decide)).2) ((dev.updQy (fun q => { q with copies := [{ stream := 3, frame := frame0, entry := 0 }] })).updStream 3 (fun q => { q with evNext := 1, frames := [{ frame0 with evidDone := false }] })) :=
  ⟨(by decide +kernel),
    (by decide +kernel),
    (by decide +kernel),
    (by decide +kernel),
    by decide +kernel⟩

theorem witness_EngineJobsRun_1 :
    Met (fun h : Obligations.EngineJobsRun => ((h.1 (ns 7) job0 stream3).1 _ (.head _)).1) (engines false) ∧
    Met (fun h : Obligations.EngineJobsRun => ((h.1 (ns 7) job0 stream3).1 _ (.tail _ (.tail _ (.head _)))).1) (engines false) ∧
    Met (fun h : Obligations.EngineJobsRun => ((h.1 (ns 7) { job0 with frame := { frame0 with closeIdx := 1 } } stream3).1 _ (.head _)).2.1 rfl) (dev.updMe (fun m => { m with eng := { q := [{ job0 with frame := { frame0 with closeIdx := 1 } }] }, written := [{ stream := 3, closeIdx := 0, at_ := 900000000 }] })) ∧
    Met (fun h : Obligations.EngineJobsRun => ((h.1 (ns 7) job0 stream3).1 _ (.head _)).2.2) (engines false) ∧
    Met (fun h : Obligations.EngineJobsRun => (h.1 (ns 7) job0 stream3).2.1) (engines false) ∧
    Met (fun h : Obligations.EngineJobsRun => (h.1 (ns 7) job0 stream3).2.2) (engines false) :=
  ⟨(by decide +kernel),
    (by decide +kernel),
    (by decide +kernel),
    (by decide +kernel),
    (by decide +kernel),
    by decide +kernel⟩

theorem witness_EngineJobsRun_2 :
    Met (fun h : Obligations.EngineJobsRun => (h.2 (ns 7) job0 stream3).1) (engines true) ∧
    Met (fun h : Obligations.EngineJobsRun => (h.2 (ns 7) job0 stream3).2.1) (engines true) ∧
    Met (fun h : Obligations.EngineJobsRun => ((h.2 (ns 40000000) job0 stream3).2.2 3 frame0).1) ((engines false).updSd (fun m => { m with eng := {}, await := [(3, 0)] })) :=
  ⟨(by decide +kernel),
    (by decide +kernel),
    by decide +kernel⟩

theorem witness_ComputeDescriptorsRun_1 :
    Met (fun h : Obligations.ComputeDescriptorsRun => ((h (ns 7) 1 [] (curOf (descOf 1 0 0 0 []) 1) (by decide)).1 _ (.head _)).1) (runs (curOf (descOf 1 0 0 0 []) 1)) ∧
    Met (fun h : Obligations.ComputeDescriptorsRun => ((h (ns 7) 1 [] (curOf (descOf 1 0 0 0 []) 0) (by decide)).1 _ (.head _)).2.1) (runs (curOf (descOf 1 0 0 0 []) 0)) ∧
    Met (fun h : Obligations.ComputeDescriptorsRun => ((h (ns 7) 1 [] (curOf (descOf 3 0 0 0 []) 0) (by decide)).1 (3, .deconv (ns 7) 1 []) (by simp)).2.1) (runs (curOf (descOf 3 0 0 0 []) 0)) ∧
    Met (fun h : Obligations.ComputeDescriptorsRun => ((h (ns 7) 1 [] (curOf (descOf 10 0 0 0 []) 0) (by decide)).1 (10, .copy (ns 7) 1 []) (by simp)).2.1) (runs (curOf (descOf 10 0 0 0 []) 0)) ∧
    Met (fun h : Obligations.ComputeDescriptorsRun => ((h (ns 7) 1 [] vecBad (by decide)).1 (6, .vector (ns 7) 1 []) (by simp)).2.2.1) (runs vecBad) ∧
    Met (fun h : Obligations.ComputeDescriptorsRun => ((h (ns 7) 1 [] vec0 (by decide)).1 (6, .vector (ns 7) 1 []) (by simp)).2.2.2) (runs vec0) :=
  ⟨(by decide +kernel),
    (by decide +kernel),
    (by decide +kernel),
    (by decide +kernel),
    (by decide +kernel),
    by decide +kernel⟩

theorem witness_ComputeDescriptorsRun_2 :
    Met (fun h : Obligations.ComputeDescriptorsRun => (h (ns 7) 1 [] copy0 (by decide)).2.1) ((runs copy0).updPeer 254 (fun p => { p with mac := 0xBB, ctl := 0x80000000, present := true })) ∧
    Met (fun h : Obligations.ComputeDescriptorsRun => (h (ns 7) 1 [] copy0 (by decide)).2.2) (runs copy0) :=
  ⟨(by decide +kernel),
    by decide +kernel⟩

theorem witness_WaitsRegisterAndEnd_1 :
    Met (fun h : Obligations.WaitsRegisterAndEnd => (h.1 (ns 7) 1 (wait0 4 1 0) 4 1 0 (by decide) (by decide) (by decide) (by decide) (by decide) (by decide)).1) (runs (wait0 4 1 0)) ∧
    Met (fun h : Obligations.WaitsRegisterAndEnd => (h.1 (ns 7) 1 (wait0 5 0 0) 5 0 0 (by decide) (by decide) (by decide) (by decide) (by decide) (by decide)).2.1) (runs (wait0 5 0 0)) ∧
    Met (fun h : Obligations.WaitsRegisterAndEnd => (h.1 (ns 7) 1 (wait0 5 3 0) 5 3 0 (by decide) (by decide) (by decide) (by decide) (by decide) (by decide)).2.2.1) (runs (wait0 5 3 0)) ∧
    Met (fun h : Obligations.WaitsRegisterAndEnd => (h.1 (ns 7) 1 (wait0 5 4 0) 5 4 0 (by decide) (by decide) (by decide) (by decide) (by decide) (by decide)).2.2.2.1) (runs (wait0 5 4 0)) ∧
    Met (fun h : Obligations.WaitsRegisterAndEnd => (h.1 (ns 7) 1 (wait0 5 4 9) 5 4 9 (by decide) (by decide) (by decide) (by decide) (by decide) (by decide)).2.2.2.2) (runs (wait0 5 4 9)) ∧
    Met (fun h : Obligations.WaitsRegisterAndEnd => (h.2.2 (ns 7) 1 0 5 (waiter0 true) (wait0 5 3 0).d (by decide)).1) ((((runs (wait0 5 3 0)).updArr 1 (fun r => { r with st := .wait, cur := none, lcq := [(wait0 5 3 0).d] }))).updSy (fun y => { y with waiters := [waiter0 true] })) :=
  ⟨(by decide +kernel),
    (by decide +kernel),
    (by decide +kernel),
    (by decide +kernel),
    (by decide +kernel),
    by decide +kernel⟩

theorem witness_WaitsRegisterAndEnd_2 : Met (fun h : Obligations.WaitsRegisterAndEnd => (h.2.2 (ns 7) 1 0 5 (waiter0 false) (wait0 5 3 0).d (by decide)).2) ((((runs (wait0 5 3 0)).updArr 1 (fun r => { r with st := .wait, cur := none, lcq := [(wait0 5 3 0).d] }))).updSy (fun y => { y with waiters := [waiter0 false] })) :=
  by decide +kernel

theorem witness_SignalDescriptors_1 :
    Met (fun h : Obligations.SignalDescriptors => (h (ns 7) 1 (signal0 7 1 255) 7 1 255 (by decide) (by decide) (by decide) (by decide) (by decide)).1) (runs (signal0 7 1 255)) ∧
    Met (fun h : Obligations.SignalDescriptors => (h (ns 7) 1 (signal0 6 1 255) 6 1 255 (by decide) (by decide) (by decide) (by decide) (by decide)).1) (runs (signal0 6 1 255)) ∧
    Met (fun h : Obligations.SignalDescriptors => (h (ns 7) 1 (signal0 4 9 255) 4 9 255 (by decide) (by decide) (by decide) (by decide) (by decide)).2.1) (runs (signal0 4 9 255)) ∧
    Met (fun h : Obligations.SignalDescriptors => (h (ns 7) 1 (signal0 4 9 255) 4 9 255 (by decide) (by decide) (by decide) (by decide) (by decide)).2.2.1) ((runs (signal0 4 9 255)).updTt (fun t => { t with steps := [{ step0 with sigs := [0] }] })) ∧
    Met (fun h : Obligations.SignalDescriptors => (h (ns 7) 1 (signal0 4 9 254) 4 9 254 (by decide) (by decide) (by decide) (by decide) (by decide)).2.2.2.1) ((runs (signal0 4 9 254)).updPeer 254 (fun p => { p with mac := 0xBB, ctl := 0x80000000, present := true })) ∧
    Met (fun h : Obligations.SignalDescriptors => (h (ns 7) 1 (signal0 4 9 254) 4 9 254 (by decide) (by decide) (by decide) (by decide) (by decide)).2.2.2.2.2.1) (runs (signal0 4 9 254)) :=
  ⟨(by decide +kernel),
    (by decide +kernel),
    (by decide +kernel),
    (by decide +kernel),
    (by decide +kernel),
    by decide +kernel⟩

theorem witness_SignalDescriptors_2 :
    Met (fun h : Obligations.SignalDescriptors => (h (ns 7) 1 (signal0 4 0 254) 4 0 254 (by decide) (by decide) (by decide) (by decide) (by decide)).2.2.2.2.1) (runs (signal0 4 0 254)) ∧
    Met (fun h : Obligations.SignalDescriptors => (h (ns 7) 1 (curOf (descOf 13 0 0 0 []) 0) 0 0 0 (by decide) (by decide) (by decide) (by decide) (by decide)).2.2.2.2.2.2) (runs (curOf (descOf 13 0 0 0 []) 0)) :=
  ⟨(by decide +kernel),
    by decide +kernel⟩

theorem witness_DescriptorsAndStepsEnd_1 :
    Met (fun h : Obligations.DescriptorsAndStepsEnd => (h.1 (ns 7) 1 { vec0 with executed := true } (by decide)).1) (runs { vec0 with executed := true }) ∧
    Met (fun h : Obligations.DescriptorsAndStepsEnd => (h.2 (ns 7) 0x10 { step0 with replay := some { code := 6, array := 1, opcode := 6 }, runs := 2 } { code := 6, array := 1, opcode := 6 }).1) (dev.updTt (fun t => { t with steps := [{ step0 with replay := some { code := 6, array := 1, opcode := 6 }, runs := 2 }] })) ∧
    Met (fun h : Obligations.DescriptorsAndStepsEnd => (h.2 (ns 7) 0x10 { step0 with replay := some { code := 6, array := 1, opcode := 6 }, runs := 3 } { code := 6, array := 1, opcode := 6 }).2.1) (dev.updTt (fun t => { t with steps := [{ step0 with replay := some { code := 6, array := 1, opcode := 6 }, runs := 3 }] })) ∧
    Met (fun h : Obligations.DescriptorsAndStepsEnd => (h.2 (ns 7) 0x10 { step0 with replay := some { code := 7, addr := 5, basin := true }, runs := 3 } { code := 7, addr := 5, basin := true }).2.2) (dev.updTt (fun t => { t with steps := [{ step0 with replay := some { code := 7, addr := 5, basin := true }, runs := 3 }] })) ∧
    Met (fun h : Obligations.DescriptorsAndStepsEnd => ((h.1 (ns 7) 1 vec0 (by decide)).2.1 1).1) ((runs vec0).updArr 1 (fun r => { r with st := .save })) ∧
    Met (fun h : Obligations.DescriptorsAndStepsEnd => ((h.1 (ns 7) 1 vec0 (by decide)).2.1 1).2) ((runs vec0).updArr 1 (fun r => { r with st := .save, cur := none })) :=
  ⟨(by decide +kernel),
    (by decide +kernel),
    (by decide +kernel),
    (by decide +kernel),
    (by decide +kernel),
    by decide +kernel⟩

theorem witness_DescriptorsAndStepsEnd_2 :
    Met (fun h : Obligations.DescriptorsAndStepsEnd => (h.1 (ns 7) 1 vec0 (by decide)).2.2.1) ((runs vec0).updArr 1 (fun r => { r with st := .restore, cur := none, transfer := some vec0, saved := [vec0] })) ∧
    Met (fun h : Obligations.DescriptorsAndStepsEnd => (h.1 (ns 7) 1 vec0 (by decide)).2.2.2) ((runs vec0).updArr 1 (fun r => { r with st := .restore, cur := none, transfer := some vec0 })) :=
  ⟨(by decide +kernel),
    by decide +kernel⟩

theorem witness_BoundariesStartTheCycle :
    Met (fun h : Obligations.BoundariesStartTheCycle => (h (ns 100000) false).1) (dev) ∧
    Met (fun h : Obligations.BoundariesStartTheCycle => (h (ns 100000) false).2) (dev.updCtx 2 (fun k => { k with st := .restarting })) :=
  ⟨(by decide +kernel),
    by decide +kernel⟩

theorem witness_TideEntriesIssue_1 :
    Met (fun h : Obligations.TideEntriesIssue => (h.1 (ns 7) 0 (tideN 0)).1 _ (.tail _ (.tail _ (.tail _ (.head _))))) (tideAt 0) ∧
    Met (fun h : Obligations.TideEntriesIssue => (h.1 (ns 7) 1 (tideN 1)).1 _ (.tail _ (.tail _ (.head _)))) (tideAt 1) ∧
    Met (fun h : Obligations.TideEntriesIssue => (h.1 (ns 7) 2 (tideN 2)).1 _ (.head _)) (tideAt 2) ∧
    Met (fun h : Obligations.TideEntriesIssue => (h.1 (ns 7) 3 (tideN 3)).1 _ (.tail _ (.head _))) (tideAt 3) ∧
    Met (fun h : Obligations.TideEntriesIssue => (h.1 (ns 7) 1 (tideN 1)).2.1) ((tideAt 1).updTt (fun t => { t with steps := [step0] })) ∧
    Met (fun h : Obligations.TideEntriesIssue => (h.1 (ns 7) 1 (tideN 1)).2.2.1) (tideAt 1) :=
  ⟨(by decide +kernel),
    (by decide +kernel),
    (by decide +kernel),
    (by decide +kernel),
    ⟨rfl, by decide +kernel, step0, List.mem_singleton.mpr rfl, rfl, 0, rfl⟩,
    ⟨rfl, by decide +kernel, by decide +kernel, fun _ hs => nomatch hs⟩⟩

theorem witness_TideEntriesIssue_2 :
    Met (fun h : Obligations.TideEntriesIssue => ((h.1 (ns 7) 2 (tideN 2)).2.2.2 stream3 (0, 900000000) 9 period0 []).1) (modeAt 2 false { ref := some (0, 900000000) }) ∧
    Met (fun h : Obligations.TideEntriesIssue => ((h.1 (ns 7) 3 (tideN 3)).2.2.2 stream3 (0, 900000000) 9 period0 []).2.2.1) (modeAt 3 true { periods := [period0] }) ∧
    Met (fun h : Obligations.TideEntriesIssue => ((h.1 (ns 7) 3 (tideN 3)).2.2.2 stream3 (0, 900000000) 9 period0 []).2.2.2) (modeAt 3 true {}) ∧
    Met (fun h : Obligations.TideEntriesIssue => h.2 (ns 7) 2 (tideN 2) (by decide) _ (.head _)) (dev) ∧
    Met (fun h : Obligations.TideEntriesIssue => h.2 (ns 7) 3 (tideN 3) (by decide) _ (.tail _ (.head _))) (dev) ∧
    Met (fun h : Obligations.TideEntriesIssue => h.2 (ns 7) 1 (tideN 1) (by decide) _ (.tail _ (.tail _ (.head _)))) (dev) :=
  ⟨(by decide +kernel),
    (by decide +kernel),
    (by decide +kernel),
    (by decide +kernel),
    (by decide +kernel),
    by decide +kernel⟩

theorem witness_TideEntriesIssue_3 : Met (fun h : Obligations.TideEntriesIssue => h.2 (ns 7) 0 (tideN 0) (by decide) _ (.tail _ (.tail _ (.tail _ (.head _))))) (dev) :=
  by decide +kernel

theorem witness_KernelsArePlacedAndSwapped_1 :
    Met (fun h : Obligations.KernelsArePlacedAndSwapped => (h.1 (ns 7)).1 0x10 step0 900000000) (dev.updTt (fun t => { t with steps := [step0] })) ∧
    Met (fun h : Obligations.KernelsArePlacedAndSwapped => (h.1 (ns 7)).2 3 (by decide)) (bare) ∧
    Met (fun h : Obligations.KernelsArePlacedAndSwapped => h.2.1.1 (ns 7) 0 kernel0 0) (dev.updTt (fun t => { t with steps := [step0], waiting := [kernel0] })) ∧
    Met (fun h : Obligations.KernelsArePlacedAndSwapped => ((h.2.2 (ns 7) 1 1 (by decide) (by decide)).1 rfl).1) (transfer 1 .swapOut) ∧
    Met (fun h : Obligations.KernelsArePlacedAndSwapped => (h.2.2 (ns 7) 1 1 (by decide) (by decide)).2.1) (transfer 2 .swapIn) ∧
    Met (fun h : Obligations.KernelsArePlacedAndSwapped => (h.2.2 (ns 7) 1 1 (by decide) (by decide)).2.2.2.1) (dev.updCtx 2 (fun k => { k with runnableAt := some 5 })) :=
  ⟨(by decide +kernel),
    (by decide +kernel),
    (by decide +kernel),
    (by decide +kernel),
    (by decide +kernel),
    by decide +kernel⟩

theorem witness_KernelsArePlacedAndSwapped_2 :
    Met (fun h : Obligations.KernelsArePlacedAndSwapped => (h.2.2 (ns 7) 1 1 (by decide) (by decide)).2.2.2.2) (dev.updCtx 1 (fun k => { k with progressed := false })) ∧
    Met (fun h : Obligations.KernelsArePlacedAndSwapped => ((h.2.2 (ns 7) 1 1 (by decide) (by decide)).1 rfl).2) (((transfer 1 .faulted).updCtx 1 (fun k => { k with berth := none })).updBerth 1 (fun b => { b with occ := some 1 })) ∧
    Met (fun h : Obligations.KernelsArePlacedAndSwapped => (h.2.2 (ns 7) 1 1 (by decide) (by decide)).2.2.1) ((transfer 2 .swapIn).updCtx 1 (fun k => { k with fresh := false })) :=
  ⟨(by decide +kernel),
    (by decide +kernel),
    by decide +kernel⟩

theorem witness_FrameStepsBindAndPack_1 :
    Met (fun h : Obligations.FrameStepsBindAndPack => (h.1 (ns 7) 0x10 (frameStep 1) 3 false 9).1) (frameReady 1) ∧
    Met (fun h : Obligations.FrameStepsBindAndPack => (h.1 (ns 7) 0x10 (frameStep 2) 3 false 9).2 64) (frameReady 2) ∧
    Met (fun h : Obligations.FrameStepsBindAndPack => (h.2.1 (ns 7) 3 stream3 0 (0, 900000000) (by decide) rfl).1) (modeAt 2 false { ref := some (0, 900000000) }) ∧
    Met (fun h : Obligations.FrameStepsBindAndPack => (h.2.1 (ns 7) 3 stream3 0 (0, 900000000) (by decide) rfl).2.2) (modeAt 2 false { ref := some (0, 900000000), src := some (0, 0) }) ∧
    Met (fun h : Obligations.FrameStepsBindAndPack => (h.2.2 (ns 7) 0x10 pack0 stream3).1 rfl) (dev.updFg (fun f => { f with packs := [pack0] })) ∧
    Met (fun h : Obligations.FrameStepsBindAndPack => (h.2.2 { ns := 7, fails := [.word 64 false] } 0x10 pack0 stream3).2 64 rfl) (dev.updFg (fun f => { f with packs := [pack0] })) :=
  ⟨(by decide +kernel),
    (by decide +kernel),
    (by decide +kernel),
    (by decide +kernel),
    (by decide +kernel),
    by decide +kernel⟩

theorem witness_FrameStepsBindAndPack_2 : Met (fun h : Obligations.FrameStepsBindAndPack => (h.2.1 (ns 7) 3 stream3 2 (0, 900000000) (by decide) rfl).2.1) ((modeAt 2 false { ref := some (0, 900000000), src := some (0, 0), next := 2, lastJ := some 1 }).updTt (fun t => { t with degraded := [3] })) :=
  by decide +kernel

theorem witness_ServingStepsIssue_1 :
    Met (fun h : Obligations.ServingStepsIssue => (h.1 (ns 7) query0 [] hdr0).1) (dev.updSv (fun v => { v with queue := [query0] })) ∧
    Met (fun h : Obligations.ServingStepsIssue => (h.1 (ns 7) query0 [] hdr0).2.2.2.1) (dev.updSv (fun v => { v with queue := [query0], seqs := [seq0, { seq0 with entry := 1 }, { seq0 with entry := 2 }, { seq0 with entry := 3 }] })) ∧
    Met (fun h : Obligations.ServingStepsIssue => (h.1 (ns 7) query0 [] hdr0).2.2.2.2) (dev.updSv (fun v => { v with queue := [query0], seqs := [{ seq0 with reserved := 1000 }] })) ∧
    Met (fun h : Obligations.ServingStepsIssue => (h.2 (ns 7) 1 hdr0).1) (dev.updSv (fun v => { v with seqs := [{ seq0 with blocks := [0] }] })) ∧
    Met (fun h : Obligations.ServingStepsIssue => ((h.2 (ns 7) 1 hdr0).2.2.2 seqV clipFrame0).1) (visionDev 7) ∧
    Met (fun h : Obligations.ServingStepsIssue => ((h.2 (ns 7) 1 hdr0).2.2.2 seqV clipFrame0).2) (visionDev 8) :=
  ⟨(by decide +kernel),
    (by decide +kernel),
    (by decide +kernel),
    (by decide +kernel),
    (by decide +kernel),
    by decide +kernel⟩

theorem witness_ServingStepsIssue_2 :
    Met (fun h : Obligations.ServingStepsIssue => (h.2 (ns 7) 1 hdr0).2.1) (dev.updSv (fun v => { v with seqs := [seq0] })) ∧
    Met (fun h : Obligations.ServingStepsIssue => (h.1 (ns 7) { query0 with tokens := [0xFFFFFF05] } [] hdr0).2.1 []) (dev.updSv (fun v => { v with queue := [{ query0 with tokens := [0xFFFFFF05] }] })) ∧
    Met (fun h : Obligations.ServingStepsIssue => (h.1 (ns 7) seqV.q [] hdr0).2.2.1 3) ((visionDev 7).updSv (fun v => { v with seqs := [], queue := [seqV.q] })) :=
  ⟨(by decide +kernel),
    ⟨rfl, (by decide +kernel), (by decide +kernel), (by decide +kernel), (by decide +kernel), (by decide +kernel), (by decide +kernel), (by decide +kernel), rfl⟩,
    ⟨rfl, (by decide +kernel), (by decide +kernel), (by decide +kernel), (by decide +kernel), (by decide +kernel), (by decide +kernel), (by decide +kernel), rfl⟩⟩

theorem witness_MemoryIsMaintained_1 :
    Met (fun h : Obligations.MemoryIsMaintained => (h.1 (ns 7)).1) (bare) ∧
    Met (fun h : Obligations.MemoryIsMaintained => ((h.1 (ns 7)).2.1 0x1000010 (by decide)).1) (bare) ∧
    Met (fun h : Obligations.MemoryIsMaintained => ((h.1 (ns 7)).2.1 0x1000010 (by decide)).2) (bare) ∧
    Met (fun h : Obligations.MemoryIsMaintained => (h.1 (ns 7)).2.2 15 5 (by decide)) (bare.updChan 15 (fun c => { c with scrubSlot := 5 })) ∧
    Met (fun h : Obligations.MemoryIsMaintained => (h.1 (ns 7)).2.2 15 1791 (by decide)) (bare.updChan 15 (fun c => { c with scrubSlot := 1791 })) ∧
    Met (fun h : Obligations.MemoryIsMaintained => (h.2 (ns 7) 15 (by decide)).1 4 true (by decide)) (bare) :=
  ⟨(by decide +kernel),
    (by decide +kernel),
    (by decide +kernel),
    (by decide +kernel),
    (by decide +kernel),
    by decide +kernel⟩

theorem witness_MemoryIsMaintained_2 :
    Met (fun h : Obligations.MemoryIsMaintained => (h.2 (ns 7) 15 (by decide)).2.1 5 (by decide)) (bare) ∧
    Met (fun h : Obligations.MemoryIsMaintained => (h.2 (ns 7) 15 (by decide)).2.2.1 5 (by decide)) (bare.updChan 15 (fun c => { c with retrainFails := 2 })) ∧
    Met (fun h : Obligations.MemoryIsMaintained => (h.2 (ns 7) 15 (by decide)).2.2.2.1 3) (bare) ∧
    Met (fun h : Obligations.MemoryIsMaintained => (h.2 (ns 7) 15 (by decide)).2.2.2.2 _ (.head _)) (bare) ∧
    Met (fun h : Obligations.MemoryIsMaintained => (h.2 (ns 7) 15 (by decide)).2.2.2.2 _ (.tail _ (.head _))) (bare) ∧
    Met (fun h : Obligations.MemoryIsMaintained => (h.2 (ns 7) 15 (by decide)).2.2.2.2 _ (.tail _ (.tail _ (.head _)))) (bare.updChan 15 (fun c => { c with power := .selfRefresh })) :=
  ⟨(by decide +kernel),
    (by decide +kernel),
    (by decide +kernel),
    (by decide +kernel),
    (by decide +kernel),
    by decide +kernel⟩

theorem witness_OutputsShowTheLatestSlot :
    Met (fun h : Obligations.OutputsShowTheLatestSlot => (h.2 (ns 7) 1 out1).1 [(0, 0, 64)]) (outDev .active (some 0)) ∧
    Met (fun h : Obligations.OutputsShowTheLatestSlot => (h.2 (ns 7) 1 out1).1 [(0, 0, 64)]) (outDev .active none) ∧
    Met (fun h : Obligations.OutputsShowTheLatestSlot => (((h.2 (ns 7) 1 out1).2 2 (by decide)).1 9 rfl).1) (slotDev 9) ∧
    Met (fun h : Obligations.OutputsShowTheLatestSlot => (((h.2 (ns 7) 1 out1).2 2 (by decide)).1 8 rfl).2) (slotDev 8) ∧
    Met (fun h : Obligations.OutputsShowTheLatestSlot => ((h.2 (ns 7) 1 out1).2 2 (by decide)).2) ((slotDev 9).updWin 2 (fun w => { w with inst := none })) :=
  ⟨(by decide +kernel),
    (by decide +kernel),
    (by decide +kernel),
    (by decide +kernel),
    by decide +kernel⟩

theorem witness_OutputsTrain_1 :
    Met (fun h : Obligations.OutputsTrain => (h (ns 7) 1 (by decide)).1) (outDev .waitHpd none) ∧
    Met (fun h : Obligations.OutputsTrain => (h (ns 7) 1 (by decide)).1) (outDev .off none) ∧
    Met (fun h : Obligations.OutputsTrain => (h (ns 7) 1 (by decide)).2.1) ((outDev .active none).updOut 1 (fun o => { o with hpd := true })) ∧
    Met (fun h : Obligations.OutputsTrain => (h (ns 7) 1 (by decide)).2.2.1) (outDev .active none) ∧
    Met (fun h : Obligations.OutputsTrain => (h (ns 7) 1 (by decide)).2.2.2.1) (outDev .active none) ∧
    Met (fun h : Obligations.OutputsTrain => (h (ns 7) 1 (by decide)).2.2.2.2.1) (outDev .training none) :=
  ⟨(by decide +kernel),
    (by decide +kernel),
    (by decide +kernel),
    (by decide +kernel),
    (by decide +kernel),
    by decide +kernel⟩

theorem witness_OutputsTrain_2 : Met (fun h : Obligations.OutputsTrain => (h (ns 7) 1 (by decide)).2.2.2.2.2) (outDev .training none) :=
  by decide +kernel

theorem witness_HeartbeatsKeepPeers_1 :
    Met (fun h : Obligations.HeartbeatsKeepPeers => (h.1 (ns 0)).1) (peer3) ∧
    Met (fun h : Obligations.HeartbeatsKeepPeers => (h.1 (ns 7)).2 (pwp 0 0 0 0 0 0 0 []) 3) (peer3) ∧
    Met (fun h : Obligations.HeartbeatsKeepPeers => h.2 (ns 7) { pwp 0 0 0 0 0 0 0 [] with version := 2 } _ (.head _)) (peer3) ∧
    Met (fun h : Obligations.HeartbeatsKeepPeers => h.2 (ns 7) (pwp 5 0 0 0 0 0 0 []) _ (.tail _ (.head _))) (peer3) ∧
    Met (fun h : Obligations.HeartbeatsKeepPeers => h.2 (ns 7) (pwp 5 0 0 0 0 0 0 []) _ (.tail _ (.tail _ (.head _)))) (peer3) ∧
    Met (fun h : Obligations.HeartbeatsKeepPeers => h.2 (ns 7) (pwp 5 0 0 0 0 0 0 []) _ (.tail _ (.tail _ (.tail _ (.head _))))) (peer3) :=
  ⟨(by decide +kernel),
    (by decide +kernel),
    (by decide +kernel),
    (by decide +kernel),
    (by decide +kernel),
    by decide +kernel⟩

theorem witness_HeartbeatsKeepPeers_2 : Met (fun h : Obligations.HeartbeatsKeepPeers => h.2 (ns 7) (pwp 5 0 0 0 0 0 0 []) _ (.tail _ (.tail _ (.tail _ (.tail _ (.head _)))))) (peer3) :=
  by decide +kernel

theorem witness_PeersAreServed_1 :
    Met (fun h : Obligations.PeersAreServed => (h.1 (ns 7) (pwp 1 0 1 0 0 0 0 []) 3).1 1 []) (peer3) ∧
    Met (fun h : Obligations.PeersAreServed => (h.1 (ns 7) (pwp 1 0 1 0 0 4097 0 []) 3).1 1 []) (peer3) ∧
    Met (fun h : Obligations.PeersAreServed => (h.1 (ns 7) (pwp 1 0 1 0 96 4000 0 []) 3).2 (50 * 2 ^ 20 + 96)) (peer3) ∧
    Met (fun h : Obligations.PeersAreServed => (h.2 (ns 7) (pwp 3 0 1 5 9 0 0 []) 3 (by decide)).1) (peer3) ∧
    Met (fun h : Obligations.PeersAreServed => (h.2 (ns 7) (pwp 3 0 1 5 9 0 0 []) 3 (by decide)).2.1) (peer3.updPeer 3 (fun p => { p with applied := [(1, 0)] })) ∧
    Met (fun h : Obligations.PeersAreServed => (h.2 (ns 7) (pwp 3 0 1 4 9 0 0 []) 3 (by decide)).2.2) (peer3) :=
  ⟨(by decide +kernel),
    (by decide +kernel),
    (by decide +kernel),
    (by decide +kernel),
    (by decide +kernel),
    by decide +kernel⟩

theorem witness_PeersAreServed_2 : Met (fun h : Obligations.PeersAreServed => (h.2 (ns 7) (pwp 3 0 1 4095 9 0 0 []) 3 (by decide)).2.2) (peer3) :=
  by decide +kernel

theorem witness_PeerRequestsEnd :
    Met (fun h : Obligations.PeerRequestsEnd => ((h (ns 7) (ask0 false 999999000)).1 (pwp 2 0 0x77 0 0 0 4 [1, 2, 3, 4])).1) (asked false 999999000) ∧
    Met (fun h : Obligations.PeerRequestsEnd => ((h (ns 7) (ask0 false 999999000)).1 (pwp 2 1 0x77 0 0 0 0 [])).2.1) (asked false 999999000) ∧
    Met (fun h : Obligations.PeerRequestsEnd => ((h (ns 7) (ask0 true 999999000)).1 (pwp 4 0 0x77 0 0 0 0 [])).2.2.1) (asked true 999999000) ∧
    Met (fun h : Obligations.PeerRequestsEnd => ((h (ns 7) (ask0 true 999999000)).1 (pwp 4 3 0x77 0 0 0 0 [])).2.2.2) (asked true 999999000) ∧
    Met (fun h : Obligations.PeerRequestsEnd => ((h (ns 7) (ask0 true 900000000)).2 0x77).1) (asked true 900000000) ∧
    Met (fun h : Obligations.PeerRequestsEnd => ((h (ns 7) (ask0 true 998000000)).2 0x77).2) (asked true 998000000) :=
  ⟨(by decide +kernel),
    (by decide +kernel),
    (by decide +kernel),
    (by decide +kernel),
    (by decide +kernel),
    by decide +kernel⟩

theorem witness_TheBootRomStartsFirmware :
    MetState (fun h : Obligations.TheBootRomStartsFirmware => (h (ns 7) false []).2.1 1) (at_ romDev) ∧
    MetState (fun h : Obligations.TheBootRomStartsFirmware => (h (ns 7) false []).2.2.1) (at_ romDev) ∧
    Met (fun h : Obligations.TheBootRomStartsFirmware => (h (ns 7) false []).2.2.2) (bare.updId (fun d => { d with idSeed := some 5 })) :=
  ⟨(by decide +kernel),
    (by decide +kernel),
    by decide +kernel⟩

theorem witness_UpdatesReachTheFlash :
    MetState (fun h : Obligations.UpdatesReachTheFlash => (h (ns 7)).1 2) (at_ (dev.updHm (fun h => { h with upd := .verifying, updLen := 784 }))) ∧
    MetState (fun h : Obligations.UpdatesReachTheFlash => (h (ns 7)).2.2.2.1) (at_ (dev.updHm (fun h => { h with upd := .rewriting, updImage := [1, 2], updEpoch := 70 }))) ∧
    MetState (fun h : Obligations.UpdatesReachTheFlash => (h (ns 7)).2.2.2.2) (at_ (dev.updHm (fun h => { h with upd := .rewriting, updImage := [1, 2], updEpoch := 70 }))) :=
  ⟨(by decide +kernel),
    (by decide +kernel),
    by decide +kernel⟩

theorem witness_TheRandomSourceAndDebugUnlock :
    Met (fun h : Obligations.TheRandomSourceAndDebugUnlock => (h (ns 7)).1) (bare) ∧
    MetState (fun h : Obligations.TheRandomSourceAndDebugUnlock => (h (ns 7)).2.1) (at_ (((bare.updHm (fun h => { h with rngOk := false })).updPl (fun p => { p with hellos := [({ op := .hello, f := qcp 0 [] }, 999999000)] })).updCfg (fun g => { g with applied := some str0 }))) :=
  ⟨(by decide +kernel),
    by decide +kernel⟩

theorem witness_TheLedgerIsChained_1 :
    Met (fun h : Obligations.TheLedgerIsChained => (h.2 (ns 0)).1) (dev) ∧
    Met (fun h : Obligations.TheLedgerIsChained => (h.2 (ns 0)).2.1) (dev.updHm (fun h => { h with debug := true })) ∧
    Met (fun h : Obligations.TheLedgerIsChained => ((h.2 (ns 7)).2.2 ckpt0 [] region1).1 false) (signing false) ∧
    Met (fun h : Obligations.TheLedgerIsChained => ((h.2 (ns 7)).2.2 ckpt0 [] region1).1 true) (signing false) ∧
    Met (fun h : Obligations.TheLedgerIsChained => ((h.2 (ns 7)).2.2 ckpt0 [] region1).2.1) (signing true) ∧
    Met (fun h : Obligations.TheLedgerIsChained => ((h.2 (ns 7)).2.2 ckpt0 [] region1).2.2.1 rfl) (signing false) :=
  ⟨(by decide +kernel),
    (by decide +kernel),
    (by decide +kernel),
    (by decide +kernel),
    (by decide +kernel),
    by decide +kernel⟩

theorem witness_TheLedgerIsChained_2 : Met (fun h : Obligations.TheLedgerIsChained => ((h.2 (ns 7)).2.2 ckpt0 [] region1).2.2.2 rfl) (signing false) :=
  by decide +kernel

theorem witness_OperatingPointsMove_1 :
    Met (fun h : Obligations.OperatingPointsMove => (h.1 (ns 7)).1) (pmDev (fun p => { p with cur := 3 })) ∧
    Met (fun h : Obligations.OperatingPointsMove => (h.1 (ns 7)).2.1) (pmDev (fun p => { p with cur := 3 })) ∧
    Met (fun h : Obligations.OperatingPointsMove => (h.1 (ns 7)).2.2.1) (pmDev (fun p => { p with opReq := 2 })) ∧
    Met (fun h : Obligations.OperatingPointsMove => (h.1 (ns 7)).2.2.2.1) (pmDev (fun p => { p with opReq := 2 })) ∧
    Met (fun h : Obligations.OperatingPointsMove => ((h.1 (ns 7)).2.2.2.2.1 0 true).1) (pmDev (fun p => { p with cur := 3, move := some (.raising 0) })) ∧
    Met (fun h : Obligations.OperatingPointsMove => ((h.1 (ns 7)).2.2.2.2.1 0 true).2.1) (pmDev (fun p => { p with cur := 3, move := some (.raising 0) })) :=
  ⟨(by decide +kernel),
    (by decide +kernel),
    (by decide +kernel),
    (by decide +kernel),
    (by decide +kernel),
    by decide +kernel⟩

theorem witness_OperatingPointsMove_2 :
    Met (fun h : Obligations.OperatingPointsMove => ((h.1 (ns 7)).2.2.2.2.1 2 true).2.2) (pmDev (fun p => { p with cur := 2, move := some (.lowering 2), retryAt := some 5 })) ∧
    Met (fun h : Obligations.OperatingPointsMove => (h.1 (ns 7)).2.2.2.2.2 false) (pmDev (fun p => { p with retryAt := some 5 })) ∧
    Met (fun h : Obligations.OperatingPointsMove => (h.2 (ns 7)).1 750 2000) (bare) ∧
    Met (fun h : Obligations.OperatingPointsMove => (h.2 (ns 7)).2.1) (bare) ∧
    Met (fun h : Obligations.OperatingPointsMove => (h.2 (ns 7)).2.2.1 none none) (bare) ∧
    Met (fun h : Obligations.OperatingPointsMove => (h.2 (ns 7)).2.2.2.1) (pmDev (fun p => { p with n10 := 10, sum10 := 115000001 })) :=
  ⟨(by decide +kernel),
    (by decide +kernel),
    (by decide +kernel),
    (by decide +kernel),
    (by decide +kernel),
    by decide +kernel⟩

theorem witness_OperatingPointsMove_3 :
    Met (fun h : Obligations.OperatingPointsMove => (h.2 (ns 7)).2.2.2.2.1) (pmDev (fun p => { p with n10 := 10, sum10 := 115000000 })) ∧
    Met (fun h : Obligations.OperatingPointsMove => (h.2 (ns 7)).2.2.2.2.2) (bare) :=
  ⟨(by decide +kernel),
    by decide +kernel⟩

theorem witness_TemperatureCapsAndTrips :
    Met (fun h : Obligations.TemperatureCapsAndTrips => (h (ns 7)).1 (List.replicate 19 440)) (bare) ∧
    Met (fun h : Obligations.TemperatureCapsAndTrips => (h (ns 7)).1 (List.replicate 19 439)) (bare) ∧
    Met (fun h : Obligations.TemperatureCapsAndTrips => (h (ns 7)).2 34 (by decide)) (dev.updPm (fun p => { p with off := 1 <<< 34 })) :=
  ⟨(by decide +kernel),
    (by decide +kernel),
    by decide +kernel⟩

theorem witness_WakeEventsAndWatchMode_1 :
    Met (fun h : Obligations.WakeEventsAndWatchMode => (h.1 (ns 7) 33 (by decide)).1) (lhDev (fun l => { l with st := .asleep })) ∧
    Met (fun h : Obligations.WakeEventsAndWatchMode => (h.1 (ns 7) 33 (by decide)).2.1) (dev) ∧
    Met (fun h : Obligations.WakeEventsAndWatchMode => (h.1 (ns 7) 33 (by decide)).2.2.1 0x58) (lhDev (fun l => { l with st := .asleep })) ∧
    Met (fun h : Obligations.WakeEventsAndWatchMode => (h.1 (ns 7) 33 (by decide)).2.2.2) (lhDev (fun l => { l with st := .asleep, lastWake := 0x30000000 })) ∧
    Met (fun h : Obligations.WakeEventsAndWatchMode => (h.2 (ns 7)).1) (lhDev (fun l => { l with st := .entering })) ∧
    Met (fun h : Obligations.WakeEventsAndWatchMode => (h.2 (ns 7)).2.1 2 5) (lhDev (fun l => { l with st := .entering, latched := some (2, 5) })) :=
  ⟨(by decide +kernel),
    (by decide +kernel),
    (by decide +kernel),
    (by decide +kernel),
    (by decide +kernel),
    by decide +kernel⟩

theorem witness_WakeEventsAndWatchMode_2 :
    Met (fun h : Obligations.WakeEventsAndWatchMode => (h.2 (ns 10000000000)).2.2.1) (lhDev (fun l => { l with st := .watchIdle })) ∧
    Met (fun h : Obligations.WakeEventsAndWatchMode => ((h.2 (ns 7)).2.2.2.1 stream3).1) (compare0 true 8) ∧
    Met (fun h : Obligations.WakeEventsAndWatchMode => ((h.2 (ns 7)).2.2.2.1 stream3).1) (compare0 true 9) ∧
    Met (fun h : Obligations.WakeEventsAndWatchMode => ((h.2 (ns 7)).2.2.2.1 stream3).2) (compare0 false 9) ∧
    Met (fun h : Obligations.WakeEventsAndWatchMode => (h.2 (ns 7)).2.2.2.2) (lhDev (fun l => { l with st := .watchCycle, periodAt := 750000000 })) :=
  ⟨(by decide +kernel),
    (by decide +kernel),
    (by decide +kernel),
    (by decide +kernel),
    by decide +kernel⟩

theorem witness_ResetsAndWaking_1 :
    MetState (fun h : Obligations.ResetsAndWaking => (h.1 (ns 7) false []).1 _ (.head _)) (at_ (lhDev (fun l => { l with st := .asleep, latched := some (2, 0) }))) ∧
    MetState (fun h : Obligations.ResetsAndWaking => (h.1 (ns 7) false []).1 _ (.tail _ (.head _))) (at_ (lhDev (fun l => { l with st := .waking, pgFailed := true }))) ∧
    MetState (fun h : Obligations.ResetsAndWaking => (h.1 (ns 7) false []).2 _ (.head _)) (at_ (lhDev (fun l => { l with st := .asleep, latched := some (2, 0) }))) ∧
    MetState (fun h : Obligations.ResetsAndWaking => (h.1 (ns 7) false []).2 _ (.tail _ (.head _))) (at_ (lhDev (fun l => { l with st := .waking, pgFailed := true }))) ∧
    MetState (fun h : Obligations.ResetsAndWaking => (h.2.1 (ns 7) 1000).1) (at_ (dev.updCfg (fun g => { g with state := .pending }))) ∧
    MetState (fun h : Obligations.ResetsAndWaking => (h.2.1 (ns 7) 5).2) (at_ { romDev with cfg := { romDev.cfg with next := .warm } }) :=
  ⟨(by decide +kernel),
    (by decide +kernel),
    (by decide +kernel),
    (by decide +kernel),
    (by decide +kernel),
    by decide +kernel⟩

theorem witness_ResetsAndWaking_2 : MetState (fun h : Obligations.ResetsAndWaking => h.2.2.1 (ns 7)) (at_ (Chip.elapse 10000000000 ((lhDev (fun l => { l with st := .tripped })).updTm (fun t => { t with coolSince := some 0, trip := true })))) :=
  by decide +kernel

theorem witness_SnapshotsLatchOnce : Met (fun h : Obligations.SnapshotsLatchOnce => h.1 (ns 7) 100 (by decide)) (bare) :=
  by decide +kernel

theorem witness_SessionsOpenAndClose_1 :
    Met (fun h : Obligations.SessionsOpenAndClose => (h (ns 7) (qcp 0 [])).1) (bare) ∧
    Met (fun h : Obligations.SessionsOpenAndClose => (h (ns 7) (qcp 0 [])).2.1) (bare.updHm (fun h => { h with rngOk := false })) ∧
    Met (fun h : Obligations.SessionsOpenAndClose => (h (ns 7) (qcp 0 (zeros 416))).2.2.1) (bare.updPl (fun p => { p with nonce := some nonce0 })) ∧
    Met (fun h : Obligations.SessionsOpenAndClose => (h (ns 7) (qcp 0 (zeros 416))).2.2.2.1) ((bare.updPl (fun p => { p with nonce := some nonce0 })).updHm (fun h => { h with rngOk := false })) ∧
    Met (fun h : Obligations.SessionsOpenAndClose => (h (ns 7) (qcp 0 (zeros 416))).2.2.2.2.1) (bare.updPl (fun p => { p with session := some { owned0 with mac := 1 } })) ∧
    Met (fun h : Obligations.SessionsOpenAndClose => (h (ns 7) (qcp 0 (zeros 416))).2.2.2.2.2.1) (bare) :=
  ⟨⟨rfl, (takes_of (by decide +kernel)), (by decide +kernel), (by decide +kernel)⟩,
    ⟨rfl, (takes_of (by decide +kernel)), (by decide +kernel), (by decide +kernel)⟩,
    ⟨rfl, (takes_of (by decide +kernel)), (by decide +kernel), fun x hx => by cases hx; rfl, (by decide +kernel), (by decide +kernel)⟩,
    ⟨rfl, (takes_of (by decide +kernel)), (by decide +kernel), fun x hx => by cases hx; rfl, (by decide +kernel), (by decide +kernel)⟩,
    ⟨rfl, (takes_of (by decide +kernel)), (by decide +kernel), _, rfl, by decide⟩,
    ⟨rfl, (takes_of (by decide +kernel)), (by decide +kernel), fun x hx => by cases hx; rfl, (by decide +kernel)⟩⟩

theorem witness_SessionsOpenAndClose_2 :
    Met (fun h : Obligations.SessionsOpenAndClose => (h (ns 7) (qcp 5 [])).2.2.2.2.2.2.1) (bare) ∧
    Met (fun h : Obligations.SessionsOpenAndClose => (h (ns 60000000000) (qcp 5 [])).2.2.2.2.2.2.2) (bare) :=
  ⟨⟨rfl, (turn_of (by decide +kernel)), (by decide +kernel)⟩,
    ⟨rfl, (by decide +kernel), _, rfl, (by decide +kernel)⟩⟩

theorem witness_CommandsAreTakenInOrder_1 :
    Met (fun h : Obligations.CommandsAreTakenInOrder => ((h (ns 7) (qcp 7 []) [] 0).1 _ (.head _) (by decide) (by decide)).1) (bare) ∧
    Met (fun h : Obligations.CommandsAreTakenInOrder => ((h (ns 7) (qcp 7 []) [] 0).1 _ (.head _) (by decide) (by decide)).2.1) (bare.updPl (fun p => { p with held := [{ op := .close, f := qcp 7 [] }] })) ∧
    Met (fun h : Obligations.CommandsAreTakenInOrder => ((h (ns 7) (qcp 4 []) [] 0).1 _ (.head _) (by decide) (by decide)).2.2.1 { seq := 4, op := 4, session := 7, status := 0, payload := [] }) (bare.updPl (fun p => { p with cache := [{ seq := 4, op := 4, session := 7, status := 0, payload := [] }] })) ∧
    Met (fun h : Obligations.CommandsAreTakenInOrder => ((h (ns 7) (qcp 21 []) [] 0).1 _ (.head _) (by decide) (by decide)).2.2.2.1) (bare) ∧
    Met (fun h : Obligations.CommandsAreTakenInOrder => ((h (ns 7) (qcp 5 []) [] 0).1 _ (.head _) (by decide) (by decide)).2.2.2.2.1) (bare.updPl (fun p => { p with session := none })) ∧
    Met (fun h : Obligations.CommandsAreTakenInOrder => ((h (ns 7) (qcp 5 []) [] 0).1 _ (.tail _ (.tail _ (.tail _ (.head _)))) (by decide) (by decide)).2.2.2.2.2.1 rfl) (netDev) :=
  ⟨⟨rfl, (takes_of (by decide +kernel)), ⟨_, rfl, rfl⟩, (by decide +kernel), (by decide +kernel), fun _ hx => nomatch hx⟩,
    ⟨rfl, (takes_of (by decide +kernel)), ⟨_, rfl, rfl⟩, (by decide +kernel), _, List.mem_singleton.mpr rfl, rfl⟩,
    ⟨rfl, (takes_of (by decide +kernel)), ⟨_, rfl, rfl⟩, (by decide +kernel), (by decide +kernel)⟩,
    ⟨rfl, (takes_of (by decide +kernel)), ⟨_, rfl, rfl⟩, (by decide +kernel), (by decide +kernel)⟩,
    ⟨rfl, (takes_of (by decide +kernel)), fun _ hx => nomatch hx⟩,
    ⟨rfl, (turn_of (by decide +kernel)), (by decide +kernel)⟩⟩

theorem witness_CommandsAreTakenInOrder_2 :
    Met (fun h : Obligations.CommandsAreTakenInOrder => ((h (ns 7) (qcp 5 []) [] 0).1 _ (.tail _ (.tail _ (.tail _ (.tail _ (.head _))))) (by decide) (by decide)).2.2.2.2.2.2 rfl) (bare.updPl (fun p => { p with deferred := List.replicate 8 (deferred0 .sealSet 1) })) ∧
    Met (fun h : Obligations.CommandsAreTakenInOrder => (h (ns 7) (qcp 5 []) [] 0x99).2.1 rfl) (bare) ∧
    Met (fun h : Obligations.CommandsAreTakenInOrder => (h (ns 7) (qcp 5 []) [] 0).2.2.2.1 (qcp 6 []) rfl rfl rfl rfl) (bare.updPl (fun p => { p with held := [{ op := .nop, f := qcp 6 [] }] })) ∧
    Met (fun h : Obligations.CommandsAreTakenInOrder => (h (ns 7) (qcp 5 []) [] 0).2.2.2.2.1 { rx := rxQcp, version := 2, type := 0, length := 0, payload := [] }) (bare) :=
  ⟨⟨rfl, (turn_of (by decide +kernel)), (by decide +kernel), (by decide +kernel)⟩,
    ⟨rfl, (turn_of (by decide +kernel)), (by decide +kernel)⟩,
    ⟨rfl, (takes_of (by decide +kernel)), ⟨_, rfl, rfl⟩, (by decide +kernel), (by decide +kernel)⟩,
    by decide +kernel⟩

theorem witness_RegisterCommandsRunInOrder :
    Met (fun h : Obligations.RegisterCommandsRunInOrder => (h (ns 7) (qcp 5 [])).1) (bare) ∧
    Met (fun h : Obligations.RegisterCommandsRunInOrder => ((h (ns 7) (qcp 5 (toLe 4 1 ++ toLe 4 0))).2.1 [0] (by decide) (by decide) (by decide) rfl).1 [0xA6A0]) (bare) ∧
    Met (fun h : Obligations.RegisterCommandsRunInOrder => ((h (ns 7) (qcp 5 (toLe 4 2 ++ toLe 4 0 ++ toLe 4 0x140000))).2.1 [0, 0x140000] (by decide) (by decide) (by decide) rfl).2 1 (by decide)) (bare) ∧
    Met (fun h : Obligations.RegisterCommandsRunInOrder => ((h (ns 7) (qcp 5 (toLe 4 1 ++ toLe 4 0x100028 ++ toLe 4 5))).2.2.1 [(0x100028, 5)] (by decide) (by decide) (by decide) rfl).1) (bare) ∧
    Met (fun h : Obligations.RegisterCommandsRunInOrder => ((h (ns 7) (qcp 5 (toLe 4 2 ++ toLe 4 0x100028 ++ toLe 4 5 ++ toLe 4 0x140000 ++ toLe 4 1))).2.2.1 [(0x100028, 5), (0x140000, 1)] (by decide) (by decide) (by decide) rfl).2 1 0x33 (by decide)) (bare) ∧
    Met (fun h : Obligations.RegisterCommandsRunInOrder => (h (ns 7) (qcp 5 [1, 2])).2.2.2 _ (.head _)) (bare) :=
  ⟨⟨rfl, (turn_of (by decide +kernel)), (by decide +kernel)⟩,
    ⟨rfl, (turn_of (by decide +kernel)), (by decide +kernel), (by decide +kernel)⟩,
    ⟨rfl, (turn_of (by decide +kernel)), (by decide +kernel), (by decide +kernel)⟩,
    ⟨rfl, (turn_of (by decide +kernel)), rfl, (by decide +kernel)⟩,
    ⟨rfl, (turn_of (by decide +kernel)), rfl, (by decide +kernel), (by decide +kernel)⟩,
    ⟨rfl, (runs_of (by decide +kernel)), (by decide +kernel)⟩⟩

theorem witness_LoadsReachTheirPlace_1 :
    Met (fun h : Obligations.LoadsReachTheirPlace => ((h (ns 7) (qcp 5 (toLe 8 (50 * 2 ^ 20) ++ toLe 4 4))).1 (50 * 2 ^ 20) 4 (by decide +kernel) (by decide +kernel) (by decide +kernel) (by decide +kernel)).1) (dev) ∧
    Met (fun h : Obligations.LoadsReachTheirPlace => ((h (ns 7) (qcp 5 (toLe 8 0 ++ toLe 4 8192))).1 0 8192 (by decide +kernel) (by decide +kernel) (by decide +kernel) (by decide +kernel)).1) (dev) ∧
    Met (fun h : Obligations.LoadsReachTheirPlace => ((h (ns 7) (qcp 5 (toLe 8 (60 * 2 ^ 20) ++ toLe 4 4))).1 (60 * 2 ^ 20) 4 (by decide +kernel) (by decide +kernel) (by decide +kernel) (by decide +kernel)).2.1 [{ addr := 60 * 2 ^ 20, symbols := 9, fails := true, replicaFails := false }]) (dev) ∧
    Met (fun h : Obligations.LoadsReachTheirPlace => ((h (ns 7) (qcp 5 (toLe 8 (70 * 2 ^ 20) ++ toLe 4 4))).1 (70 * 2 ^ 20) 4 (by decide +kernel) (by decide +kernel) (by decide +kernel) (by decide +kernel)).2.2 [] 1 (70 * 2 ^ 20)) (dev) ∧
    Met (fun h : Obligations.LoadsReachTheirPlace => ((h (ns 7) (qcp 5 (toLe 8 (50 * 2 ^ 20) ++ toLe 4 4 ++ [1, 2, 3, 4]))).2.1 (50 * 2 ^ 20) 4 (by decide +kernel) (by decide +kernel) (by decide +kernel) (by decide +kernel)).1) (dev) ∧
    Met (fun h : Obligations.LoadsReachTheirPlace => ((h (ns 7) (qcp 5 (toLe 8 (70 * 2 ^ 20) ++ toLe 4 4 ++ [1, 2, 3, 4]))).2.1 (70 * 2 ^ 20) 4 (by decide +kernel) (by decide +kernel) (by decide +kernel) (by decide +kernel)).2 1 (70 * 2 ^ 20)) (dev) :=
  ⟨⟨rfl, (runs_of (by decide +kernel)), (by decide +kernel)⟩,
    ⟨rfl, (runs_of (by decide +kernel)), (by decide +kernel)⟩,
    ⟨rfl, (runs_of (by decide +kernel)), (by decide +kernel)⟩,
    ⟨rfl, (runs_of (by decide +kernel)), (by decide +kernel)⟩,
    ⟨rfl, (runs_of (by decide +kernel)), (by decide +kernel)⟩,
    ⟨rfl, (runs_of (by decide +kernel)), (by decide +kernel)⟩⟩

theorem witness_LoadsReachTheirPlace_2 :
    Met (fun h : Obligations.LoadsReachTheirPlace => ((h (ns 7) (qcp 5 (toLe 4 (2 ^ 23 - 4) ++ toLe 4 4 ++ [1, 2, 3, 4]))).2.2.1 (2 ^ 23 - 4) 4 (by decide +kernel) (by decide +kernel) (by decide +kernel) (by decide +kernel)).1) (bare) ∧
    Met (fun h : Obligations.LoadsReachTheirPlace => ((h (ns 7) (qcp 5 (toLe 4 (2 ^ 23 - 4) ++ toLe 4 4 ++ [1, 2, 3, 4]))).2.2.1 (2 ^ 23 - 4) 4 (by decide +kernel) (by decide +kernel) (by decide +kernel) (by decide +kernel)).2.1 str0) (dev) ∧
    Met (fun h : Obligations.LoadsReachTheirPlace => ((h (ns 7) (qcp 5 (toLe 4 0 ++ toLe 4 4 ++ [1, 2, 3, 4]))).2.2.1 0 4 (by decide +kernel) (by decide +kernel) (by decide +kernel) (by decide +kernel)).2.2.1) (cfgDev (fun g => { g with state := .pending })) ∧
    Met (fun h : Obligations.LoadsReachTheirPlace => ((h (ns 7) (qcp 5 (toLe 4 (2 ^ 23 - 3) ++ toLe 4 4 ++ [1, 2, 3, 4]))).2.2.1 (2 ^ 23 - 3) 4 (by decide +kernel) (by decide +kernel) (by decide +kernel) (by decide +kernel)).2.2.2.1) (dev) ∧
    Met (fun h : Obligations.LoadsReachTheirPlace => ((h (ns 7) (qcp 5 (toLe 4 (2 ^ 23 - 4) ++ toLe 4 4 ++ [1, 2, 3, 4]))).2.2.1 (2 ^ 23 - 4) 4 (by decide +kernel) (by decide +kernel) (by decide +kernel) (by decide +kernel)).2.2.2.2.1) (netDev) ∧
    Met (fun h : Obligations.LoadsReachTheirPlace => ((h (ns 7) (qcp 5 (toLe 4 (2 ^ 23 - 4) ++ toLe 4 4 ++ [1, 2, 3, 4]))).2.2.1 (2 ^ 23 - 4) 4 (by decide +kernel) (by decide +kernel) (by decide +kernel) (by decide +kernel)).2.2.2.2.2.1 str0) (dev) :=
  ⟨⟨rfl, (runs_of (by decide +kernel)), (by decide +kernel)⟩,
    ⟨rfl, (runs_of (by decide +kernel)), (by decide +kernel)⟩,
    ⟨rfl, (runs_of (by decide +kernel)), (by decide +kernel)⟩,
    ⟨rfl, (runs_of (by decide +kernel)), (by decide +kernel)⟩,
    ⟨rfl, (turn_of (by decide +kernel)), (by decide +kernel)⟩,
    ⟨rfl, (runs_of (by decide +kernel)), (by decide +kernel)⟩⟩

theorem witness_LoadsReachTheirPlace_3 :
    Met (fun h : Obligations.LoadsReachTheirPlace => ((h (ns 7) (qcp 5 (toLe 4 (2 ^ 23 - 3) ++ toLe 4 4 ++ [1, 2, 3, 4]))).2.2.1 (2 ^ 23 - 3) 4 (by decide +kernel) (by decide +kernel) (by decide +kernel) (by decide +kernel)).2.2.2.2.2.2) (dev) ∧
    Met (fun h : Obligations.LoadsReachTheirPlace => (((h (ns 7) (qcp 5 (toLe 4 1 ++ toLe 8 28 ++ toLe 4 4 ++ [1, 2, 3, 4]))).2.2.2 1 28 4 (by decide +kernel) (by decide +kernel) (by decide +kernel) (by decide +kernel) (by decide +kernel)).1 { id := 1, region := 30, length := 32, hash := sha256 (zeros 32) }).1) (dev) ∧
    Met (fun h : Obligations.LoadsReachTheirPlace => (((h (ns 7) (qcp 5 (toLe 4 1 ++ toLe 8 29 ++ toLe 4 4 ++ [1, 2, 3, 4]))).2.2.2 1 29 4 (by decide +kernel) (by decide +kernel) (by decide +kernel) (by decide +kernel) (by decide +kernel)).1 { id := 1, region := 30, length := 32, hash := sha256 (zeros 32) }).2) (dev) ∧
    Met (fun h : Obligations.LoadsReachTheirPlace => ((h (ns 7) (qcp 5 (toLe 4 0 ++ toLe 8 0 ++ toLe 4 4 ++ [1, 2, 3, 4]))).2.2.2 0 0 4 (by decide +kernel) (by decide +kernel) (by decide +kernel) (by decide +kernel) (by decide +kernel)).2) (dev) :=
  ⟨⟨rfl, (runs_of (by decide +kernel)), (by decide +kernel)⟩,
    ⟨rfl, (runs_of (by decide +kernel)), (by decide +kernel)⟩,
    ⟨rfl, (runs_of (by decide +kernel)), (by decide +kernel)⟩,
    ⟨rfl, (runs_of (by decide +kernel)), (by decide +kernel)⟩⟩

theorem witness_ImagesSealsAndKeys_1 :
    Met (fun h : Obligations.ImagesSealsAndKeys => ((h (ns 7) (qcp 5 (toLe 4 4096))).1 rfl).1) (dev) ∧
    Met (fun h : Obligations.ImagesSealsAndKeys => ((h (ns 7) (qcp 5 (toLe 4 4096))).1 rfl).2.1) (cfgDev (fun g => { g with state := .validating })) ∧
    Met (fun h : Obligations.ImagesSealsAndKeys => ((h (ns 7) (qcp 5 (toLe 4 784))).1 rfl).2.2.1) (dev) ∧
    Met (fun h : Obligations.ImagesSealsAndKeys => ((h (ns 7) (qcp 5 (toLe 4 784))).1 rfl).2.2.2) (dev.updHm (fun h => { h with upd := .copied })) ∧
    Met (fun h : Obligations.ImagesSealsAndKeys => ((h (ns 7) (qcp 5 [])).2.1 rfl).1) (cfgDev (fun g => { g with state := .pending })) ∧
    Met (fun h : Obligations.ImagesSealsAndKeys => ((h (ns 7) (qcp 5 [])).2.1 rfl).2) (dev) :=
  ⟨⟨rfl, (runs_of (by decide +kernel)), (by decide +kernel)⟩,
    ⟨rfl, (runs_of (by decide +kernel)), (by decide +kernel)⟩,
    ⟨rfl, (runs_of (by decide +kernel)), (by decide +kernel), _, rfl, rfl⟩,
    ⟨rfl, (runs_of (by decide +kernel)), .inl (by decide +kernel)⟩,
    ⟨rfl, (runs_of (by decide +kernel)), (by decide +kernel)⟩,
    ⟨rfl, (runs_of (by decide +kernel)), (by decide +kernel), (by decide +kernel)⟩⟩

theorem witness_ImagesSealsAndKeys_2 :
    Met (fun h : Obligations.ImagesSealsAndKeys => ((h (ns 7) (qcp 5 (toLe 2 1))).2.2.1 rfl).1) (dev) ∧
    Met (fun h : Obligations.ImagesSealsAndKeys => ((h (ns 7) (qcp 5 (toLe 2 0))).2.2.1 rfl).2) (dev) ∧
    Met (fun h : Obligations.ImagesSealsAndKeys => ((h (ns 7) (qcp 5 [])).2.2.2.1 1 { id := 1, region := 30, length := 32, hash := sha256 (zeros 32) }).1 rfl) (plDev (fun p => { p with deferred := [deferred0 .sealSet 1] })) ∧
    Met (fun h : Obligations.ImagesSealsAndKeys => ((h (ns 7) (qcp 5 [])).2.2.2.1 1 { id := 1, region := 30, length := 32, hash := sha256 (zeros 32) }).2.1 rfl) ((plDev (fun p => { p with deferred := [deferred0 .sealSet 1] })).dramWrite (58 * 2 ^ 20) [1]) ∧
    Met (fun h : Obligations.ImagesSealsAndKeys => ((h (ns 7) (qcp 5 [])).2.2.2.1 7 { id := 1, region := 30, length := 32, hash := sha256 (zeros 32) }).2.2) (plDev (fun p => { p with deferred := [deferred0 .sealSet 7] })) ∧
    Met (fun h : Obligations.ImagesSealsAndKeys => (h (ns 7) (qcp 5 (zeros 32))).2.2.2.2.1 rfl) (dev.updHm (fun h => { h with idReady := true })) :=
  ⟨⟨rfl, (runs_of (by decide +kernel)), (by decide +kernel)⟩,
    ⟨rfl, (runs_of (by decide +kernel)), (by decide +kernel)⟩,
    (by decide +kernel),
    (by decide +kernel),
    (by decide +kernel),
    ⟨rfl, (runs_of (by decide +kernel)), (by decide +kernel)⟩⟩

theorem witness_ImagesSealsAndKeys_3 :
    MetState (fun h : Obligations.ImagesSealsAndKeys => ((h (ns 7) (qcp 5 ownerKey0)).2.2.2.2.2 (by decide +kernel) 0).1 [sha256 (zeros 384)]) ({ at_ dev with fuses := { ownerSlots := [sha256 (zeros 384)] } }) ∧
    MetState (fun h : Obligations.ImagesSealsAndKeys => ((h (ns 7) (qcp 5 ownerKey0)).2.2.2.2.2 (by decide +kernel) 0).2 0x3B 0) ({ at_ dev with fuses := { ownerSlots := [1, 2, 3, 4] } }) :=
  ⟨⟨rfl, (runs_of (by decide +kernel)), (by decide +kernel), (by decide +kernel)⟩,
    ⟨rfl, (runs_of (by decide +kernel)), (by decide +kernel), (by decide +kernel)⟩⟩

theorem witness_QueriesAndFramesToTheHost_1 :
    Met (fun h : Obligations.QueriesAndFramesToTheHost => ((h (ns 7) (qcp 5 (queryPayload 1 4 [7]))).1 (by decide +kernel) (by decide +kernel)).1) (dev) ∧
    Met (fun h : Obligations.QueriesAndFramesToTheHost => ((h (ns 7) (qcp 5 (queryPayload 1 0 [7]))).1 (by decide +kernel) (by decide +kernel)).2.1) (dev) ∧
    Met (fun h : Obligations.QueriesAndFramesToTheHost => ((h (ns 7) (qcp 5 (queryPayload 1 4 [100]))).1 (by decide +kernel) (by decide +kernel)).2.2.1 0x24 0xB0) (dev) ∧
    Met (fun h : Obligations.QueriesAndFramesToTheHost => ((h (ns 7) (qcp 5 (queryPayload 3 4 [7]))).1 (by decide +kernel) (by decide +kernel)).2.2.2.1) (dev) ∧
    Met (fun h : Obligations.QueriesAndFramesToTheHost => ((h (ns 7) (qcp 5 (queryPayload 3 4 [7]))).1 (by decide +kernel) (by decide +kernel)).2.2.2.2 0x23) (dev.updSv (fun v => { v with staged := [staged0] })) ∧
    Met (fun h : Obligations.QueriesAndFramesToTheHost => ((h (ns 7) (qcp 5 (queryPayload 3 4 [7]))).1 (by decide +kernel) (by decide +kernel)).2.2.2.2 0x22) (dev.updSv (fun v => { v with staged := List.replicate 16 staged0 })) :=
  ⟨⟨rfl, (runs_of (by decide +kernel)), (by decide +kernel)⟩,
    ⟨rfl, (runs_of (by decide +kernel)), (by decide +kernel)⟩,
    ⟨rfl, (runs_of (by decide +kernel)), (by decide +kernel)⟩,
    ⟨rfl, (runs_of (by decide +kernel)), (by decide +kernel)⟩,
    ⟨rfl, (runs_of (by decide +kernel)), (by decide +kernel), .inr (.inr ⟨staged0, (by decide +kernel), (by decide +kernel)⟩), (by decide +kernel)⟩,
    ⟨rfl, (runs_of (by decide +kernel)), (by decide +kernel), .inl (by decide +kernel), (by decide +kernel)⟩⟩

theorem witness_QueriesAndFramesToTheHost_2 :
    Met (fun h : Obligations.QueriesAndFramesToTheHost => (h (ns 7) (qcp 5 [1, 2, 3])).2.1 (.inl (by decide))) (dev) ∧
    Met (fun h : Obligations.QueriesAndFramesToTheHost => ((h (ns 7) (qcp 5 (toLe 4 0x51 ++ toLe 4 1 ++ toLe 4 2 ++ toLe 4 8 ++ toLe 4 9))).2.2.1 { staged0 with n := 4 } [8, 9] (by decide) (by decide) (by decide) (by decide) rfl).1 (by decide)) (dev.updSv (fun v => { v with staged := [{ staged0 with n := 4 }] })) ∧
    Met (fun h : Obligations.QueriesAndFramesToTheHost => ((h (ns 7) (qcp 5 (toLe 4 0x51 ++ toLe 4 1 ++ toLe 4 2 ++ toLe 4 8 ++ toLe 4 9))).2.2.1 staged1 [8, 9] (by decide) (by decide) (by decide) (by decide) rfl).2.1 (by decide) (by decide)) (dev.updSv (fun v => { v with staged := [staged1] })) ∧
    Met (fun h : Obligations.QueriesAndFramesToTheHost => ((h (ns 7) (qcp 5 (toLe 4 0x51 ++ toLe 4 1 ++ toLe 4 2 ++ toLe 4 8 ++ toLe 4 9))).2.2.1 { staged1 with maxNew := 0 } [8, 9] (by decide) (by decide) (by decide) (by decide) rfl).2.2.1 (by decide) rfl) (dev.updSv (fun v => { v with staged := [{ staged1 with maxNew := 0 }] })) ∧
    Met (fun h : Obligations.QueriesAndFramesToTheHost => ((h (ns 7) (qcp 5 (toLe 4 0x51 ++ toLe 4 1 ++ toLe 4 2 ++ toLe 4 8 ++ toLe 4 100))).2.2.1 staged1 [8, 100] (by decide) (by decide) (by decide) (by decide) rfl).2.2.2.1 0x24 0xB8 (by decide)) (dev.updSv (fun v => { v with staged := [staged1] })) ∧
    Met (fun h : Obligations.QueriesAndFramesToTheHost => ((h (ns 7) (qcp 5 (toLe 4 0x51 ++ toLe 4 1 ++ toLe 4 2 ++ toLe 4 8 ++ toLe 4 9))).2.2.1 staged1 [8, 9] (by decide) (by decide) (by decide) (by decide) rfl).2.2.2.2) (dev.updSv (fun v => { v with staged := [{ staged0 with n := 2 }] })) :=
  ⟨⟨rfl, (runs_of (by decide +kernel))⟩,
    ⟨rfl, (runs_of (by decide +kernel)), (by decide +kernel)⟩,
    ⟨rfl, (runs_of (by decide +kernel)), (by decide +kernel)⟩,
    ⟨rfl, (runs_of (by decide +kernel)), (by decide +kernel)⟩,
    ⟨rfl, (runs_of (by decide +kernel)), (by decide +kernel)⟩,
    ⟨rfl, (runs_of (by decide +kernel)), fun x hx => .inr (by cases hx; decide)⟩⟩

theorem witness_QueriesAndFramesToTheHost_3 :
    Met (fun h : Obligations.QueriesAndFramesToTheHost => ((h (ns 7) (qcp 5 (toLe 4 0x51))).2.2.2.1 rfl).1) (dev) ∧
    Met (fun h : Obligations.QueriesAndFramesToTheHost => ((h (ns 7) (qcp 5 (toLe 4 0x51))).2.2.2.1 rfl).2) (dev.updSv (fun v => { v with queue := [query0] })) ∧
    Met (fun h : Obligations.QueriesAndFramesToTheHost => ((h (ns 7) (qcp 5 (toLe 4 3 ++ toLe 2 1))).2.2.2.2.1 [tok0] 3 1 (by decide) (by decide) rfl).1 rfl) (plDev (fun p => { p with tokLog := [tok0] })) ∧
    Met (fun h : Obligations.QueriesAndFramesToTheHost => ((h (ns 7) (qcp 5 (toLe 4 3 ++ toLe 2 2))).2.2.2.2.1 [tok0] 3 2 (by decide) (by decide) rfl).2 (by decide)) (plDev (fun p => { p with tokLog := [tok0] })) ∧
    Met (fun h : Obligations.QueriesAndFramesToTheHost => ((h (ns 7) (qcp 5 (toLe 4 3 ++ toLe 2 1))).2.2.2.2.1 [] 3 1 (by decide) (by decide) rfl).2 (by decide)) (dev) ∧
    Met (fun h : Obligations.QueriesAndFramesToTheHost => (h (ns 7) (qcp 5 (toLe 4 3 ++ toLe 2 0))).2.2.2.2.2.1 (.inr (.inl rfl))) (dev) :=
  ⟨⟨rfl, (runs_of (by decide +kernel))⟩,
    ⟨rfl, (runs_of (by decide +kernel)), (by decide +kernel), query0, (by decide +kernel), (by decide +kernel)⟩,
    ⟨rfl, (runs_of (by decide +kernel)), fun i t h => by cases i <;> cases h; rfl⟩,
    ⟨rfl, (runs_of (by decide +kernel)), fun i t h => by cases i <;> cases h; rfl, (by decide +kernel)⟩,
    ⟨rfl, (runs_of (by decide +kernel)), nofun, (by decide +kernel)⟩,
    ⟨rfl, (runs_of (by decide +kernel))⟩⟩

theorem witness_SnapshotResetAndSleepCommands :
    Met (fun h : Obligations.SnapshotResetAndSleepCommands => (h (ns 7) (qcp 5 [])).1 rfl) (dev) ∧
    MetState (fun h : Obligations.SnapshotResetAndSleepCommands => (h (ns 7) (qcp 5 (toLe 4 0x5741524D))).2.1 rfl) (at_ dev) ∧
    Met (fun h : Obligations.SnapshotResetAndSleepCommands => (h (ns 7) (qcp 5 (toLe 4 0))).2.2.1 (by decide)) (dev) ∧
    Met (fun h : Obligations.SnapshotResetAndSleepCommands => ((h (ns 7) (qcp 5 [0])).2.2.2 rfl).1) (dev) ∧
    Met (fun h : Obligations.SnapshotResetAndSleepCommands => ((h (ns 7) (qcp 5 [1])).2.2.2 rfl).2) (dev) :=
  ⟨⟨rfl, (runs_of (by decide +kernel))⟩,
    ⟨rfl, (runs_of (by decide +kernel))⟩,
    ⟨rfl, (runs_of (by decide +kernel))⟩,
    ⟨rfl, (runs_of (by decide +kernel)), by decide +kernel⟩,
    ⟨rfl, (runs_of (by decide +kernel)), (by decide +kernel)⟩⟩

theorem witness_EveryCommandHasItsEffect_1 :
    Met (fun h : Obligations.EveryCommandHasItsEffect => ((h (ns 7)).1 (qcp 0 []) 0 []).1) (bare) ∧
    Met (fun h : Obligations.EveryCommandHasItsEffect => ((h (ns 7)).1 (qcp 0 []) 0 []).2.1) (bare) ∧
    MetState (fun h : Obligations.EveryCommandHasItsEffect => ((h (ns 7)).1 (qcp 5 []) 0 []).2.2 _ (.tail _ (.tail _ (.tail _ (.tail _ (.head _))))) (by decide) (by decide) (.inr rfl)) (at_ dev) ∧
    Met (fun h : Obligations.EveryCommandHasItsEffect => (h (ns 7)).2.1 .host 1 0 0 0 _ (.head _)) (bare) ∧
    Met (fun h : Obligations.EveryCommandHasItsEffect => (h (ns 7)).2.1 .host 1 7 0 0 _ (.tail _ (.tail _ (.head _)))) (bare) ∧
    Met (fun h : Obligations.EveryCommandHasItsEffect => (h (ns 7)).2.2.1 .host 0xB000C 5) (bare) :=
  ⟨⟨rfl, (takes_of (by decide +kernel))⟩,
    ⟨rfl, (takes_of (by decide +kernel))⟩,
    ⟨rfl, (runs_of (by decide +kernel))⟩,
    (by decide +kernel),
    (by decide +kernel),
    by decide +kernel⟩

theorem witness_EveryCommandHasItsEffect_2 :
    Met (fun h : Obligations.EveryCommandHasItsEffect => (h (ns 7)).2.2.2.1 .host 0xB0008 0) (bare) ∧
    Met (fun h : Obligations.EveryCommandHasItsEffect => (h (ns 7)).2.2.2.2.1 { rx := rxQcp, version := 2, type := 0, length := 0, payload := [] } 1 none _ (.head _)) (bare) ∧
    Met (fun h : Obligations.EveryCommandHasItsEffect => (h (ns 7)).2.2.2.2.1 { rx := rxQcp, version := 2, type := 0, length := 0, payload := [] } 1 none _ (.tail _ (.tail _ (.head _)))) (plDev (fun p => { p with deferred := [deferred0 .sealSet 1] })) ∧
    Met (fun h : Obligations.EveryCommandHasItsEffect => (h (ns 7)).2.2.2.2.1 { rx := rxQcp, version := 2, type := 0, length := 0, payload := [] } 1 (some 16) _ (.tail _ (.tail _ (.tail _ (.head _))))) (bare.updCfg (fun g => { g with state := .validating })) ∧
    Met (fun h : Obligations.EveryCommandHasItsEffect => (h (ns 7)).2.2.2.2.2.1 1 3 true false rxQcp (sync0 5) (some 0) (mka0 true true) rvf0 [] _ (.head _)) (bare) ∧
    Met (fun h : Obligations.EveryCommandHasItsEffect => (h (ns 7)).2.2.2.2.2.1 0 3 true false rxQcp (sync0 5) (some 0) (mka0 true true) rvf0 [] _ (.tail _ (.head _))) (bare) :=
  ⟨(by decide +kernel),
    (by decide +kernel),
    (by decide +kernel),
    (by decide +kernel),
    (by decide +kernel),
    by decide +kernel⟩

theorem witness_EveryCommandHasItsEffect_3 :
    Met (fun h : Obligations.EveryCommandHasItsEffect => (h (ns 7)).2.2.2.2.2.1 1 3 true false rxQcp (sync0 5) (some 0) (mka0 true true) rvf0 [] _ (.tail _ (.tail _ (.head _)))) (bare) ∧
    Met (fun h : Obligations.EveryCommandHasItsEffect => (h (ns 7)).2.2.2.2.2.1 1 3 true false rxQcp (sync0 5) (some 0) (mka0 true true) rvf0 [] _ (.tail _ (.tail _ (.tail _ (.head _))))) (bare) ∧
    Met (fun h : Obligations.EveryCommandHasItsEffect => (h (ns 7)).2.2.2.2.2.1 1 3 true false rxQcp (sync0 5) (some 0) (mka0 true true) rvf0 [] _ (.tail _ (.tail _ (.tail _ (.tail _ (.tail _ (.tail _ (.head _)))))))) (mkaDev) ∧
    Met (fun h : Obligations.EveryCommandHasItsEffect => (h (ns 7)).2.2.2.2.2.1 1 3 true false rxQcp (sync0 5) (some 0) (mka0 true true) rvf0 [] _ (.tail _ (.tail _ (.tail _ (.tail _ (.tail _ (.tail _ (.tail _ (.tail _ (.tail _ (.head _))))))))))) (dev) ∧
    Met (fun h : Obligations.EveryCommandHasItsEffect => (h (ns 7)).2.2.2.2.2.2.1 [] 3 _ (.head _)) (engines false) ∧
    Met (fun h : Obligations.EveryCommandHasItsEffect => (h (ns 7)).2.2.2.2.2.2.1 [] 3 _ (.tail _ (.head _))) (engines true) :=
  ⟨(by decide +kernel),
    (by decide +kernel),
    (by decide +kernel),
    (by decide +kernel),
    (by decide +kernel),
    by decide +kernel⟩

theorem witness_EveryCommandHasItsEffect_4 :
    Met (fun h : Obligations.EveryCommandHasItsEffect => (h (ns 7)).2.2.2.2.2.2.2.1 1 1 5 0 [] 0x10 _ (.head _)) (runs (curOf (descOf 1 0 0 0 []) 1)) ∧
    Met (fun h : Obligations.EveryCommandHasItsEffect => (h (ns 7)).2.2.2.2.2.2.2.1 1 1 5 0 [] 0x10 _ (.tail _ (.tail _ (.tail _ (.tail _ (.tail _ (.tail _ (.tail _ (.tail _ (.tail _ (.tail _ (.head _)))))))))))) (runs (wait0 4 1 0)) ∧
    Met (fun h : Obligations.EveryCommandHasItsEffect => (h (ns 7)).2.2.2.2.2.2.2.2.1 false false 0 0 1 2 3 0x10 _ (.tail _ (.tail _ (.tail _ (.tail _ (.tail _ (.head _))))))) (dev.updTt (fun t => { t with steps := [step0] })) ∧
    Met (fun h : Obligations.EveryCommandHasItsEffect => (h (ns 7)).2.2.2.2.2.2.2.2.1 false false 0 0 1 2 3 0x10 _ (.tail _ (.tail _ (.tail _ (.tail _ (.head _)))))) (tideAt 0) ∧
    Met (fun h : Obligations.EveryCommandHasItsEffect => (h (ns 7)).2.2.2.2.2.2.2.2.1 false false 0 0 1 2 3 0x10 _ (.tail _ (.tail _ (.tail _ (.tail _ (.tail _ (.tail _ (.tail _ (.head _))))))))) (transfer 1 .swapOut) ∧
    Met (fun h : Obligations.EveryCommandHasItsEffect => (h (ns 7)).2.2.2.2.2.2.2.2.1 false false 0 0 1 2 3 0x10 _ (.tail _ (.tail _ (.tail _ (.tail _ (.tail _ (.tail _ (.tail _ (.tail _ (.tail _ (.tail _ (.tail _ (.head _))))))))))))) (bare) :=
  ⟨(by decide +kernel),
    (by decide +kernel),
    (by decide +kernel),
    (by decide +kernel),
    (by decide +kernel),
    by decide +kernel⟩

theorem witness_EveryCommandHasItsEffect_5 :
    Met (fun h : Obligations.EveryCommandHasItsEffect => (h (ns 7)).2.2.2.2.2.2.2.2.2.1 0x10 [] 3 _ (.tail _ (.tail _ (.tail _ (.head _))))) (dev.updFg (fun f => { f with packs := [pack0] })) ∧
    Met (fun h : Obligations.EveryCommandHasItsEffect => (h (ns 7)).2.2.2.2.2.2.2.2.2.2.1 1 _ (.head _)) (dev.updSv (fun v => { v with queue := [query0] })) ∧
    Met (fun h : Obligations.EveryCommandHasItsEffect => (h (ns 7)).2.2.2.2.2.2.2.2.2.2.1 1 _ (.tail _ (.tail _ (.head _)))) (visionDev 7) ∧
    Met (fun h : Obligations.EveryCommandHasItsEffect => (h (ns 7)).2.2.2.2.2.2.2.2.2.2.2.1 [] 15 5 5 [] true 3 _ (.head _)) (bare) ∧
    Met (fun h : Obligations.EveryCommandHasItsEffect => (h (ns 7)).2.2.2.2.2.2.2.2.2.2.2.1 [] 15 5 5 [] true 3 _ (.tail _ (.head _))) (bare.updChan 15 (fun c => { c with scrubSlot := 5 })) ∧
    Met (fun h : Obligations.EveryCommandHasItsEffect => (h (ns 7)).2.2.2.2.2.2.2.2.2.2.2.1 [] 15 5 5 [] true 3 _ (.tail _ (.tail _ (.tail _ (.tail _ (.head _)))))) (bare) :=
  ⟨(by decide +kernel),
    (by decide +kernel),
    (by decide +kernel),
    (by decide +kernel),
    (by decide +kernel),
    by decide +kernel⟩

theorem witness_EveryCommandHasItsEffect_6 :
    Met (fun h : Obligations.EveryCommandHasItsEffect => (h (ns 7)).2.2.2.2.2.2.2.2.2.2.2.2.1 1 2 [] false true (pwp 5 0 0 0 0 0 0 []) [] 0x77 _ (.head _)) (outDev .active (some 0)) ∧
    Met (fun h : Obligations.EveryCommandHasItsEffect => (h (ns 7)).2.2.2.2.2.2.2.2.2.2.2.2.1 1 2 [] false true (pwp 5 0 0 0 0 0 0 []) [] 0x77 _ (.tail _ (.tail _ (.tail _ (.tail _ (.tail _ (.head _))))))) (slotDev 9) ∧
    Met (fun h : Obligations.EveryCommandHasItsEffect => (h (ns 7)).2.2.2.2.2.2.2.2.2.2.2.2.1 1 2 [] false true (pwp 5 0 0 0 0 0 0 []) [] 0x77 _ (.tail _ (.tail _ (.tail _ (.tail _ (.tail _ (.tail _ (.tail _ (.tail _ (.head _)))))))))) (peer3) ∧
    Met (fun h : Obligations.EveryCommandHasItsEffect => (h (ns 7)).2.2.2.2.2.2.2.2.2.2.2.2.1 1 2 [] false true (pwp 5 0 0 0 0 0 0 []) [] 0x77 _ (.tail _ (.tail _ (.tail _ (.tail _ (.tail _ (.tail _ (.tail _ (.tail _ (.tail _ (.tail _ (.tail _ (.tail _ (.tail _ (.head _))))))))))))))) (asked true 900000000) ∧
    Met (fun h : Obligations.EveryCommandHasItsEffect => (h (ns 7)).2.2.2.2.2.2.2.2.2.2.2.2.2.1 1 false _ (.tail _ (.head _))) (bare) ∧
    Met (fun h : Obligations.EveryCommandHasItsEffect => (h (ns 7)).2.2.2.2.2.2.2.2.2.2.2.2.2.1 1 false _ (.tail _ (.tail _ (.tail _ (.tail _ (.head _)))))) (signing false) :=
  ⟨(by decide +kernel),
    (by decide +kernel),
    (by decide +kernel),
    (by decide +kernel),
    (by decide +kernel),
    by decide +kernel⟩

theorem witness_EveryCommandHasItsEffect_7 :
    Met (fun h : Obligations.EveryCommandHasItsEffect => (h (ns 7)).2.2.2.2.2.2.2.2.2.2.2.2.2.1 1 false _ (.tail _ (.tail _ (.tail _ (.tail _ (.tail _ (.head _))))))) (signing false) ∧
    Met (fun h : Obligations.EveryCommandHasItsEffect => (h (ns 7)).2.2.2.2.2.2.2.2.2.2.2.2.2.2.1 true true none none none [] 20 33 0x48 100 _ (.head _)) (pmDev (fun p => { p with opReq := 2 })) ∧
    Met (fun h : Obligations.EveryCommandHasItsEffect => (h (ns 7)).2.2.2.2.2.2.2.2.2.2.2.2.2.2.1 true true none none none [] 20 33 0x48 100 _ (.tail _ (.tail _ (.head _)))) (bare) ∧
    Met (fun h : Obligations.EveryCommandHasItsEffect => (h (ns 7)).2.2.2.2.2.2.2.2.2.2.2.2.2.2.1 true true none none none [] 20 33 0x48 100 _ (.tail _ (.tail _ (.tail _ (.tail _ (.tail _ (.tail _ (.tail _ (.tail _ (.head _)))))))))) (bare) ∧
    Met (fun h : Obligations.EveryCommandHasItsEffect => (h (ns 7)).2.2.2.2.2.2.2.2.2.2.2.2.2.2.1 true true none none none [] 20 33 0x48 100 _ (.tail _ (.tail _ (.tail _ (.tail _ (.tail _ (.tail _ (.tail _ (.tail _ (.tail _ (.tail _ (.tail _ (.tail _ (.tail _ (.tail _ (.tail _ (.head _))))))))))))))))) (bare) ∧
    MetState (fun h : Obligations.EveryCommandHasItsEffect => (h (ns 7)).2.2.2.2.2.2.2.2.2.2.2.2.2.2.2.1 false true [] ⟨true, false⟩ 2000 _ (.head _)) (at_ romDev) :=
  ⟨(by decide +kernel),
    (by decide +kernel),
    (by decide +kernel),
    (by decide +kernel),
    (by decide +kernel),
    by decide +kernel⟩

theorem witness_EveryCommandHasItsEffect_8 : MetState (fun h : Obligations.EveryCommandHasItsEffect => (h (ns 7)).2.2.2.2.2.2.2.2.2.2.2.2.2.2.2.1 false true [] ⟨true, false⟩ 100000 _ (.tail _ (.tail _ (.tail _ (.tail _ (.tail _ (.tail _ (.tail _ (.head _))))))))) (at_ dev) :=
  by decide +kernel

/-! ### Statements that are not about one command's effect -/

def next? (r : Result) : Bool := match r with | .next _ => true | _ => false

/-- Witness of StepsKeepSound and FusesAreNeverCleared: a sound state from which a step answers a next state. -/
theorem witness_StepsKeepSound : State.reset.sound ∧ step { State.reset with pending := [.linkUp (ns 7) 0 false] } ≠ .refused .factoryTestState ∧
    next? (step { State.reset with pending := [.linkUp (ns 7) 0 false] }) = true := by
  refine ⟨⟨by decide +kernel, by decide +kernel, by decide +kernel⟩, ?_, by decide +kernel⟩
  intro h
  have : next? (step { State.reset with pending := [.linkUp (ns 7) 0 false] }) = true := by decide +kernel
  rw [h] at this; exact absurd this (by decide)

theorem witness_CommandsLeaveTheRest : (Instr.linkUp (ns 7) 0 false).reachesStore = false ∧ next? (exec (.linkUp (ns 7) 0 false) (at_ dev)) = true :=
  ⟨rfl, by decide +kernel⟩

/-- The straps of the factory test state. -/
def testDev : Chip := bare.updId (fun d => { d with straps := { testMode := true } })

theorem witness_OnlyFactoryTestRefuses : testDev.id.straps.testMode = true ∧ next? (exec (.linkUp (ns 7) 0 false) (at_ testDev)) = false :=
  ⟨rfl, by decide +kernel⟩

/-- The device in power-on reset. -/
def porDev : Chip := { bare with por := true }

theorem witness_PowerOnResetHoldsEverything : porDev.por = true ∧ porDev.id.straps.testMode = false ∧
    ∀ dt role addr mode, Instr.linkUp (ns 7) 0 false ≠ .powerOnReset dt role addr mode := ⟨rfl, rfl, nofun⟩

theorem witness_ResetsAndWaking_power : porDev.por = true ∧ dev.por = false := ⟨rfl, rfl⟩

/-- Two entries of the region table, each in a slot of its own. -/
def entryOf (slot : Nat) : Entry :=
  { repl := false, rdonly := false, device := false, owner := 0, plost := false, rlost := false, decl := 20, pch := 0, pslot := slot,
    rch := 0, rslot := 0 }

def tableDev : Chip := bare.updMc (fun m => { m with table := [(0, entryOf 3), (1, entryOf 5)] })

theorem tableDev_entry (i : Nat) (e : Entry) (h : tableDev.entry i = some e) : i = 0 ∧ e = entryOf 3 ∨ i = 1 ∧ e = entryOf 5 := by
  have hx : tableDev.entry i = assoc i [(0, entryOf 3), (1, entryOf 5)] := rfl
  rw [hx] at h
  by_cases h0 : i = 0
  · subst h0; left; exact ⟨rfl, (Option.some.inj h).symm⟩
  · by_cases h1 : i = 1
    · subst h1; right; exact ⟨rfl, (Option.some.inj h).symm⟩
    · have e0 : (0 == i) = false := by simpa using fun h => h0 h.symm
      have e1 : (1 == i) = false := by simpa using fun h => h1 h.symm
      simp [assoc, e0, e1] at h

theorem witness_MemoriesReadWhatWasWritten : tableDev.dram.wf = true ∧ tableDev.slotsApart ∧ tableDev.entry 1 = some (entryOf 5) ∧
    (entryOf 5).withdrawn = false ∧ tableDev.basin.wf = true ∧ [0, 3].Nodup ∧ 2 ^ 24 - 2 + [1, 2, 3, 4].length ≤ [0, 3].length * 2 ^ 24 := by
  refine ⟨rfl, fun i j e f hi hj hn x hx hy => ?_, rfl, rfl, rfl, by decide, by decide⟩
  have w3 : (entryOf 3).writeAt 0 = [3 * 2 ^ 20] := by decide +kernel
  have w5 : (entryOf 5).writeAt 0 = [5 * 2 ^ 20] := by decide +kernel
  rcases tableDev_entry i e hi with ⟨rfl, rfl⟩ | ⟨rfl, rfl⟩ <;> rcases tableDev_entry j f hj with ⟨rfl, rfl⟩ | ⟨rfl, rfl⟩
  · exact hn rfl
  · rw [w3] at hx; rw [w5] at hy; simp at hx hy; omega
  · rw [w5] at hx; rw [w3] at hy; simp at hx hy; omega
  · exact hn rfl

theorem witness_OutputsShowTheLatestSlot_choice : 
    (slotDev 9).chooseSlot stream3 false [50 * 2 ^ 20] 1000000000 = some (9, 50 * 2 ^ 20) := by decide +kernel

theorem witness_TheLedgerIsChained_append : dev.lgRecords ≠ 0 ∧ dev.lg.started = true := ⟨by decide +kernel, rfl⟩

theorem witness_SnapshotsLatchOnce_trigger : dev.sn.enabled 5 = true ∧ dev.sn.held = false ∧
    (dev.updSn (fun s => { s with held := true })).sn.enabled 5 = true := ⟨rfl, rfl, rfl⟩

theorem witness_CommandsAreTakenInOrder_cache : ((dev.updPl (fun p => { p with next := 6 })).pl.next - (qcp 5 []).seq).toNat ≤ 64 := by decide

/-! ### Well-formedness refuses -/

def badRx : RxInfo := { rxQcp with port := 8 }

theorem test_wf_ports : (Instr.linkUp (ns 0) 8 false).wf = false ∧ (Instr.linkDown (ns 0) 8).wf = false ∧ (Instr.portRoleWrite (ns 0) .host 8 0).wf = false ∧
    (Instr.portDownWrite (ns 0) .host 8 0).wf = false ∧ (Instr.mkaLifeExpiry (ns 0) 8).wf = false ∧ (Instr.mkaHelloTime (ns 0) 8).wf = false ∧
    (Instr.bestMasterSelection (ns 0) (some 8)).wf = false ∧ (Instr.linkUp (ns 0) 7 false).wf = true := by decide

theorem test_wf_frames : (Instr.qcpNop (ns 0) { qcp 0 [] with rx := badRx }).wf = false ∧ (Instr.rxFrameDrop (ns 0) badRx false).wf = false ∧
    (Instr.rxFrameDrop (ns 0) { rxQcp with sec := .tagged 5 4 0 true } false).wf = false ∧
    (Instr.rxFrameDrop (ns 0) { rxQcp with sec := .tagged 5 0 (2 ^ 64) true } false).wf = false ∧
    (Instr.syncReceived (ns 0) { sync0 0 with logInterval := 128 }).wf = false ∧ (Instr.syncReceived (ns 0) { sync0 0 with logInterval := -129 }).wf = false ∧
    (Instr.mkaFrame (ns 0) { mka0 true true with sak := some { xpn256 := true, an := 4, peers := [] } }).wf = false ∧
    (Instr.rvfPacket (ns 0) { rvf0 with version := 8 }).wf = false ∧ (Instr.rvfPacket (ns 0) { rvf0 with depth := 16 }).wf = false ∧
    (Instr.rvfPacket (ns 0) { rvf0 with format := 16 }).wf = false ∧ (Instr.rvfPacket (ns 0) { rvf0 with width := 65536 }).wf = false ∧
    (Instr.rvfPacket (ns 0) { rvf0 with height := 65536 }).wf = false ∧ (Instr.rvfPacket (ns 0) { rvf0 with firstLine := 65536 }).wf = false ∧
    (Instr.rvfPacket (ns 0) { rvf0 with lines := 256 }).wf = false ∧ (Instr.rvfPacket (ns 0) rvf0).wf = true := by decide

theorem test_wf_lengths : (qcp 0 (zeros 65536)).wf = false ∧
    (RawQcp.mk rxQcp 1 0 0 (zeros 65536)).wf = false ∧ (pwp 0 0 0 0 0 0 0 (zeros 65536)).wf = false := by
  have h : (zeros 65536).length = 65536 := List.length_replicate
  simp [QcpFrame.wf, RawQcp.wf, PwpFrame.wf, qcp, pwp, h]

theorem test_wf_numbers : (Instr.registerWrite (ns 0) (.core 4) 0 0).wf = false ∧ (Instr.registerWrite (ns 0) .host (2 ^ 32) 0).wf = false ∧
    (Instr.latchingLoRead (ns 0) .host (2 ^ 32)).wf = false ∧ (Instr.icClaim (ns 0) .host 5 0).wf = false ∧ (Instr.icEoi (ns 0) .host 5 0).wf = false ∧
    (Instr.peerDisable (ns 0) .host 255 0).wf = false ∧ (Instr.sealComplete (ns 0) 65536).wf = false ∧ (Instr.validationEnd (ns 0) (some 8388608)).wf = false ∧
    (Instr.graceExpiry (ns 0) 256).wf = false ∧ (Instr.evidenceCopyDone (ns 0) 256 []).wf = false ∧
    (Instr.motionJobStart (ns 0) [.word (2 ^ 29) false]).wf = false ∧ (Instr.matmul (ns 0) 32 []).wf = false ∧
    (Instr.copy (ns 0) 0 [.basin 0 (2 ^ 29) true]).wf = false ∧ (Instr.qcpBulkRead (ns 0) (qcp 0 []) [{ addr := 2 ^ 37, symbols := 1, fails := true, replicaFails := false }]).wf = false ∧
    (Instr.waitSatisfied (ns 0) 0 256 0).wf = false ∧ (Instr.waitSatisfied (ns 0) 0 0 65536).wf = false ∧ (Instr.tideMarker (ns 0) 8192 false).wf = false ∧
    (Instr.kernelPlace (ns 0) 8).wf = false ∧ (Instr.swapOutDone (ns 0) 16).wf = false ∧ (Instr.quantumExpiry (ns 0) 256).wf = false ∧
    (Instr.basinScrub (ns 0) [⟨2 ^ 29, true⟩]).wf = false ∧ (Instr.dramScrub (ns 0) 16 0 []).wf = false ∧ (Instr.dramScrub (ns 0) 0 8192 []).wf = false ∧
    (Instr.vblankStart (ns 0) 4 []).wf = false ∧ (Instr.vblankStart (ns 0) 3 [(2160, 0, 1)]).wf = false ∧ (Instr.tornCheck (ns 0) 64).wf = false ∧ (Instr.thermalSample (ns 0) [0]).wf = false ∧
    (Instr.domainSwitchOn (ns 0) 96).wf = false ∧ (Instr.i2cAddressMatch (ns 0) 128).wf = false ∧ (Instr.coreWatchdog (ns 0) 4).wf = false ∧
    (Instr.boot (ns 0) false [⟨16, true⟩]).wf = false ∧ (Instr.dqsCheck (ns 0) 16 0 true).wf = false := by decide

theorem test_wf_when : (Instr.pmbAlert { errs := [{ addr := 2 ^ 37, symbols := 1, fails := true, replicaFails := false }] }).wf = false ∧
    (Instr.pmbAlert { errs := [{ addr := 0, symbols := 9, fails := false, replicaFails := false }] }).wf = false ∧
    (Instr.pmbAlert { fails := [.word (2 ^ 29) false] }).wf = false ∧ (Instr.pmbAlert (ns 7)).wf = true := by decide

/-- No row of the table gives bits, so no word spells a command. -/
theorem test_decode (n w : Nat) : decodeTableWord n w = none ∧ (at_ dev).withFetchWord n w = at_ dev := ⟨rfl, rfl⟩

/-! ### Worked examples of the spec -/

/-- R190: seed 1, the first draw and the state after it. -/
theorem test_xs64 : xs64 1 = (0x47E4CE4B896CDD1D, 0x0000000002000001) := by decide +kernel

/-- R163, R164: ties go away from zero. -/
theorem test_ties : rna32 false (2 ^ 24 + 1) 1 0 = 0x4B800001 ∧ satA16 0x3A400000 12 = 3 ∧ satA16 0xC069A200 12 = -14953 := by decide +kernel

/-- R105: an exact half rounds up. -/
theorem test_sample : (Plane.mk 2 1 #[100, 101]).sample 2 0 = 101 := by decide +kernel

/-- Chapter 04's depth pair: ring entries of stream 52 and the disparity offsets of two of its pixels (R104, R114, R119). -/
theorem test_depth_pair :
    { stream3 with w := 960, h := 540 }.motionBytes = 32768 ∧ { stream3 with w := 960, h := 540 }.dispBytes = 1564672 ∧
      subpel #[212, 140, 188] 1 = 2 ∧ subpel #[111, 100, 121] 1 = -3 ∧ subpel #[413, 410, 412] 1 = 2 := by decide +kernel

/-- R168: the weight stream of the serving MATMUL. -/
theorem test_stream_length : (WStream.mk 4096 4096 128 true false).blocks = 4224 ∧ (WStream.mk 4096 4096 128 true false).tagLen = 4224 ∧
    (WStream.mk 4096 4096 128 true false).len = 8720512 := by decide +kernel

/-- Chapter 06's classifier: channels 5 to 8 over the two groups, with lanes 3, 17, 40 and 63 not zero (R170 to R177). -/
def lanes0 : List Lane := (((((List.replicate 64 (Lane.all 0)).set 3 (.all 1200)).set 17 (.all (-350))).set 40 (.all 96)).set 63 (.all (-7)))

def block0 : WBlock :=
  { groups := [((((List.replicate 32 [0, 0, 0, 0]).set 3 [37, -37, 37, 37]).set 17 [-90, 90, -90, -90]),
        [dyad16 0x2000, dyad16 0x2000, dyad16 0x3000, dyad16 0x2000]),
      (((List.replicate 32 [0, 0, 0, 0]).set 8 [101, -101, 101, 101]).set 31 [-127, 127, -127, -127],
        [dyad16 0x2C00, dyad16 0x2C00, dyad16 0x2C00, dyad16 0x7E00])]
    bias := [0xBFA00000, 0x3FA00000, 0, 0xBFA00000] }

theorem test_classifier : (tileChain (WStream.mk 64 64 32 true true) block0 8 lanes0).map (fun y => satA16 y 12) =
    [14953, -14953, 32767, 4368] := by decide +kernel

/-- R238, R239: the dithered group of chapter 08's pack and its five bytes; without dither Y0 and Y1 are exact halves. -/
theorem test_pack : packRow (pixCodes 6 (some 1) [6432, 32736, -200, 4096]) = [0x65, 0xFC, 0x07, 0x00, 0x10] ∧
    pixCodes 6 none [6432, 32736] = [101, 512] := by decide +kernel

/-- R275: the query of chapter 09 against three keys. -/
theorem test_attend : (attBlock 8 8 8 (dyad16 0x3C00) [256, 0] [([512, 0], [1000, -128]), ([256, 0], [-2000, -128]), ([0, 0], [600, -128])] none).map
    (fun r => r.acc.map (fun a => satA16 (fDiv a r.sum) 8)) = some [230, -128] := by decide +kernel

/-- R390: what output 1 of chapter 13 tries, in order. -/
theorem test_combos : { out1 with mode := 3, bpc := 10, lanes := 4, rate := 2 }.combos = [(4, 2), (4, 1), (4, 0), (2, 2)] := by decide +kernel

/-- FIPS 180-4: the digest of the three octets abc (R41 and others hash with SHA-256). -/
theorem test_sha256 : sha256 [0x61, 0x62, 0x63] = 0xBA7816BF8F01CFEA414140DE5DAE2223B00361A396177A9CB410FF61F20015AD := by decide +kernel

/-- R379: source 784 raised twice is claimed with its count. -/
theorem test_claim : (2 * 2 ^ 24 + 784 : Nat) = 0x02000310 ∧
    vget 0 ((bare.updIc (fun ic => { ic with count := vset ic.count 784 2 })).raise 784 []).ic.count 784 = 3 := by decide +kernel


end Sys2Proof.Tests
end

section
/-! PROOFS. The statements on the scope of the model: accesses to registers (O10, O11), the state after power-on reset (O2) and the effect of
every command (O5). -/

namespace Sys2Proof.Machine

/-! ### Accesses to registers (R5 to R16, R93) -/

theorem Chip.reaches_of_up {c : Chip} (who : Master) (h : c.up = true) : c.reaches who = true := by
  simp [Chip.reaches, h]

/-- The Harbourmaster reaches the registers in a watch cycle (R488). -/
theorem Chip.reaches_of_watchCycle {c : Chip} (hp : c.por = false) (hs : c.lh.st = .watchCycle) : c.reaches .harbourmaster = true := by
  simp [Chip.reaches, hp, hs]

/-- A write of a register of a block window, at offset o, has the effect that the block's table of writes gives it; the registers that
regWrite treats apart are SY_SIGNAL, SY_RESET and TT_CTX_RESTART. -/
theorem Writes.of_effect {addr w o : Nat} {effect : Word → Chip → Chip}
    (hplace : addr % 4 = 0 ∧ addr < 0x140000 ∧ addr / 2 ^ 16 = w ∧ addr % 2 ^ 16 = o)
    (hplain : ¬ (w = 0x0A ∧ (o = 0x10 ∨ o = 0x14)) ∧ ¬ (w = 7 ∧ o = 0x2C))
    (hanswers : ∀ c : Chip, (c.readWindow w o).isNone = false)
    (hallowed : ∀ (c : Chip) who v, c.writeRefused who w o v = none)
    (heffect : ∀ (c : Chip) v, (c.writeWindow w o v).getD c = effect v c) : Writes addr w effect := by
  obtain ⟨haligned, hblock, hw, ho⟩ := hplace
  intro dt who v
  refine Does.of_run (exec_registerWrite dt who addr v) (fun b h => Chip.reaches_of_up who h.1) (fun b h => ?_)
  rw [Chip.busWrite_eq haligned hblock hw ho h.2 (hanswers b) (hallowed b who v) hplain.1 hplain.2, heffect]

/-- The same for an address in numbers, whose place and row of the tables of reads and writes are found by evaluation. -/
theorem Writes.of_window {addr w : Nat} {effect : Word → Chip → Chip}
    (hplace : addr % 4 = 0 ∧ addr < 0x140000 ∧ addr / 2 ^ 16 = w := by decide)
    (hplain : ¬ (w = 0x0A ∧ (addr % 2 ^ 16 = 0x10 ∨ addr % 2 ^ 16 = 0x14)) ∧ ¬ (w = 7 ∧ addr % 2 ^ 16 = 0x2C) := by decide)
    (hanswers : ∀ c : Chip, (c.readWindow w (addr % 2 ^ 16)).isNone = false := by intros; rfl)
    (hallowed : ∀ (c : Chip) who v, c.writeRefused who w (addr % 2 ^ 16) v = none := by intros; rfl)
    (heffect : ∀ (c : Chip) v, (c.writeWindow w (addr % 2 ^ 16) v).getD c = effect v c := by intros; rfl) :
    Writes addr w effect :=
  .of_effect ⟨hplace.1, hplace.2.1, hplace.2.2, rfl⟩ hplain hanswers hallowed heffect

/-! ### Addresses that no register answers (R8, R11, R12, R15) -/

/-- No register answers an access to the address: nothing lies there, or what does has its domain off (R8, R11, R12, R15). -/
def Chip.silent (c : Chip) (addr : Nat) : Prop :=
  c.regPlace addr = none ∨ (∃ w o, c.regPlace addr = some (.block w o) ∧ c.windowOn w = false) ∨
    ∃ n o, c.regPlace addr = some (.array n o) ∧ c.arrayOff n = true

theorem Chip.busWrite_silent {c : Chip} {addr : Nat} (who : Master) (v : Word) (h : c.silent addr) :
    c.busWrite who addr v = c.answer (.error addr) := by
  obtain h | ⟨w, o, h, hoff⟩ | ⟨n, o, h, hoff⟩ := h
  · simp [Chip.busWrite, Chip.regWrite, h]
  · have hoff : (windowDomain w).any c.isOff = true := by simpa [Chip.windowOn] using hoff
    simp [Chip.busWrite, Chip.regWrite, h, hoff]
  · simp [Chip.busWrite, Chip.regWrite, h, hoff]

theorem Chip.busRead_silent {c : Chip} {addr : Nat} (h : c.silent addr) : c.busRead addr = c.answer (.error addr) := by
  have hread : c.regRead addr = none := by
    obtain h | ⟨w, o, h, hoff⟩ | ⟨n, o, h, hoff⟩ := h
    · simp [Chip.regRead, h]
    · have hoff : (windowDomain w).any c.isOff = true := by simpa [Chip.windowOn] using hoff
      simp [Chip.regRead, h, hoff]
    · simp [Chip.regRead, h, hoff]
  simp [Chip.busRead, hread]

/-- Where no register answers, a write and a read have no effect but an error response with the address. -/
theorem Does.of_silent {dt : When} {who : Master} {addr : Nat} {v : Word} {hyp : Chip → Prop}
    (hreach : ∀ b, hyp b → b.reaches who = true) (hsilent : ∀ b, hyp b → b.silent addr) :
    Does (.registerWrite dt who addr v) dt hyp (fun b e => e = b.answer (.error addr)) ∧
      Does (.latchingLoRead dt who addr) dt hyp (fun b e => e = b.answer (.error addr)) :=
  ⟨Does.of_run (exec_registerWrite dt who addr v) hreach (fun b h => Chip.busWrite_silent who v (hsilent b h)),
    Does.of_run (exec_latchingLoRead dt who addr) hreach (fun b h => Chip.busRead_silent (hsilent b h))⟩

theorem Grade.arrays_le (g : Grade) : g.arrays ≤ 32 := by cases g <;> decide
theorem Grade.ports_le (g : Grade) : g.ports ≤ 8 := by cases g <;> decide

theorem Chip.regPlace_misaligned {c : Chip} {addr : Nat} (h : addr % 4 ≠ 0) : c.regPlace addr = none := by
  simp [Chip.regPlace, h]

/-- Nothing lies between the ranges of R11, nor above the last. -/
theorem Chip.regPlace_gap {c : Chip} {addr : Nat} (hblock : 0x00140000 ≤ addr)
    (harray : addr < 0x01000000 ∨ 0x01000000 + c.id.grade.arrays * 2 ^ 16 ≤ addr) (hobject : addr < 0x02000000 ∨ 0x02080000 ≤ addr)
    (hregion : addr < 0x03000000 ∨ 0x03100000 ≤ addr) : c.regPlace addr = none := by
  by_cases h : addr % 4 = 0
  · simp only [Chip.regPlace, Bool.and_eq_true, decide_eq_true_eq]
    rw [if_neg (by omega), if_neg (by omega), if_neg (by omega), if_neg (by omega), if_neg (by omega)]
  · exact Chip.regPlace_misaligned h

/-- A block window whose domain is off. -/
theorem Chip.silent_of_windowOff {c : Chip} {addr : Nat} (hblock : addr < 0x00140000) (hoff : c.windowOn (addr / 2 ^ 16) = false) :
    c.silent addr := by
  by_cases h : addr % 4 = 0
  · exact .inr (.inl ⟨_, _, Chip.regPlace_block h hblock, hoff⟩)
  · exact .inl (Chip.regPlace_misaligned h)

/-- An aligned address of a per-array window that the grade has. -/
theorem Chip.regPlace_array {c : Chip} {addr : Nat} (h : addr % 4 = 0) (hlo : 0x01000000 ≤ addr)
    (hhi : addr < 0x01000000 + c.id.grade.arrays * 2 ^ 16) : c.regPlace addr = some (.array (addr / 2 ^ 16 % 2 ^ 8) (addr % 2 ^ 16)) := by
  simp only [Chip.regPlace, Bool.and_eq_true, decide_eq_true_eq]
  rw [if_neg (by omega), if_neg (by omega), if_pos ⟨hlo, hhi⟩]

/-- A per-array window whose array is off, or that the grade lacks. -/
theorem Chip.silent_of_arrayOff {c : Chip} {addr : Nat} (hlo : 0x01000000 ≤ addr) (hhi : addr < 0x01200000)
    (hoff : c.arrayOff (addr / 2 ^ 16 % 2 ^ 8) = true) : c.silent addr := by
  by_cases h : addr % 4 = 0
  · by_cases hgrade : addr < 0x01000000 + c.id.grade.arrays * 2 ^ 16
    · exact .inr (.inr ⟨_, _, Chip.regPlace_array h hlo hgrade, hoff⟩)
    · exact .inl (Chip.regPlace_gap (by omega) (.inr (by omega)) (by omega) (by omega))
  · exact .inl (Chip.regPlace_misaligned h)

/-- Outside the ranges of R11, whatever the grade. -/
theorem Chip.silent_of_unplaced {c : Chip} {addr : Nat}
    (h : addr % 4 ≠ 0 ∨ 0x00140000 ≤ addr ∧ addr < 0x01000000 ∨ 0x01200000 ≤ addr ∧ addr < 0x02000000 ∨
      0x02080000 ≤ addr ∧ addr < 0x03000000 ∨ 0x03100000 ≤ addr) : c.silent addr := by
  have hg := c.id.grade.arrays_le
  obtain h | h := h
  · exact .inl (Chip.regPlace_misaligned h)
  · exact .inl (Chip.regPlace_gap (by omega) (by omega) (by omega) (by omega))

/-- A logical array that a DX3230 lacks. -/
theorem Chip.silent_of_dx3230 {c : Chip} {addr : Nat} (hg : c.id.grade = .dx3230) (hlo : 0x01100000 ≤ addr) (hhi : addr < 0x01200000) :
    c.silent addr :=
  have harrays : c.id.grade.arrays = 16 := by rw [hg]; rfl
  .inl (Chip.regPlace_gap (by omega) (by omega) (by omega) (by omega))

/-- Settles O11: a read-only register has no row in its block's table of writes, and the five hypotheses each make the address silent. -/
theorem otherAccesses : Obligations.OtherAccesses := by
  unfold Obligations.OtherAccesses
  refine ⟨?_, fun dt who addr v => ?_⟩
  · simp only [List.forall_mem_cons, List.not_mem_nil, false_imp_iff, implies_true, and_true]
    and_intros <;> exact .of_window
  · simp only [List.forall_mem_cons, List.not_mem_nil, false_imp_iff, implies_true, and_true]
    refine ⟨?unplaced, ?lacking, ?windowOff, ?watchCycle, ?arrayOff⟩
    case unplaced =>
      exact Does.of_silent (fun b h => Chip.reaches_of_up who h.1) (fun b h => Chip.silent_of_unplaced h.2)
    case lacking =>
      exact Does.of_silent (fun b h => Chip.reaches_of_up who h.1) (fun b ⟨_, hg, hlo, hhi⟩ => Chip.silent_of_dx3230 hg hlo hhi)
    case windowOff =>
      exact Does.of_silent (fun b h => Chip.reaches_of_up who h.1) (fun b ⟨_, hblock, hoff⟩ => Chip.silent_of_windowOff hblock hoff)
    case watchCycle =>
      exact Does.of_silent (fun b ⟨hpor, hst, hwho, _⟩ => hwho ▸ Chip.reaches_of_watchCycle hpor hst)
        (fun b ⟨_, _, _, hblock, hoff⟩ => Chip.silent_of_windowOff hblock hoff)
    case arrayOff =>
      exact Does.of_silent (fun b h => Chip.reaches_of_up who h.1) (fun b ⟨_, hlo, hhi, hoff⟩ => Chip.silent_of_arrayOff hlo hhi hoff)

/-! ### Tables of registers -/

/-- The per-stream registers of QY lie past its ports, whatever the grade. -/
theorem Chip.inTable_ports_miss (c : Chip) {o : Nat} (h : 0x8000 ≤ o) : inTable 0x1000 0x100 c.id.grade.ports o = none := by
  have := c.id.grade.ports_le
  exact inTable_miss (by omega)

theorem Chip.readWindow_stream (c : Chip) {s r : Nat} (hs : s < 256) (hr : r < 0x40) :
    c.readWindow 1 (0x8000 + 0x40 * s + r) = c.readStream s r := by
  simp only [Chip.readWindow, Chip.readQy]
  split
  case h_9 => rw [c.inTable_ports_miss (by omega), inTable_hit rfl hs hr]
  all_goals omega

theorem Chip.writeWindow_stream (c : Chip) {s r : Nat} (v : Word) (hs : s < 256) (hr : r < 0x40) :
    c.writeWindow 1 (0x8000 + 0x40 * s + r) v = c.writeStream s r v := by
  simp only [Chip.writeWindow, Chip.writeQy]
  split
  case h_2 => rw [c.inTable_ports_miss (by omega), inTable_hit rfl hs hr]
  all_goals omega

theorem Chip.readWindow_pubRate (c : Chip) {w : Nat} (hw : w < 256) :
    c.readWindow 0x12 (0x4000 + 0x10 * w + 0xC) = some (vget {} c.pl.pub w).rate := by
  simp only [Chip.readWindow, Chip.readPl]
  split
  case h_16 =>
    rw [inTable_miss (by omega), inTable_hit rfl hw (by omega)]
    rfl
  all_goals omega

theorem Chip.writeWindow_pub (c : Chip) {w r : Nat} (v : Word) (hw : w < 256) (hr : r < 0x10) :
    c.writeWindow 0x12 (0x4000 + 0x10 * w + r) v = c.writePub w r v := by
  simp only [Chip.writeWindow, Chip.writePl]
  split
  case h_6 => rw [inTable_miss (by omega), inTable_hit rfl hw hr]
  all_goals omega

/-- QY_STREAM_GRACE[s] stores its clamped field (R98). -/
theorem writes_streamGrace {s : Nat} (hs : s < 256) : Writes (0x18030 + 0x40 * s) 1
    (fun v => Chip.updStream s (fun q => { q with grace := w32 (clampNat 0 10000 (v.toNat % 2 ^ 14)) })) := by
  refine .of_effect (o := 0x8000 + 0x40 * s + 0x30) (by omega) (by omega) (fun c => ?_) (fun _ _ _ => rfl) (fun c v => ?_)
  · rw [c.readWindow_stream hs (by omega)]
    rfl
  · rw [c.writeWindow_stream v hs (by omega)]
    rfl

/-- PL_PUB_RATE[w] stores its clamped field (R435). -/
theorem writes_pubRate {w : Nat} (hw : w < 256) : Writes (0x12400C + 0x10 * w) 0x12
    (fun v => Chip.setPub w (fun p => { p with rate := w32 (clampNat 1 4096 (v.toNat % 2 ^ 13)) })) := by
  refine .of_effect (o := 0x4000 + 0x10 * w + 0xC) (by omega) (by omega) (fun c => ?_) (fun _ _ _ => rfl) (fun c v => ?_)
  · rw [c.readWindow_pubRate hw]
    rfl
  · rw [c.writeWindow_pub v hw (by omega)]
    rfl

/-! ### Reads -/

theorem Chip.busRead_of_regRead {c : Chip} {addr : Nat} {w : Word} (h : c.regRead addr = some w) :
    c.busRead addr = (c.regTouch addr).answer (.value w) := by
  simp [Chip.busRead, h]

theorem Chip.regTouch_of_latchOf {c : Chip} {addr : Nat} {w x : Word} {hold : Word → Chip → Chip} (hread : c.regRead addr = some w)
    (hlatch : c.latchOf addr = some (x, hold)) : c.regTouch addr = hold x c := by
  simp [Chip.regTouch, hlatch, hread]

/-- A read of a block window whose domain is on. -/
theorem Chip.regRead_window {c : Chip} {addr w o : Nat} (h4 : addr % 4 = 0) (hk : addr < 0x140000) (hw : addr / 2 ^ 16 = w)
    (ho : addr % 2 ^ 16 = o) (hon : c.windowOn w = true) : c.regRead addr = c.readWindow w o := by
  have hon : (windowDomain w).any c.isOff = false := by simpa [Chip.windowOn] using hon
  simp only [Chip.regRead, Chip.regPlace_block h4 hk, hw, ho, hon]
  rfl

/-- A count at an address in numbers: a read of its low word latches the upper one, where the tables of reads and of latches say so and
the latch switches no domain. -/
theorem Latches.of_window {low w : Nat} {count : Chip → Nat} {hold : Word → Chip → Chip}
    (hplace : low % 4 = 0 ∧ low + 4 < 0x140000 ∧ low / 2 ^ 16 = w ∧ (low + 4) / 2 ^ 16 = w := by decide)
    (hlow : ∀ c : Chip, c.readWindow w (low % 2 ^ 16) = some (loOf (count c)) := by intros; rfl)
    (hhigh : ∀ (c : Chip) x r, ((hold x c).answer r).readWindow w ((low + 4) % 2 ^ 16) = some x := by intros; rfl)
    (hlatch : ∀ c : Chip, c.latchOf low = some (hiOf (count c), hold) := by intros; rfl)
    (hon : ∀ (c : Chip) x r, ((hold x c).answer r).windowOn w = c.windowOn w := by intros; rfl) :
    Latches low w count hold := by
  obtain ⟨haligned, hblock, hw, hw'⟩ := hplace
  intro dt who
  refine Does.of_run (exec_latchingLoRead dt who low) (fun b h => Chip.reaches_of_up who h.1) (fun b h => ?_)
  have hread : b.regRead low = some (loOf (count b)) := by
    rw [Chip.regRead_window haligned (by omega) hw rfl h.2, hlow]
  have hbus : b.busRead low = (hold (hiOf (count b)) b).answer (.value (loOf (count b))) := by
    rw [Chip.busRead_of_regRead hread, Chip.regTouch_of_latchOf hread (hlatch b)]
  refine ⟨hbus, ?_⟩
  rw [hbus, Chip.regRead_window (by omega) hblock hw' rfl (by rw [hon]; exact h.2), hhigh]

/-- AR_BUSY of a logical array that is on answers its low word and latches the upper one. -/
theorem Chip.busRead_arrBusy {c : Chip} {n : Nat} (hn : n < c.id.grade.arrays) (hon : c.arrayOff n = false) :
    c.busRead (0x01000020 + 2 ^ 16 * n) =
      (c.updArr n (fun a => { a with busyHi := hiOf (c.arr n).busy })).answer (.value (loOf (c.arr n).busy)) := by
  have hg := c.id.grade.arrays_le
  have hplace : c.regPlace (0x01000020 + 2 ^ 16 * n) = some (.array n 0x20) := by
    rw [Chip.regPlace_array (by omega) (by omega) (by omega), show (0x01000020 + 2 ^ 16 * n) / 2 ^ 16 % 2 ^ 8 = n by omega,
      show (0x01000020 + 2 ^ 16 * n) % 2 ^ 16 = 0x20 by omega]
  have hread : c.regRead (0x01000020 + 2 ^ 16 * n) = some (loOf (c.arr n).busy) := by
    simp only [Chip.regRead, hplace, hon]
    rfl
  rw [Chip.busRead_of_regRead hread, Chip.regTouch_of_latchOf hread (by simp only [Chip.latchOf, hplace]; rfl)]

/-! ### The region table (R14, R343) -/

theorem Chip.regPlace_region (c : Chip) {o : Nat} (h4 : o % 4 = 0) (ho : o < 0x100000) :
    c.regPlace (0x03000000 + o) = some (.region o) := by
  have hg := c.id.grade.arrays_le
  simp only [Chip.regPlace, Bool.and_eq_true, decide_eq_true_eq]
  rw [if_neg (by omega), if_neg (by omega), if_neg (by omega), if_neg (by omega), if_pos (by omega), Nat.add_sub_cancel_left]

/-- A read of a word of an entry answers it and does nothing else. -/
theorem Chip.busRead_region (c : Chip) {k half : Nat} (hk : k < 131072) (hhalf : half < 2) :
    c.busRead (0x03000000 + 8 * k + 4 * half) =
      c.answer (.value (let w := match c.entry k with | some x => x.word | none => 0
        if half = 0 then loOf w else hiOf w)) := by
  have hplace : c.regPlace (0x03000000 + 8 * k + 4 * half) = some (.region (8 * k + 4 * half)) := by
    rw [Nat.add_assoc]
    exact c.regPlace_region (by omega) (by omega)
  have htouch : c.regTouch (0x03000000 + 8 * k + 4 * half) = c := by simp [Chip.regTouch, Chip.latchOf, hplace]
  have hdiv : (8 * k + 4 * half) / 8 = k := by omega
  have hmod : (8 * k + 4 * half) % 8 = 0 ↔ half = 0 := by omega
  simp only [Chip.busRead, htouch, Chip.regRead, hplace, hdiv, hmod]
  by_cases h : half = 0
  · cases c.entry k <;> simp [h]
  · cases c.entry k <;> simp [h]

theorem Chip.busWrite_region (c : Chip) (who : Master) (v : Word) {o : Nat} (h4 : o % 4 = 0) (ho : o < 0x100000) :
    c.busWrite who (0x03000000 + o) v = c.answer (.error (0x03000000 + o)) := by
  simp [Chip.busWrite, Chip.regWrite, c.regPlace_region h4 ho]

/-- Settles O10: ranged fields and W1C bits by the tables of writes, the region table by its place, the counts by the table of latches. -/
theorem registerAccesses : Obligations.RegisterAccesses := by
  unfold Obligations.RegisterAccesses
  refine ⟨?ranges, ?w1c, ?region, ?latches⟩
  case ranges =>
    refine ⟨?_, ?_, ?_, ?_, ?_, ?_, ?_, ?_, ?_, ?_, fun s hs => writes_streamGrace hs, fun w hw => writes_pubRate hw⟩ <;> exact .of_window
  case w1c => and_intros <;> exact .of_window
  case region =>
    intro dt who v k hk half hhalf
    refine ⟨Does.of_run (exec_latchingLoRead dt who _) (fun b h => Chip.reaches_of_up who h) (fun b _ => b.busRead_region hk hhalf),
      Does.of_run (exec_registerWrite dt who _ v) (fun b h => Chip.reaches_of_up who h) (fun b _ => ?_)⟩
    rw [Nat.add_assoc]
    exact b.busWrite_region who v (by omega) (by omega)
  case latches =>
    refine ⟨.of_window, .of_window, .of_window, .of_window, .of_window, .of_window, fun dt who n _ => ?_⟩
    exact Does.of_run (exec_latchingLoRead dt who _) (fun b h => Chip.reaches_of_up who h.1) (fun b h => Chip.busRead_arrBusy h.2.1 h.2.2)

/-! ### The state after power-on reset -/

/-- A table that holds its default everywhere, within its bounds or not. -/
theorem vget_replicate_default {α : Type} (d : α) (n i : Nat) : vget d (Vector.replicate n d) i = d := by
  by_cases h : i < n <;> simp [vget, Vector.getD, h]

theorem Chip.readWindow_fgStream (c : Chip) {s r : Nat} (hs : s < 256) (hr : r < 0x40) :
    c.readWindow 5 (0x1000 + 0x40 * s + r) = c.readFgs s r := by
  simp only [Chip.readWindow, Chip.readFg]
  split
  case h_5 => rw [inTable_hit rfl hs hr]; rfl
  all_goals omega

theorem reset_stream (k : Nat) : State.reset.chip.stream k = {} := by
  have h : State.reset.chip.qy.st = Vector.replicate 256 {} := rfl
  rw [Chip.stream, h, vget_replicate_default]

theorem reset_fgs (k : Nat) : State.reset.chip.fgs k = {} := by
  have h : State.reset.chip.fg.st = Vector.replicate 256 {} := rfl
  rw [Chip.fgs, h, vget_replicate_default]

/-- A register of QY's table of streams at reset, at offset r of its entry (R98). -/
theorem reset_regRead_stream {a k : Nat} (r : Nat) {w : Word} (hk : k < 256) (ha : a = 0x18000 + 0x40 * k + r ∧ r < 0x40 ∧ r % 4 = 0)
    (hw : State.reset.chip.readStream k r = some w) : State.reset.chip.regRead a = some w := by
  rw [Chip.regRead_window (w := 1) (o := 0x8000 + 0x40 * k + r) (by omega) (by omega) (by omega) (by omega) (by decide +kernel),
    Chip.readWindow_stream _ hk ha.2.1, hw]

/-- A register of FG's table of streams at reset, at offset r of its entry. -/
theorem reset_regRead_fgs {a k : Nat} (r : Nat) {w : Word} (hk : k < 256) (ha : a = 0x51000 + 0x40 * k + r ∧ r < 0x40 ∧ r % 4 = 0)
    (hw : State.reset.chip.readFgs k r = some w) : State.reset.chip.regRead a = some w := by
  rw [Chip.regRead_window (w := 5) (o := 0x1000 + 0x40 * k + r) (by omega) (by omega) (by omega) (by omega) (by decide +kernel),
    Chip.readWindow_fgStream _ hk ha.2.1, hw]

theorem reset_regRead_perStream {k : Nat} (hk : k < 256) :
    State.reset.chip.regRead (0x18000 + 0x40 * k) = some 6 ∧ State.reset.chip.regRead (0x18030 + 0x40 * k) = some 0x1F4 ∧
      State.reset.chip.regRead (0x18034 + 0x40 * k) = some 0xFFFFFFFF ∧ State.reset.chip.regRead (0x51000 + 0x40 * k) = some 7 ∧
      State.reset.chip.regRead (0x51008 + 0x40 * k) = some 0xFFFFFFFF ∧ State.reset.chip.regRead (0x5100C + 0x40 * k) = some 0xFFFFFFFF := by
  refine ⟨?ctl, ?grace, ?evidHead, ?fgCtl, ?lastLo, ?lastHi⟩
  case ctl => exact reset_regRead_stream 0 hk (by omega) (by simp only [Chip.readStream, reset_stream])
  case grace => exact reset_regRead_stream 0x30 hk (by omega) (by simp only [Chip.readStream, reset_stream])
  case evidHead => exact reset_regRead_stream 0x34 hk (by omega) (by simp only [Chip.readStream, reset_stream])
  case fgCtl => exact reset_regRead_fgs 0 hk (by omega) (by simp only [Chip.readFgs, reset_fgs])
  case lastLo => exact reset_regRead_fgs 8 hk (by omega) (by simp only [Chip.readFgs, reset_fgs, instLo])
  case lastHi => exact reset_regRead_fgs 0xC hk (by omega) (by simp only [Chip.readFgs, reset_fgs, instHi])

theorem reset_sound : State.reset.sound := ⟨rfl, by decide, by decide, rfl⟩

/-- Settles O2: the single registers by evaluation at reset, the tables of streams entry by entry from the reset value of an entry. -/
theorem resetState : Obligations.ResetState := by
  unfold Obligations.ResetState
  refine ⟨⟨?registers, fun k hk => reset_regRead_perStream hk, rfl, rfl, rfl, rfl⟩, reset_sound, rfl⟩
  case registers => decide +kernel

/-! ### UNKNOWN_OPCODE with the opcode of BULK_READ

It is taken as BULK_READ (log 141), but no sector errors come with it. -/

/-- What a port saw of a good frame of QCP. -/
def quietRx : RxInfo :=
  { port := 0, dst := 0, src := 0xAA, tags := [], etype := 0x88B5, size := 100, fcsOk := true, sec := .tagged 5 0 20 true }

/-- A bulk read of the first byte of device address space, the next command of session 7. -/
def readFirstByte : QcpFrame := { rx := quietRx, seq := 0, session := 7, payload := toLe 8 0 ++ toLe 4 1 }

/-- One corrected symbol in the sector that the read covers. -/
def correctedSector : SectorErr := { addr := 0, symbols := 1, fails := false, replicaFails := false }

/-- Entry 0 of the region table, which the host may read. -/
def hostEntry : Entry :=
  { repl := false, rdonly := false, device := false, owner := 0, plost := false, rlost := false, decl := 0, pch := 0, pslot := 0,
    rch := 0, rslot := 0 }

/-- A running device with session 7 open on its linked port 0 and one entry in the region table. -/
def runningDevice : State :=
  let s := State.reset
  { s with chip := { s.chip with
    hm := { s.chip.hm with stage := .running }
    qy := { s.chip.qy with
      ports := vset s.chip.qy.ports 0 { link := true, rx := [{ sci := 5, an := 0, high := 10 }], tx := some 0 } }
    pl := { s.chip.pl with session := some { id := 7, owned := false, mac := 0xAA, port := 0, tag := none, lastAt := 0 }, next := 0 }
    mc := { s.chip.mc with table := [(0, hostEntry)] } } }

theorem runningDevice_inTurnRunning : (runningDevice.chip.arrive {}).inTurnRunning readFirstByte := by
  have htakes : (runningDevice.chip.arrive {}).takesQcp readFirstByte := ⟨by decide +kernel, by decide +kernel, by decide +kernel⟩
  have hturn : (runningDevice.chip.arrive {}).inTurn readFirstByte := ⟨htakes, ⟨_, rfl, rfl⟩, by decide +kernel, by decide +kernel⟩
  exact ⟨hturn, by decide +kernel, by decide +kernel⟩

/-- The device once it has started a bulk read in its turn that meets the sector errors given. -/
def readStarted (errs : List SectorErr) : State :=
  { runningDevice with chip := (runningDevice.chip.arrive {}).accepted readFirstByte }.start { op := .bulkRead, f := readFirstByte, errs := errs }

/-- The same once what follows every effect has followed. -/
def readEnded (errs : List SectorErr) : State := { readStarted errs with chip := (readStarted errs).chip.follow }

/-- The corrected errors that MC has counted of channel 0. -/
def State.corrected0 (s : State) : Word := (s.chip.chan 0).corr

/-- UNKNOWN_OPCODE with the opcode of BULK_READ meets no sector error. -/
theorem unknownOpcode_bulkRead_meets_none :
    ∃ t, exec (.unknownOpcode {} 0x20 readFirstByte) runningDevice = .next t ∧ t.corrected0 = 0 :=
  ⟨_, (exec_unknownOpcode ..).trans (runState_ok rfl (by decide +kernel)), by decide +kernel⟩

theorem readEnded_correctedSector : (readEnded [correctedSector]).corrected0 = 1 := by decide +kernel

theorem ofCode_bulkRead : Op.ofCode 0x20 = .bulkRead := by decide

/-- UNKNOWN_OPCODE with the opcode of BULK_READ does not start a bulk read that meets a sector error. -/
theorem not_doesState_unknownOpcode_errs :
    ¬ DoesState (.unknownOpcode {} 0x20 readFirstByte) {} (fun b => b.chip.inTurnRunning readFirstByte)
      (fun b e => e = { b with chip := b.chip.accepted readFirstByte }.start
        { op := .bulkRead, f := readFirstByte, errs := [correctedSector] }) := by
  intro h
  obtain ⟨e, hexec, -, rfl⟩ := h runningDevice rfl runningDevice_inTurnRunning
  obtain ⟨t, ht, hnone⟩ := unknownOpcode_bulkRead_meets_none
  have hend : t = readEnded [correctedSector] := Host.Outcome.next.inj (ht.symm.trans hexec)
  rw [hend, readEnded_correctedSector] at hnone
  exact absurd hnone (by decide)

/-- Refutes O5: its clause on the rows of QCP has each row whose operation is BULK_READ meet the sector errors errs. UNKNOWN_OPCODE with
code 0x20 is such a row, but its meaning is given no errors. With a corrected error in the sector read, the clause wants one correction
counted at channel 0, and exec counts none. -/
theorem not_everyCommandHasItsEffect : ¬ Obligations.EveryCommandHasItsEffect := by
  unfold Obligations.EveryCommandHasItsEffect
  intro h
  obtain ⟨hqcp, -⟩ := h {}
  obtain ⟨-, -, hrows⟩ := hqcp readFirstByte 0x20 [correctedSector]
  have hmem : (Instr.unknownOpcode {} 0x20 readFirstByte, Op.ofCode 0x20) ∈ qcpRows {} readFirstByte [correctedSector] 0x20 := by
    simp [qcpRows]
  have hrow := hrows _ hmem (by decide) (by decide) (.inl ofCode_bulkRead)
  rw [ofCode_bulkRead] at hrow
  exact not_doesState_unknownOpcode_errs hrow

end Sys2Proof.Machine
end

section
/-! PROOFS. What the statements on commands of QCP rest on: what a change leaves alone, what a command in its turn comes to, and reads that
meet no error. -/

namespace Sys2Proof.Machine

/-! ### Frames

A change of one block leaves every other part as it was; changes in a row leave what each of them leaves. -/

theorem Chip.frame_trans {b c d : Chip} {l m : List Blk} (h : b.frame c l) (k : c.frame d m) : b.frame d (l ++ m) := by
  intro x hx
  have hl := h x (fun hm => hx (List.mem_append_left m hm))
  have hm := k x (fun hm => hx (List.mem_append_right l hm))
  cases x <;> exact Eq.trans hm hl

theorem Chip.frame_mono {b c : Chip} {l m : List Blk} (h : b.frame c l) (hs : ∀ x ∈ l, x ∈ m) : b.frame c m :=
  fun x hx => h x (fun hl => hx (hs x hl))

theorem Chip.frame_updCfg (c : Chip) (f : Cfg → Cfg) : c.frame (c.updCfg f) [.cfg] := by
  intro x hx
  cases x <;> simp [Blk.same] at hx ⊢

theorem Chip.frame_updQy (c : Chip) (f : Quay → Quay) : c.frame (c.updQy f) [.qy] := by
  intro x hx
  cases x <;> simp [Blk.same] at hx ⊢

theorem Chip.frame_updPl (c : Chip) (f : Proto → Proto) : c.frame (c.updPl f) [.pl] := by
  intro x hx
  cases x <;> simp [Blk.same] at hx ⊢

theorem Chip.frame_updMc (c : Chip) (f : MemCtl → MemCtl) : c.frame (c.updMc f) [.mc] := by
  intro x hx
  cases x <;> simp [Blk.same] at hx ⊢

theorem Chip.frame_updHm (c : Chip) (f : Harbour → Harbour) : c.frame (c.updHm f) [.hm] := by
  intro x hx
  cases x <;> simp [Blk.same] at hx ⊢

theorem Chip.frame_updId (c : Chip) (f : Ident → Ident) : c.frame (c.updId f) [.id] := by
  intro x hx
  cases x <;> simp [Blk.same] at hx ⊢

theorem Chip.frame_answer (c : Chip) (r : BusReply) : c.frame (c.answer r) [.bus] := by
  intro x hx
  cases x <;> simp [Blk.same] at hx ⊢

theorem Chip.frame_send (c : Chip) (t : TxFrame) : c.frame (c.send t) [.tx] := by
  intro x hx
  cases x <;> simp [Blk.same] at hx ⊢

theorem Chip.frame_raise (c : Chip) (src : Nat) (detail : Bytes) : c.frame (c.raise src detail) [.ic, .lh, .sn] := by
  intro x hx
  cases x <;> simp [Blk.same] at hx ⊢

theorem Chip.frame_open (c : Chip) : c.frame c.open_.2 [.draws] := by
  intro x hx
  cases x
  case draws => simp at hx
  all_goals rfl

theorem Chip.frame_hmErr (c : Chip) (b : Nat) : c.frame (c.hmErr b) [.hm, .ic, .lh, .sn] :=
  frame_trans (c.frame_updHm _) (frame_raise _ _ _)

theorem Chip.frame_mcErr (c : Chip) (b : Nat) (info : Word) (addr : Nat) (step : Word) :
    c.frame (c.mcErr b info addr step) [.mc, .ic, .lh, .sn] :=
  frame_trans (c.frame_updMc _) (frame_raise _ _ _)

theorem Chip.frame_recordViol (c : Chip) (r : Requester) (ctx cause addr : Nat) (step : Word) :
    c.frame (c.recordViol r ctx cause addr step) [.mc, .ic, .lh, .sn] :=
  frame_mono (frame_trans (c.frame_updMc _) (frame_mcErr _ _ _ _ _)) (by decide)

/-! ### Responses (R408, R414) -/

section
variable (c : Chip) (etype : Word) (op : Op) (f : QcpFrame) (status : Nat) (payload : Bytes)

theorem Chip.frame_respond : c.frame (c.respond etype op f status payload) [.pl, .tx] :=
  frame_trans (c.frame_updPl _) (frame_send _ _)

theorem Chip.respond_tx :
    (c.respond etype op f status payload).tx = c.tx ++ [responseFrame f etype op.code status 0 payload] := rfl

@[simp] theorem Chip.respond_cfg : (c.respond etype op f status payload).cfg = c.cfg := rfl
@[simp] theorem Chip.respond_hm : (c.respond etype op f status payload).hm = c.hm := rfl
@[simp] theorem Chip.respond_id : (c.respond etype op f status payload).id = c.id := rfl
end

theorem dropFirst_length {α : Type} {p : α → Bool} {l : List α} (h : l.any p = true) : (dropFirst p l).length + 1 = l.length := by
  induction l with
  | nil => simp at h
  | cons x xs ih =>
    by_cases hx : p x = true
    · simp [dropFirst, hx]
    · simp only [List.any_cons, hx, Bool.false_or] at h
      simpa [dropFirst, hx] using ih h

/-- Completing a deferred command changes the list of them, and sends its response. -/
theorem Chip.frame_finishDeferred (c : Chip) (p : Deferred → Bool) (status : Nat) (payload : Bytes) :
    c.frame (c.finishDeferred p status payload) [.pl, .tx] := by
  simp only [Chip.finishDeferred]
  split
  · exact fun x _ => by cases x <;> rfl
  · split
    · exact frame_mono (frame_trans (c.frame_updPl _) (frame_respond _ _ _ _ _ _)) (by decide)
    · exact frame_mono (c.frame_updPl _) (by decide)

theorem Chip.finishDeferred_length {c : Chip} {p : Deferred → Bool} (status : Nat) (payload : Bytes) (h : c.pl.deferred.any p = true) :
    (c.finishDeferred p status payload).pl.deferred.length + 1 = c.pl.deferred.length := by
  simp only [Chip.finishDeferred]
  split
  case h_1 hnone =>
    obtain ⟨d, hd, hp⟩ := List.any_eq_true.mp h
    exact absurd hp (List.find?_eq_none.mp hnone d hd)
  case h_2 => split <;> exact dropFirst_length h

@[simp] theorem Chip.finishDeferred_cfg (c : Chip) (p : Deferred → Bool) (status : Nat) (payload : Bytes) :
    (c.finishDeferred p status payload).cfg = c.cfg := c.frame_finishDeferred p status payload .cfg (by decide)

/-! ### A command in its turn (R413, R415) -/

/-- A frame that reaches its handler changes the state of the ports alone. -/
theorem Chip.ingress_handed {c : Chip} {rx : RxInfo} {k : Handler} (h : (c.ingress rx).2 = some k) :
    ∃ ports, (c.ingress rx).1 = c.updQy (fun q => { q with ports := ports }) := by
  revert h
  simp only [Chip.ingress]
  split
  · nofun
  split
  · nofun
  split
  · nofun
  split
  · nofun
  · exact fun _ => ⟨_, rfl⟩

/-- What taking a command does to the protocol block: the window moves on, and the session has heard from its host. -/
def Chip.plAccepted (b : Chip) (f : QcpFrame) (p : Proto) : Proto :=
  { p with
    next := p.next + 1
    session := p.session.map (fun s => { s with lastAt := b.clk.ref, port := f.rx.port, tag := rxTag f.rx }) }

/-- A frame of QCP that the device takes changes the state of the ports alone, and then the protocol block. -/
theorem Chip.takesQcp.ingress {b : Chip} {f : QcpFrame} (h : b.takesQcp f) :
    ∃ ports, b.ingress f.rx = (b.updQy (fun q => { q with ports := ports }), some .qcp) ∧
      b.accepted f = (b.updQy (fun q => { q with ports := ports })).updPl (b.plAccepted f) := by
  obtain ⟨-, hqcp, -⟩ := h
  obtain ⟨ports, hports⟩ := Chip.ingress_handed hqcp
  exact ⟨ports, Prod.ext hports hqcp, by rw [Chip.accepted, hports]; rfl⟩

theorem Chip.frame_accepted {b : Chip} {f : QcpFrame} (h : b.takesQcp f) : b.frame (b.accepted f) [.qy, .pl] := by
  obtain ⟨ports, -, hacc⟩ := h.ingress
  rw [hacc]
  exact Chip.frame_trans (b.frame_updQy _) (Chip.frame_updPl _ _)

theorem Chip.accepted_pl {b : Chip} {f : QcpFrame} (h : b.takesQcp f) : (b.accepted f).pl = b.plAccepted f b.pl := by
  obtain ⟨ports, -, hacc⟩ := h.ingress
  rw [hacc]
  rfl

theorem Chip.accepted_cfg {b : Chip} {f : QcpFrame} (h : b.takesQcp f) : (b.accepted f).cfg = b.cfg :=
  Chip.frame_accepted h .cfg (by decide)

theorem Chip.accepted_hm {b : Chip} {f : QcpFrame} (h : b.takesQcp f) : (b.accepted f).hm = b.hm :=
  Chip.frame_accepted h .hm (by decide)

theorem Chip.accepted_tx {b : Chip} {f : QcpFrame} (h : b.takesQcp f) : (b.accepted f).tx = b.tx :=
  Chip.frame_accepted h .tx (by decide)

/-- The frame's session is open in a protocol block. -/
def Proto.opens (p : Proto) (f : QcpFrame) : Bool := p.session.any (fun x => x.id == f.session)

theorem Chip.ofSession.opens {b : Chip} {f : QcpFrame} (h : b.ofSession f) : b.pl.opens f = true := by
  obtain ⟨x, hx, hid⟩ := h
  simp [Proto.opens, hx, hid]

theorem Chip.plAccepted_opens (b : Chip) (f g : QcpFrame) (p : Proto) : (b.plAccepted f p).opens g = p.opens g := by
  cases hs : p.session <;> simp [Proto.opens, Chip.plAccepted, hs]

theorem Chip.inTurn.takes {b : Chip} {f : QcpFrame} (h : b.inTurn f) : b.takesQcp f := h.1
theorem Chip.inTurn.opens {b : Chip} {f : QcpFrame} (h : b.inTurn f) : b.pl.opens f = true := h.2.1.opens
theorem Chip.inTurn.seq {b : Chip} {f : QcpFrame} (h : b.inTurn f) : f.seq = b.pl.next := h.2.2.1
theorem Chip.inTurnRunning.inTurn {b : Chip} {f : QcpFrame} (h : b.inTurnRunning f) : b.inTurn f := h.1
theorem Chip.inTurnRunning.takes {b : Chip} {f : QcpFrame} (h : b.inTurnRunning f) : b.takesQcp f := h.1.1
theorem Chip.inTurnRunning.stage {b : Chip} {f : QcpFrame} (h : b.inTurnRunning f) : b.hm.stage = .running := h.2.1
theorem Chip.inTurnRunning.hears {b : Chip} {f : QcpFrame} (h : b.inTurnRunning f) : b.hearsQcp f.rx = true := h.takes.1

/-- The window and the session are the same in two protocol blocks: what an effect must keep for its answer to be sent in the
session, and for no other command to follow it. -/
def Proto.sameWindow (p q : Proto) : Prop := q.session = p.session ∧ q.next = p.next ∧ q.held = p.held

theorem Proto.sameWindow.refl (p : Proto) : p.sameWindow p := ⟨rfl, rfl, rfl⟩

theorem Proto.sameWindow.trans {p q r : Proto} (h : p.sameWindow q) (k : q.sameWindow r) : p.sameWindow r :=
  ⟨k.1.trans h.1, k.2.1.trans h.2.1, k.2.2.trans h.2.2⟩

theorem State.acceptAll_none {n : Nat} {s : State} (h : ∀ r ∈ s.chip.pl.held, r.f.seq ≠ s.chip.pl.next) : s.acceptAll n = s := by
  have hfind : s.chip.pl.held.find? (fun r => r.f.seq == s.chip.pl.next) = none := by simpa using h
  cases n <;> simp [State.acceptAll, hfind]

/-- Accepting the command that was just put with the held ones leaves the others held. -/
theorem Chip.accept_queued {c : Chip} {r : Req} (h : ∀ x ∈ c.pl.held, x.f.seq ≠ r.f.seq) :
    (c.updPl (fun p => { p with held := p.held ++ [r] })).accept r = c.updPl (c.plAccepted r.f) := by
  have hkeep : (c.pl.held ++ [r]).filter (fun x => x.f.seq != r.f.seq) = c.pl.held := by
    simpa [List.filter_append] using h
  simp only [Chip.accept, Chip.updPl, Chip.plAccepted, hkeep]

/-- The next command of the window, with none before it held, is accepted and starts. -/
theorem State.window_next {r : Req} {s : State} (hseq : r.f.seq = s.chip.pl.next) (hheld : ∀ x ∈ s.chip.pl.held, x.f.seq ≠ r.f.seq) :
    s.window r = State.acceptAll 16 (State.start r { s with chip := s.chip.updPl (s.chip.plAccepted r.f) }) := by
  have hnone : s.chip.pl.held.any (fun x => x.f.seq == r.f.seq) = false := by simpa using hheld
  have hfind : (s.chip.pl.held ++ [r]).find? (fun x => x.f.seq == s.chip.pl.next) = some r := by
    rw [List.find?_append, List.find?_eq_none.mpr (by simpa [hseq] using hheld)]
    simp [hseq]
  simp only [State.window, hseq, BitVec.sub_self]
  rw [if_pos (by decide), if_neg (by simpa [hseq] using hnone)]
  rw [State.acceptAll]
  simp only [Chip.updPl_blocks, hfind, Chip.accept_queued hheld]

/-- A command in its turn starts on the chip that has accepted it, and no other follows it where it keeps the window. -/
theorem State.receive_inTurn {r : Req} {s : State} (h : s.chip.inTurn r.f) (hop : r.op ≠ .hello ∧ r.op ≠ .opn)
    (hwin : (s.chip.accepted r.f).pl.sameWindow (State.start r { s with chip := s.chip.accepted r.f }).chip.pl) :
    s.receive r = State.start r { s with chip := s.chip.accepted r.f } := by
  obtain ⟨htakes, hsession, hseq, hheld⟩ := h
  obtain ⟨ports, hin, hacc⟩ := htakes.ingress
  have hlen : ¬ 8256 < r.f.payload.length := Nat.not_lt.mpr htakes.2.2
  have hopen : s.chip.pl.session.any (fun x => x.id == r.f.session) = true := hsession.opens
  have hstart : s.receive r = State.acceptAll 16 (State.start r { s with chip := s.chip.accepted r.f }) := by
    simp only [State.receive, hin, State.command, if_neg hlen, beq_iff_eq, hop.1, hop.2, if_false, Chip.updQy_blocks,
      hopen, if_true]
    exact (State.window_next (s := { s with chip := s.chip.updQy _ }) hseq (fun x hx => (hheld x hx).1)).trans (by rw [hacc]; rfl)
  obtain ⟨-, hnext, hkept⟩ := hwin
  rw [hstart, State.acceptAll_none]
  intro x hx
  rw [hkept, Chip.accepted_pl htakes] at hx
  rw [hnext, Chip.accepted_pl htakes, Chip.plAccepted, ← hseq]
  exact (hheld x hx).2

/-! ### The answer -/

/-- What an accepted command of the chip alone ends in: its effect, with its answer sent where it has one at once. -/
def Chip.answered (b : Chip) (op : Op) (f : QcpFrame) (x : Chip × Answer) : Chip :=
  match x.2 with
  | .ok payload => x.1.respond b.pl.qcpEtype op f 0 payload
  | .err status addr count => x.1.respond b.pl.qcpEtype op f status (errPayload addr count)
  | .later => x.1

theorem Chip.answered_sameWindow (b : Chip) (op : Op) (f : QcpFrame) (x : Chip × Answer) :
    x.1.pl.sameWindow (b.answered op f x).pl := by
  unfold Chip.answered
  split <;> exact ⟨rfl, rfl, rfl⟩

/-- The commands that are neither HELLO, OPEN nor one whose answer is sent before its effect. -/
def Op.plain (op : Op) : Bool :=
  !([.hello, .opn, .close, .warmReset, .sleep, .ownerKey] : List Op).contains op

theorem Op.plain_ne {op : Op} (h : op.plain = true) : op ≠ .hello ∧ op ≠ .opn := by
  constructor <;> (rintro rfl; exact absurd h (by decide))

/-- A running device with room for another command of class M, V or S performs the command and answers it. -/
theorem State.start_plain {r : Req} {s : State} (hop : r.op.plain = true) (hstage : s.chip.hm.stage = .running)
    (hroom : s.chip.pl.deferred.length < 8) :
    State.start r s = { s with chip := (s.chip.perform r).1.answerCmd s.chip.pl.qcpEtype r (s.chip.perform r).2 } := by
  have hfull : (r.op.slow && decide (8 ≤ s.chip.pl.deferred.length)) = false := by simp [hroom]
  obtain ⟨op, f, errs⟩ := r
  simp only [State.start, hstage, hfull]
  cases op
  case close | warmReset | sleep | ownerKey => simp [Op.plain] at hop
  all_goals rfl

theorem Chip.answerCmd_open {c : Chip} {etype : Word} {r : Req} {b : Chip} {a : Answer} (hopen : c.pl.opens r.f = true)
    (het : etype = b.pl.qcpEtype) : c.answerCmd etype r a = b.answered r.op r.f (c, a) := by
  subst het
  unfold Chip.answerCmd
  rw [if_pos (show c.pl.session.any (fun s => s.id == r.f.session) = true from hopen)]
  cases a <;> rfl

/-- A command of the chip alone, in its turn: x is its effect and answer on the chip that has accepted it. -/
theorem Does.of_command {i : Instr} {dt : When} {op : Op} {f : QcpFrame} {errs : List SectorErr} {hyp : Chip → Prop}
    {concl : Chip → Chip → Prop} (hi : ∀ s, exec i s = qcpRow dt op f errs s) (hop : op.plain = true)
    (hturn : ∀ b, hyp b → b.inTurnRunning f)
    (hx : ∀ b, hyp b → ∃ x, (b.accepted f).perform { op := op, f := f, errs := errs } = x ∧
      (b.accepted f).pl.sameWindow x.1.pl ∧ concl b (b.answered op f x)) :
    Does i dt hyp concl := by
  refine Does.of_runState (act := fun b => b.answered op f ((b.accepted f).perform { op := op, f := f, errs := errs })) hi
    (fun s h => (hturn _ h).hears) (fun s h => ?effect) (fun b h => ?conclusion)
  case conclusion =>
    obtain ⟨x, rfl, -, hconcl⟩ := hx b h
    exact hconcl
  case effect =>
    obtain ⟨hinturn, hstage, hroom⟩ := hturn _ h
    obtain ⟨x, hperform, hwin, -⟩ := hx _ h
    have htakes := hinturn.takes
    have hstart : State.start { op := op, f := f, errs := errs } { s with chip := s.chip.accepted f } =
        { s with chip := s.chip.answered op f x } := by
      rw [State.start_plain hop (by simpa [Chip.accepted_hm htakes] using hstage) (by rw [Chip.accepted_pl htakes]; exact hroom)]
      simp only [hperform]
      rw [Chip.answerCmd_open (b := s.chip)]
      · rw [Proto.opens, hwin.1, Chip.accepted_pl htakes]
        exact (s.chip.plAccepted_opens f f s.chip.pl).trans hinturn.opens
      · rw [Chip.accepted_pl htakes]
        rfl
    have hkeeps : (s.chip.accepted f).pl.sameWindow (s.chip.answered op f x).pl := hwin.trans (Chip.answered_sameWindow _ _ _ _)
    rw [State.receive_inTurn hinturn (Op.plain_ne hop) (by rw [hstart]; exact hkeeps), hstart, ← hperform]

section
variable {i : Instr} {dt : When} {op : Op} {f : QcpFrame} {errs : List SectorErr} {hyp : Chip → Prop} {concl : Chip → Chip → Prop}
  (hi : ∀ s, exec i s = qcpRow dt op f errs s) (hop : op.plain = true) (hturn : ∀ b, hyp b → b.inTurnRunning f)
include hi hop hturn

/-- A command that is answered later. -/
theorem Does.of_later (hx : ∀ b, hyp b → ∃ c, (b.accepted f).perform { op := op, f := f, errs := errs } = (c, .later) ∧
    (b.accepted f).pl.sameWindow c.pl ∧ concl b c) : Does i dt hyp concl :=
  Does.of_command hi hop hturn (fun b h => by
    obtain ⟨c, hc⟩ := hx b h
    exact ⟨(c, .later), hc⟩)

/-- A command that is answered at once with status 0. -/
theorem Does.of_ok (hx : ∀ b, hyp b → ∃ c payload, (b.accepted f).perform { op := op, f := f, errs := errs } = (c, .ok payload) ∧
    (b.accepted f).pl.sameWindow c.pl ∧ concl b (c.respond b.pl.qcpEtype op f 0 payload)) : Does i dt hyp concl :=
  Does.of_command hi hop hturn (fun b h => by
    obtain ⟨c, payload, hc⟩ := hx b h
    exact ⟨(c, .ok payload), hc⟩)

/-- A command that is answered at once with an error. -/
theorem Does.of_err (hx : ∀ b, hyp b →
    ∃ c status addr count, (b.accepted f).perform { op := op, f := f, errs := errs } = (c, .err status addr count) ∧
      (b.accepted f).pl.sameWindow c.pl ∧ concl b (c.respond b.pl.qcpEtype op f status (errPayload addr count))) : Does i dt hyp concl :=
  Does.of_command hi hop hturn (fun b h => by
    obtain ⟨c, status, addr, count, hc⟩ := hx b h
    exact ⟨(c, .err status addr count), hc⟩)
end

/-! ### Reads that meet no sector error (R349, R548) -/

/-- A chip with other states of its channels. -/
def Chip.withChans (c : Chip) (ch : Vector Channel 16) : Chip := c.updMc (fun m => { m with ch := ch })

theorem foldl_withChans {α : Type} (f : Chip → α → Chip) (hf : ∀ c a, ∃ ch, f c a = c.withChans ch) (l : List α) (c : Chip) :
    ∃ ch, l.foldl f c = c.withChans ch := by
  induction l generalizing c with
  | nil => exact ⟨c.mc.ch, rfl⟩
  | cons a l ih =>
    obtain ⟨ch, hch⟩ := hf c a
    obtain ⟨ch', hch'⟩ := ih (f c a)
    exact ⟨ch', by rw [List.foldl_cons, hch', hch]; rfl⟩

/-- A request changes the states of the channels alone (R354). -/
theorem Chip.touch_eq (c : Chip) (write : Bool) (a n : Nat) : ∃ ch, c.touch write a n = c.withChans ch := by
  refine foldl_withChans _ (fun d p => ?_) _ c
  split
  · exact foldl_withChans _ (fun _ x => ⟨_, rfl⟩) _ d
  · exact ⟨d.mc.ch, rfl⟩

@[simp] theorem Chip.touch_met (c : Chip) (write : Bool) (a n : Nat) : (c.touch write a n).met = c.met := by
  obtain ⟨ch, h⟩ := c.touch_eq write a n
  rw [h]
  rfl

theorem Chip.frame_touch (c : Chip) (write : Bool) (a n : Nat) : c.frame (c.touch write a n) [.mc] := by
  obtain ⟨ch, h⟩ := c.touch_eq write a n
  rw [h]
  exact c.frame_updMc _

theorem Chip.touch_dramRead (c : Chip) (write : Bool) (a n x k : Nat) : (c.touch write a n).dramRead x k = c.dramRead x k := by
  obtain ⟨ch, h⟩ := c.touch_eq write a n
  rw [h]
  rfl

theorem Chip.readSectors_quiet {c : Chip} (h : c.met = []) (r : Requester) (ctx : Nat) (step : Word) (a n : Nat) :
    c.readSectors r ctx step a n = (c.touch false a n, none) := by
  have htouch : { c.touch false a n with met := [] } = c.touch false a n := by
    rw [← h, ← c.touch_met false a n]
  simp [Chip.readSectors, h, htouch]

theorem Chip.readOwn_quiet {c : Chip} (h : c.met = []) (r : Requester) (ctx : Nat) {a n : Nat} (hr : c.refusal .device false a n = none) :
    c.readOwn r ctx a n = (c.touch false a n, some (c.dramRead a n)) := by
  simp [Chip.readOwn, hr, Chip.readSectors_quiet h, Chip.touch_dramRead]

theorem Chip.readOwn_refused {c : Chip} (r : Requester) (ctx : Nat) {a n : Nat} {v : Nat × Nat} (hr : c.refusal .device false a n = some v) :
    c.readOwn r ctx a n = (c.recordViol r ctx v.1 v.2 noStep, none) := by
  simp [Chip.readOwn, hr]

/-! ### Scan-out meets what the command brings (R400)

A command that brings no sector error still finds none when its effect begins. -/

theorem Chip.scanRead_met {c : Chip} (h : c.met = []) (a n : Nat) : (c.scanRead a n).1.met = [] := by
  unfold Chip.scanRead
  split
  · exact h
  · simp [Chip.readSectors_quiet h, h]

theorem Chip.fetchRow_met {c : Chip} (h : c.met = []) (m : DispMode) (y : Nat) (v : ScanWin) : (c.fetchRow m y v).1.met = [] := by
  simp only [Chip.fetchRow]
  split
  · exact h
  · split
    · exact h
    · exact Chip.scanRead_met (Chip.scanRead_met (Chip.scanRead_met h _ _) _ _) _ _

theorem Chip.fetchLine_met {c : Chip} (h : c.met = []) (f : ScanFrame) (y : Nat) : (c.fetchLine f y).1.met = [] := by
  refine List.foldlRecOn (motive := fun x : Chip × List SrcRow => x.1.met = []) f.wins _ h (fun x hx v _ => ?_)
  exact Chip.fetchRow_met hx _ _ _

theorem Chip.fillBuffer_met {c : Chip} (h : c.met = []) (n : Nat) : (c.fillBuffer n).met = [] := by
  unfold Chip.fillBuffer
  split
  · exact h
  · refine List.foldlRecOn (motive := fun c : Chip => c.met = []) _ _ h (fun c hc i _ => ?_)
    exact Chip.fetchLine_met hc _ _

theorem Chip.beginLine_met {c : Chip} (h : c.met = []) (n : Nat) : (c.beginLine n).met = [] := by
  unfold Chip.beginLine
  split
  · exact h
  · exact Chip.fillBuffer_met (by simpa using h) n

theorem Chip.scan_met {c : Chip} (h : c.met = []) : c.scan.met = [] := by
  refine List.foldlRecOn (motive := fun c : Chip => c.met = []) _ _ h (fun c hc n _ => ?_)
  split
  · exact List.foldlRecOn (motive := fun c : Chip => c.met = []) _ _ hc (fun c hc _ _ => Chip.beginLine_met hc n)
  · exact hc

theorem Chip.arrive_met {c : Chip} {dt : When} (herrs : dt.errs = []) (h : (c.arrive dt).por = false) : (c.arrive dt).met = [] := by
  unfold Chip.arrive at h ⊢
  split at h
  case isTrue hpor => simp [hpor] at h
  case isFalse hpor =>
    rw [if_neg hpor]
    exact Chip.scan_met herrs

/-- A command of the chip alone that brings no sector error. -/
theorem Does.of_run_quiet {i : Instr} {dt : When} {ok : Chip → Bool} {effect : Chip → Chip} {hyp : Chip → Prop}
    {concl : Chip → Chip → Prop} (hi : ∀ s, exec i s = run dt ok effect s) (herrs : dt.errs = []) (hok : ∀ b, hyp b → ok b = true)
    (hpor : ∀ b, hyp b → b.por = false) (hc : ∀ b, hyp b → b.met = [] → concl b (effect b)) : Does i dt hyp concl :=
  fun s ht h => ⟨effect (s.chip.arrive dt), by rw [hi, run_ok ht (hok _ h)], hc _ h (Chip.arrive_met herrs (hpor _ h))⟩

end Sys2Proof.Machine
end

section
/-! PROOFS. The statements on images, seals and keys: ADMIT and ABORT as register writes (O12, O13), and the commands of QCP that load,
seal, update and sign (O58). -/

namespace Sys2Proof.Machine

/-! ### ADMIT and ABORT (R24, R55) -/

theorem Chip.takeImage_busy {c : Chip} (h : c.cfg.state = .validating ∨ c.cfg.state = .pending) :
    c.takeImage = c.updCfg (fun g => { g with errCode := 0x10, errOff := 0 }) := by
  simp [Chip.takeImage, h]

theorem Chip.takeImage_free {c : Chip} (hv : c.cfg.state ≠ .validating) (hp : c.cfg.state ≠ .pending) :
    c.takeImage = c.updCfg (fun g => { g with state := .validating, admitLen := g.imgLen.toNat }) := by
  simp [Chip.takeImage, hv, hp]

theorem Chip.abortImage_pending {c : Chip} (h : c.cfg.state = .pending) :
    c.abortImage = c.updCfg (fun g => { g with state := .discarded, errCode := 0x12, errOff := 0, pend := none }) := by
  simp [Chip.abortImage, Chip.discardImage, h]

theorem Chip.abortImage_validating {c : Chip} (h : c.cfg.state = .validating) :
    c.abortImage = (c.updCfg (fun g => { g with state := .discarded, errCode := 0x12, errOff := 0 })).finishDeferred
      (Deferred.is .admitImg) 0x12 (errPayload 0 0) := by
  simp [Chip.abortImage, h]

theorem Chip.abortImage_idle {c : Chip} (hp : c.cfg.state ≠ .pending) (hv : c.cfg.state ≠ .validating) : c.abortImage = c := by
  simp [Chip.abortImage, Chip.discardImage, hp, hv]

/-- A write of CFG_IMG_CTL is never refused, and takes its bits in ascending order. -/
theorem Chip.busWrite_imgCtl {c : Chip} (who : Master) (v : Word) (hon : c.windowOn 0 = true) :
    c.busWrite who 0x100 v = (c.imgCtl v).answer .done :=
  Chip.busWrite_eq (w := 0) (o := 0x100) rfl (by decide) rfl rfl hon rfl rfl (by decide) (by decide)

theorem Chip.imgCtl_admit {c : Chip} {v : Word} (ha : v.toNat.testBit 0 = true) (hb : v.toNat.testBit 1 = false) :
    c.imgCtl v = c.takeImage := by
  simp [Chip.imgCtl, ha, hb]

theorem Chip.imgCtl_abort {c : Chip} {v : Word} (ha : v.toNat.testBit 0 = false) (hb : v.toNat.testBit 1 = true) :
    c.imgCtl v = c.abortImage := by
  simp [Chip.imgCtl, ha, hb]

/-- IMG_CTL with ADMIT alone does what taking the image does. -/
theorem Does.of_imgCtlAdmit {dt : When} {who : Master} {v : Word} {hyp : Chip → Prop} {concl : Chip → Chip → Prop}
    (ha : v.toNat.testBit 0 = true) (hb : v.toNat.testBit 1 = false) (hon : ∀ b, hyp b → b.up = true ∧ b.windowOn 0 = true)
    (hc : ∀ b, hyp b → concl b (b.takeImage.answer .done)) : Does (.imgCtlAdmit dt who v) dt hyp concl := by
  refine Does.of_run (exec_imgCtlAdmit dt who v) (fun b h => Chip.reaches_of_up who (hon b h).1) (fun b h => ?_)
  rw [Chip.busWrite_imgCtl who v (hon b h).2, Chip.imgCtl_admit ha hb]
  exact hc b h

/-- IMG_CTL with ABORT alone does what aborting does. -/
theorem Does.of_imgCtlAbort {dt : When} {who : Master} {v : Word} {hyp : Chip → Prop} {concl : Chip → Chip → Prop}
    (ha : v.toNat.testBit 0 = false) (hb : v.toNat.testBit 1 = true) (hon : ∀ b, hyp b → b.up = true ∧ b.windowOn 0 = true)
    (hc : ∀ b, hyp b → concl b (b.abortImage.answer .done)) : Does (.imgCtlAbort dt who v) dt hyp concl := by
  refine Does.of_run (exec_imgCtlAbort dt who v) (fun b h => Chip.reaches_of_up who (hon b h).1) (fun b h => ?_)
  rw [Chip.busWrite_imgCtl who v (hon b h).2, Chip.imgCtl_abort ha hb]
  exact hc b h

/-- Settles O13: the write is taken as ADMIT or ABORT, and each does what its state of the image names. -/
theorem imageControlWrites : Obligations.ImageControlWrites := by
  unfold Obligations.ImageControlWrites
  refine fun dt who v => ⟨fun ha hb => ?starts, fun ha hb => ⟨?pending, ?validating, ?idle⟩⟩
  case starts =>
    refine Does.of_imgCtlAdmit ha hb (fun b h => ⟨h.1, h.2.1⟩) (fun b h => ?_)
    obtain ⟨-, -, hv, hp⟩ := h
    rw [Chip.takeImage_free hv hp]
  case pending =>
    refine Does.of_imgCtlAbort ha hb (fun b h => ⟨h.1, h.2.1⟩) (fun b h => ?_)
    obtain ⟨-, -, hp⟩ := h
    rw [Chip.abortImage_pending hp]
  case validating =>
    refine Does.of_imgCtlAbort ha hb (fun b h => ⟨h.1, h.2.1⟩) (fun b h => ?_)
    obtain ⟨-, -, hv⟩ := h
    rw [Chip.abortImage_validating hv]
    exact ⟨by simp, rfl, Chip.frame_mono (Chip.frame_trans (b.frame_updCfg _)
      (Chip.frame_trans (Chip.frame_finishDeferred _ _ _ _) (Chip.frame_answer _ _))) (by decide)⟩
  case idle =>
    refine Does.of_imgCtlAbort ha hb (fun b h => ⟨h.1, h.2.1⟩) (fun b h => ?_)
    obtain ⟨-, -, hp, hv⟩ := h
    rw [Chip.abortImage_idle hp hv]

/-! ### Lengths (R23) -/

/-- An image of a bad length fails the container stage at the length. -/
theorem Chip.validate_badLength (c : Chip) (img : Bytes) {len : Nat} (h : 8 * 2 ^ 20 < len ∨ len % 16 ≠ 0) :
    c.validate img len = ⟨none, (0, 0), .error (1, 8)⟩ := by
  have hhead : headerCheck img len = .error ((1, 8), none) := by
    simp only [headerCheck]
    rw [if_pos (by simpa using h)]
  simp [Chip.validate, container, hhead]

@[simp] theorem Chip.answerAdmit_cfg (c : Chip) : c.answerAdmit.cfg = c.cfg := by
  unfold Chip.answerAdmit
  split <;> simp

theorem Chip.endValidation_badLength {c : Chip} (h : 8 * 2 ^ 20 < c.cfg.admitLen ∨ c.cfg.admitLen % 16 ≠ 0) :
    (c.endValidation none).cfg.state = .rejected ∧ (c.endValidation none).cfg.errCode = 1 ∧ (c.endValidation none).cfg.errOff = 8 ∧
      (c.endValidation none).cfg.pend = none := by
  simp [Chip.endValidation, Chip.imgEvent, Chip.rejectImage, Chip.validate_badLength _ _ h]

/-- Settles O12: an ADMIT finds the image busy (R24); validation of a bad length fails at the first check (R23). -/
theorem admitsAreRejected : Obligations.AdmitsAreRejected := by
  unfold Obligations.AdmitsAreRejected
  refine ⟨fun dt who v ha hb => ?busy, fun dt => ?badLength⟩
  case busy =>
    refine Does.of_imgCtlAdmit ha hb (fun b h => ⟨h.1, h.2.1⟩) (fun b h => ?_)
    obtain ⟨-, -, hbusy⟩ := h
    rw [Chip.takeImage_busy hbusy]
  case badLength =>
    refine Does.of_run (exec_validationEnd dt none) (fun b h => by simp [h.1, h.2.1]) (fun b h => ?_)
    simpa using Chip.endValidation_badLength h.2.2

/-! ### Images (R24, R55, R418) -/

theorem leNat_lt (bs : Bytes) : leNat bs < 256 ^ bs.length := by
  induction bs with
  | nil => simp [leNat]
  | cons b bs ih =>
    have hb := b.isLt
    simp only [leNat, List.length_cons, Nat.pow_succ]
    omega

theorem fieldAt_lt (bs : Bytes) (i n : Nat) : fieldAt bs i n < 256 ^ n :=
  Nat.lt_of_lt_of_le (leNat_lt _) (Nat.pow_le_pow_right (by decide) (List.length_take_le n (bs.drop i)))

/-- A field of four bytes is what a register of that value holds. -/
theorem w32_at_toNat (f : QcpFrame) (i : Nat) : (w32 (f.at_ i 4)).toNat = f.at_ i 4 :=
  Nat.mod_eq_of_lt (fieldAt_lt f.payload i 4)

theorem Chip.doAdmit_free {r : Req} {c : Chip} (hlen : r.f.payload.length = 4) (hv : c.cfg.state ≠ .validating)
    (hp : c.cfg.state ≠ .pending) : c.doAdmit r =
      ((c.updCfg (fun g => { g with imgLen := w32 (r.f.at_ 0 4), state := .validating, admitLen := r.f.at_ 0 4 })).updPl
        (fun p => { p with deferred := p.deferred ++ [{ r := r, arg := 0 }] }), .later) := by
  have htake : (c.updCfg (fun g => { g with imgLen := w32 (r.f.at_ 0 4) })).takeImage =
      c.updCfg (fun g => { g with imgLen := w32 (r.f.at_ 0 4), state := .validating, admitLen := r.f.at_ 0 4 }) := by
    refine (Chip.takeImage_free (by exact hv) (by exact hp)).trans ?_
    simp only [Chip.updCfg, w32_at_toNat]
  simp [Chip.doAdmit, hlen, hv, hp, htake]

theorem Chip.doAdmit_busy {r : Req} {c : Chip} (hlen : r.f.payload.length = 4)
    (h : c.cfg.state = .validating ∨ c.cfg.state = .pending) : c.doAdmit r =
      (c.updCfg (fun g => { g with imgLen := w32 (r.f.at_ 0 4), errCode := 0x10, errOff := 0 }), .err 0x10 0 0) := by
  have htake : (c.updCfg (fun g => { g with imgLen := w32 (r.f.at_ 0 4) })).takeImage =
      c.updCfg (fun g => { g with imgLen := w32 (r.f.at_ 0 4), errCode := 0x10, errOff := 0 }) := Chip.takeImage_busy h
  simp [Chip.doAdmit, hlen, h, htake]

section
variable {dt : When} {f : QcpFrame}

theorem does_qcpAdmit_free (hlen : f.payload.length = 4) :
    Does (.qcpAdmit dt f) dt (fun b => b.inTurnRunning f ∧ b.cfg.state ≠ .validating ∧ b.cfg.state ≠ .pending)
      (fun b e => e.cfg = { b.cfg with imgLen := w32 (f.at_ 0 4), state := .validating, admitLen := f.at_ 0 4 } ∧
        (∃ d, e.pl.deferred = b.pl.deferred ++ [d] ∧ d.r.op = .admitImg ∧ d.r.f = f) ∧ e.pl.next = f.seq + 1 ∧
        b.frame e [.qy, .pl, .cfg]) := by
  refine Does.of_later (exec_qcpAdmit dt f) rfl (fun b h => h.1) (fun b h => ?_)
  obtain ⟨hturn, hv, hp⟩ := h
  have htakes := hturn.takes
  have hcfg := Chip.accepted_cfg htakes
  refine ⟨_, Chip.doAdmit_free hlen (by rwa [hcfg]) (by rwa [hcfg]), ⟨rfl, rfl, rfl⟩, ?_, ⟨{ r := { op := .admitImg, f := f }, arg := 0 }, ?_, rfl, rfl⟩, ?_,
    Chip.frame_mono (Chip.frame_trans (Chip.frame_accepted htakes) (Chip.frame_trans (Chip.frame_updCfg _ _) (Chip.frame_updPl _ _)))
      (by decide)⟩
  · simp [hcfg]
  · simp [Chip.accepted_pl htakes, Chip.plAccepted]
  · simp [Chip.accepted_pl htakes, Chip.plAccepted, hturn.inTurn.seq]

theorem does_qcpAdmit_busy (hlen : f.payload.length = 4) :
    Does (.qcpAdmit dt f) dt (fun b => b.inTurnRunning f ∧ (b.cfg.state = .validating ∨ b.cfg.state = .pending))
      (fun b e => e.cfg = { b.cfg with imgLen := w32 (f.at_ 0 4), errCode := 0x10, errOff := 0 } ∧
        e.tx = b.tx ++ [responseFrame f b.pl.qcpEtype 0x31 0x10 0 (errPayload 0 0)] ∧ b.frame e [.qy, .pl, .cfg, .tx]) := by
  refine Does.of_err (exec_qcpAdmit dt f) rfl (fun b h => h.1) (fun b h => ?_)
  obtain ⟨hturn, hbusy⟩ := h
  have htakes := hturn.takes
  have hcfg := Chip.accepted_cfg htakes
  refine ⟨_, _, _, _, Chip.doAdmit_busy hlen (by rwa [hcfg]), ⟨rfl, rfl, rfl⟩, ?_, ?_,
    Chip.frame_mono (Chip.frame_trans (Chip.frame_accepted htakes) (Chip.frame_trans (Chip.frame_updCfg _ _) (Chip.frame_respond _ _ _ _ _ _)))
      (by decide)⟩
  · simp [hcfg]
  · simp [Chip.respond_tx, Chip.accepted_tx htakes, Op.code]

/-! ### Firmware updates (R447) -/

theorem Chip.doFwUpdate_starts {r : Req} {c : Chip} (hlen : r.f.payload.length = 4) (hidle : c.hm.upd = .idle)
    (howned : c.pl.session.any (·.owned) = true) : c.doFwUpdate r =
      ((c.updHm (fun h => { h with upd := .verifying, updLen := r.f.at_ 0 4 })).updPl
        (fun p => { p with deferred := p.deferred ++ [{ r := r, arg := r.f.at_ 0 4 }] }), .later) := by
  simp [Chip.doFwUpdate, hlen, hidle, howned, Chip.fwStart]

theorem Chip.doFwUpdate_refused {r : Req} {c : Chip} (hlen : r.f.payload.length = 4)
    (h : c.hm.upd ≠ .idle ∨ c.pl.session.any (·.owned) = false) : c.doFwUpdate r = (c, .err 0x3B 0 0) := by
  simp only [Chip.doFwUpdate, hlen]
  obtain h | h := h <;> simp [h]

/-- Taking a command leaves the session owned or not. -/
theorem Chip.accepted_owned {b : Chip} (h : b.takesQcp f) :
    (b.accepted f).pl.session.any (·.owned) = b.pl.session.any (·.owned) := by
  rw [Chip.accepted_pl h]
  cases hs : b.pl.session <;> simp [Chip.plAccepted, hs]

theorem does_qcpFwUpdate_starts (hlen : f.payload.length = 4) :
    Does (.qcpFwUpdate dt f) dt (fun b => b.inTurnRunning f ∧ b.hm.upd = .idle ∧ ∃ x, b.pl.session = some x ∧ x.owned = true)
      (fun b e => e.hm = { b.hm with upd := .verifying, updLen := f.at_ 0 4 } ∧
        (∃ d, e.pl.deferred = b.pl.deferred ++ [d] ∧ d.r.op = .fwUpdate ∧ d.r.f = f) ∧ b.frame e [.qy, .pl, .hm]) := by
  refine Does.of_later (exec_qcpFwUpdate dt f) rfl (fun b h => h.1) (fun b h => ?_)
  obtain ⟨hturn, hidle, x, hx, howned⟩ := h
  have htakes := hturn.takes
  have hhm := Chip.accepted_hm htakes
  refine ⟨_, Chip.doFwUpdate_starts hlen (by rwa [hhm]) (by rw [Chip.accepted_owned htakes, hx]; exact howned), ⟨rfl, rfl, rfl⟩, ?_,
    ⟨{ r := { op := .fwUpdate, f := f }, arg := f.at_ 0 4 }, ?_, rfl, rfl⟩,
    Chip.frame_mono (Chip.frame_trans (Chip.frame_accepted htakes) (Chip.frame_trans (Chip.frame_updHm _ _) (Chip.frame_updPl _ _)))
      (by decide)⟩
  · simp [hhm]
  · simp [Chip.accepted_pl htakes, Chip.plAccepted]

theorem does_qcpFwUpdate_refused (hlen : f.payload.length = 4) :
    Does (.qcpFwUpdate dt f) dt (fun b => b.inTurnRunning f ∧ (b.hm.upd ≠ .idle ∨ ∀ x, b.pl.session = some x → x.owned = false))
      (fun b e => e = (b.accepted f).respond b.pl.qcpEtype .fwUpdate f 0x3B (errPayload 0 0)) := by
  refine Does.of_err (exec_qcpFwUpdate dt f) rfl (fun b h => h.1) (fun b h => ?_)
  obtain ⟨hturn, hrefused⟩ := h
  have htakes := hturn.takes
  refine ⟨_, _, _, _, Chip.doFwUpdate_refused hlen ?_, .refl _, rfl⟩
  rw [Chip.accepted_hm htakes, Chip.accepted_owned htakes]
  refine hrefused.imp_right (fun h => ?_)
  cases hs : b.pl.session with
  | none => rfl
  | some x => exact h x hs

/-! ### ABORT -/

theorem Chip.perform_abort {c : Chip} (hbare : f.payload = []) :
    c.perform { op := .abortImg, f := f } = (c.abortImage, .ok (toLe 4 c.abortImage.imgStatus.toNat)) := by
  simp [Chip.perform, hbare]

theorem does_qcpAbort_pending (hbare : f.payload = []) :
    Does (.qcpAbort dt f) dt (fun b => b.inTurnRunning f ∧ b.cfg.state = .pending)
      (fun b e => e.cfg = { b.cfg with state := .discarded, errCode := 0x12, errOff := 0, pend := none } ∧
        e.tx = b.tx ++ [responseFrame f b.pl.qcpEtype 0x32 0 0 (toLe 4 e.imgStatus.toNat)] ∧ b.frame e [.qy, .pl, .cfg, .tx]) := by
  refine Does.of_ok (exec_qcpAbort dt f) rfl (fun b h => h.1) (fun b h => ?_)
  obtain ⟨hturn, hpending⟩ := h
  have htakes := hturn.takes
  have hcfg := Chip.accepted_cfg htakes
  rw [Chip.perform_abort hbare, Chip.abortImage_pending (by rwa [hcfg])]
  refine ⟨_, _, rfl, ⟨rfl, rfl, rfl⟩, ?_, ?_,
    Chip.frame_mono (Chip.frame_trans (Chip.frame_accepted htakes) (Chip.frame_trans (Chip.frame_updCfg _ _) (Chip.frame_respond _ _ _ _ _ _)))
      (by decide)⟩
  · simp [hcfg]
  · simp [Chip.respond_tx, Chip.accepted_tx htakes, Op.code, Chip.imgStatus]

theorem does_qcpAbort_idle (hbare : f.payload = []) :
    Does (.qcpAbort dt f) dt (fun b => b.inTurnRunning f ∧ b.cfg.state ≠ .pending ∧ b.cfg.state ≠ .validating)
      (fun b e => e = (b.accepted f).respond b.pl.qcpEtype .abortImg f 0 (toLe 4 (b.accepted f).imgStatus.toNat)) := by
  refine Does.of_ok (exec_qcpAbort dt f) rfl (fun b h => h.1) (fun b h => ?_)
  obtain ⟨hturn, hp, hv⟩ := h
  have hcfg := Chip.accepted_cfg hturn.takes
  rw [Chip.perform_abort hbare, Chip.abortImage_idle (by rwa [hcfg]) (by rwa [hcfg])]
  exact ⟨_, _, rfl, .refl _, rfl⟩

/-! ### SEAL (R42) -/

theorem Chip.openSet_of_cfg {c d : Chip} (h : d.cfg = c.cfg) (w : Nat) : d.openSet w = c.openSet w := by
  simp [Chip.openSet, Chip.str, h]

theorem Chip.doSeal_starts {r : Req} {c : Chip} (hlen : r.f.payload.length = 2) (h : (c.openSet (r.f.at_ 0 2)).isSome = true) :
    c.doSeal r = (c.updPl (fun p => { p with deferred := p.deferred ++ [{ r := r, arg := r.f.at_ 0 2 }] }), .later) := by
  have hopen : ¬ (c.openSet (r.f.at_ 0 2)).isNone = true := by simpa [Option.isSome_iff_ne_none] using h
  simp only [Chip.doSeal, hlen]
  rw [if_neg (by decide), if_neg hopen]

theorem Chip.doSeal_closed {r : Req} {c : Chip} (hlen : r.f.payload.length = 2) (h : c.openSet (r.f.at_ 0 2) = none) :
    c.doSeal r = (c, .err 0x3A 0 0) := by
  simp [Chip.doSeal, hlen, h]

theorem does_qcpSeal_starts (hlen : f.payload.length = 2) :
    Does (.qcpSeal dt f) dt (fun b => b.inTurnRunning f ∧ (b.openSet (f.at_ 0 2)).isSome = true)
      (fun b e => (∃ d, e.pl.deferred = b.pl.deferred ++ [d] ∧ d.r.op = .sealSet ∧ d.r.f = f ∧ d.arg = f.at_ 0 2) ∧
        b.frame e [.qy, .pl]) := by
  refine Does.of_later (exec_qcpSeal dt f) rfl (fun b h => h.1) (fun b h => ?_)
  obtain ⟨hturn, hset⟩ := h
  have htakes := hturn.takes
  refine ⟨_, Chip.doSeal_starts hlen (by rwa [Chip.openSet_of_cfg (Chip.accepted_cfg htakes)]), ⟨rfl, rfl, rfl⟩,
    ⟨{ r := { op := .sealSet, f := f }, arg := f.at_ 0 2 }, ?_, rfl, rfl, rfl⟩,
    Chip.frame_mono (Chip.frame_trans (Chip.frame_accepted htakes) (Chip.frame_updPl _ _)) (by decide)⟩
  simp [Chip.accepted_pl htakes, Chip.plAccepted]

theorem does_qcpSeal_closed (hlen : f.payload.length = 2) :
    Does (.qcpSeal dt f) dt (fun b => b.inTurnRunning f ∧ b.openSet (f.at_ 0 2) = none)
      (fun b e => e = (b.accepted f).respond b.pl.qcpEtype .sealSet f 0x3A (errPayload 0 0)) := by
  refine Does.of_err (exec_qcpSeal dt f) rfl (fun b h => h.1) (fun b h => ?_)
  obtain ⟨hturn, hset⟩ := h
  exact ⟨_, _, _, _, Chip.doSeal_closed hlen (by rwa [Chip.openSet_of_cfg (Chip.accepted_cfg hturn.takes)]), .refl _, rfl⟩

/-! ### ATTEST (R450) -/

theorem Chip.doAttest_ready {c : Chip} (hlen : f.payload.length = 32) (h : c.hm.idReady = true) :
    c.doAttest f = (c, .ok (c.report f.payload)) := by
  simp [Chip.doAttest, hlen, h]

/-- The report says nothing of the ports or the protocol block. -/
theorem Chip.accepted_report {b : Chip} (h : b.takesQcp f) (nonce : Bytes) : (b.accepted f).report nonce = b.report nonce := by
  obtain ⟨ports, -, hacc⟩ := h.ingress
  rw [hacc]
  rfl

theorem does_qcpAttest (hlen : f.payload.length = 32) :
    Does (.qcpAttest dt f) dt (fun b => b.inTurnRunning f ∧ b.hm.idReady = true)
      (fun b e => e = (b.accepted f).respond b.pl.qcpEtype .attest f 0 (b.report f.payload)) := by
  refine Does.of_ok (exec_qcpAttest dt f) rfl (fun b h => h.1) (fun b h => ?_)
  obtain ⟨hturn, hready⟩ := h
  have htakes := hturn.takes
  refine ⟨_, _, Chip.doAttest_ready hlen (by rwa [Chip.accepted_hm htakes]), .refl _, ?_⟩
  rw [Chip.accepted_report htakes]
end

/-! ### SEAL_COMPLETE (R42) -/

theorem Chip.por_of_sealing {b : Chip} {set : Nat} (h : b.sealing set = true) : b.por = false := by
  simp only [Chip.sealing, Chip.awake, Bool.and_eq_true, Bool.not_eq_true'] at h
  exact h.1.1

section
variable {dt : When} {set : Nat} {w : WeightDecl}

/-- Completing the SEAL ends its wait. -/
theorem Chip.finishSeal_length {c : Chip} (status : Nat) (payload : Bytes) {b : Chip} (h : b.sealing set = true) (hpl : c.pl = b.pl) :
    (c.finishDeferred (Deferred.isSeal set) status payload).pl.deferred.length + 1 = b.pl.deferred.length := by
  rw [← hpl]
  refine Chip.finishDeferred_length status payload ?_
  rw [hpl]
  exact (Bool.and_eq_true_iff.mp h).2

theorem Chip.sealDone_unopened {c : Chip} (h : c.openSet set = none) :
    c.sealDone set = c.finishDeferred (Deferred.isSeal set) 0x3A (errPayload 0 0) := by
  simp [Chip.sealDone, h]

theorem Chip.sealDone_noRoom {c : Chip} (h : c.openSet set = some w) (hroom : (c.str.regionAt w.region).2 < w.length) :
    c.sealDone set = c.finishDeferred (Deferred.isSeal set) 0x39 (errPayload (c.str.regionAt w.region).1 0) := by
  simp [Chip.sealDone, h, hroom]

/-- The read of a SEAL_COMPLETE: the open set's bytes, by a requester that the draws give. -/
def Chip.sealRead (c : Chip) (w : WeightDecl) : Chip × Option Bytes :=
  c.openRequester.2.readOwn c.openRequester.1 0xFF (c.str.regionAt w.region).1 w.length

section
variable {c d : Chip} (hopen : c.openSet set = some w) (hroom : w.length ≤ (c.str.regionAt w.region).2)
include hopen hroom

theorem Chip.sealDone_unread (hread : c.sealRead w = (d, none)) :
    c.sealDone set = d.finishDeferred (Deferred.isSeal set) 0x39 (errPayload (c.str.regionAt w.region).1 0) := by
  unfold Chip.sealRead at hread
  simp only [Chip.sealDone, hopen, hread]
  rw [if_neg (Nat.not_lt.mpr hroom)]

theorem Chip.sealDone_matches {bs : Bytes} (hread : c.sealRead w = (d, some bs)) (hhash : sha256 bs = w.hash) :
    c.sealDone set = (d.updCfg (fun g => { g with sealedSets := g.sealedSets ++ [set] })).finishDeferred (Deferred.isSeal set) 0
      (hashBytes w.hash) := by
  unfold Chip.sealRead at hread
  simp only [Chip.sealDone, hopen, hread]
  rw [if_neg (Nat.not_lt.mpr hroom), if_pos (beq_iff_eq.mpr hhash)]

theorem Chip.sealDone_differs {bs : Bytes} (hread : c.sealRead w = (d, some bs)) (hhash : sha256 bs ≠ w.hash) :
    c.sealDone set = d.finishDeferred (Deferred.isSeal set) 0x39 (errPayload (c.str.regionAt w.region).1 0) := by
  unfold Chip.sealRead at hread
  simp only [Chip.sealDone, hopen, hread]
  rw [if_neg (Nat.not_lt.mpr hroom), if_neg (by simpa using hhash)]
end

theorem Chip.frame_openRequester (c : Chip) : c.frame c.openRequester.2 [.draws] := c.frame_open

theorem Chip.sealRead_refused {c : Chip} {v : Nat × Nat} (h : c.refusal .device false (c.str.regionAt w.region).1 w.length = some v) :
    c.sealRead w = (c.openRequester.2.recordViol c.openRequester.1 0xFF v.1 v.2 noStep, none) :=
  Chip.readOwn_refused (c := c.openRequester.2) _ _ h

theorem Chip.sealRead_quiet {c : Chip} (hmet : c.met = []) (h : c.refusal .device false (c.str.regionAt w.region).1 w.length = none) :
    c.sealRead w = (c.openRequester.2.touch false (c.str.regionAt w.region).1 w.length,
      some (c.dramRead (c.str.regionAt w.region).1 w.length)) :=
  Chip.readOwn_quiet (c := c.openRequester.2) hmet _ _ h

/-- What a SEAL_COMPLETE leaves of the chip where the read meets no sector error and the set stays unsealed. -/
theorem Chip.sealDone_stays {b : Chip} (hsealing : b.sealing set = true) (hmet : b.met = []) (hopen : b.openSet set = some w)
    (h : b.refusal .device false (b.str.regionAt w.region).1 w.length ≠ none ∨
      sha256 (b.dramRead (b.str.regionAt w.region).1 w.length) ≠ w.hash) :
    (b.sealDone set).pl.deferred.length + 1 = b.pl.deferred.length ∧ b.frame (b.sealDone set) [.pl, .tx, .mc, .draws, .ic, .lh, .sn] := by
  obtain hroom | hroom := Nat.lt_or_ge (b.str.regionAt w.region).2 w.length
  · rw [Chip.sealDone_noRoom hopen hroom]
    exact ⟨Chip.finishSeal_length _ _ hsealing rfl, Chip.frame_mono (b.frame_finishDeferred _ _ _) (by decide)⟩
  cases hrefusal : b.refusal .device false (b.str.regionAt w.region).1 w.length with
  | some v =>
    have hviol := Chip.frame_trans b.frame_openRequester
      (Chip.frame_recordViol b.openRequester.2 b.openRequester.1 0xFF v.1 v.2 noStep)
    rw [Chip.sealDone_unread hopen hroom (Chip.sealRead_refused hrefusal)]
    exact ⟨Chip.finishSeal_length _ _ hsealing (hviol .pl (by decide)),
      Chip.frame_mono (Chip.frame_trans hviol (Chip.frame_finishDeferred _ _ _ _)) (by decide)⟩
  | none =>
    have hhash : sha256 (b.dramRead (b.str.regionAt w.region).1 w.length) ≠ w.hash := by simpa [hrefusal] using h
    have hread := Chip.frame_trans b.frame_openRequester
      (Chip.frame_touch b.openRequester.2 false (b.str.regionAt w.region).1 w.length)
    rw [Chip.sealDone_differs hopen hroom (Chip.sealRead_quiet hmet hrefusal) hhash]
    exact ⟨Chip.finishSeal_length _ _ hsealing (hread .pl (by decide)),
      Chip.frame_mono (Chip.frame_trans hread (Chip.frame_finishDeferred _ _ _ _)) (by decide)⟩

theorem does_sealComplete_sealed (herrs : dt.errs = []) :
    Does (.sealComplete dt set) dt
      (fun b => b.sealing set = true ∧ b.openSet set = some w ∧ w.length ≤ (b.str.regionAt w.region).2 ∧
        b.refusal .device false (b.str.regionAt w.region).1 w.length = none ∧
        sha256 (b.dramRead (b.str.regionAt w.region).1 w.length) = w.hash)
      (fun b e => e.cfg = { b.cfg with sealedSets := b.cfg.sealedSets ++ [set] } ∧
        e.pl.deferred.length + 1 = b.pl.deferred.length ∧ b.frame e [.cfg, .pl, .tx, .mc, .draws]) := by
  refine Does.of_run_quiet (exec_sealComplete dt set) herrs (fun b h => h.1) (fun b h => Chip.por_of_sealing h.1) (fun b h hmet => ?_)
  obtain ⟨hsealing, hopen, hroom, hrefusal, hhash⟩ := h
  have hread := Chip.frame_trans b.frame_openRequester
    (Chip.frame_touch b.openRequester.2 false (b.str.regionAt w.region).1 w.length)
  rw [Chip.sealDone_matches hopen hroom (Chip.sealRead_quiet hmet hrefusal) hhash]
  refine ⟨?_, Chip.finishSeal_length _ _ hsealing (hread .pl (by decide)),
    Chip.frame_mono (Chip.frame_trans hread (Chip.frame_trans (Chip.frame_updCfg _ _) (Chip.frame_finishDeferred _ _ _ _))) (by decide)⟩
  have hcfg : (b.openRequester.2.touch false (b.str.regionAt w.region).1 w.length).cfg = b.cfg := hread .cfg (by decide)
  simp [hcfg]

theorem does_sealComplete_stays (herrs : dt.errs = []) :
    Does (.sealComplete dt set) dt
      (fun b => b.sealing set = true ∧ b.openSet set = some w ∧
        (b.refusal .device false (b.str.regionAt w.region).1 w.length ≠ none ∨
          sha256 (b.dramRead (b.str.regionAt w.region).1 w.length) ≠ w.hash))
      (fun b e => e.pl.deferred.length + 1 = b.pl.deferred.length ∧ b.frame e [.pl, .tx, .mc, .draws, .ic, .lh, .sn]) :=
  Does.of_run_quiet (exec_sealComplete dt set) herrs (fun _ h => h.1) (fun _ h => Chip.por_of_sealing h.1)
    (fun _ h hmet => Chip.sealDone_stays h.1 hmet h.2.1 h.2.2)

theorem does_sealComplete_unread :
    Does (.sealComplete dt set) dt (fun b => b.sealing set = true ∧ (b.openSet set = none ∨
        b.openSet set = some w ∧ (b.str.regionAt w.region).2 < w.length))
      (fun b e => e.pl.deferred.length + 1 = b.pl.deferred.length ∧ b.frame e [.pl, .tx]) := by
  refine Does.of_run (exec_sealComplete dt set) (fun b h => h.1) (fun b h => ?_)
  obtain ⟨hsealing, hclosed | ⟨hopen, hroom⟩⟩ := h
  · rw [Chip.sealDone_unopened hclosed]
    exact ⟨Chip.finishSeal_length _ _ hsealing rfl, b.frame_finishDeferred _ _ _⟩
  · rw [Chip.sealDone_noRoom hopen hroom]
    exact ⟨Chip.finishSeal_length _ _ hsealing rfl, b.frame_finishDeferred _ _ _⟩

end

/-! ### OWNER_KEY (R445) -/

section
variable {dt : When} {f : QcpFrame}

theorem State.start_ownerKey {s t : State} {status : Nat} {payload : Bytes} (hlen : f.payload.length = 772)
    (hstage : s.chip.hm.stage = .running) (hroom : s.chip.pl.deferred.length < 8)
    (hkey : s.ownerKey f.payload = (t, status, payload)) (hopen : t.chip.pl.opens f = true) :
    State.start { op := .ownerKey, f := f } s = { t with chip := t.chip.respond s.chip.pl.qcpEtype .ownerKey f status payload } := by
  have hopen : t.chip.pl.session.any (fun x => x.id == f.session) = true := hopen
  have hfull : decide (8 ≤ s.chip.pl.deferred.length) = false := by simpa using hroom
  simp [State.start, hstage, hfull, hlen, hkey, hopen]

/-- OWNER_KEY in its turn: t, the status and the payload are what it decides on the chip that has accepted it. -/
theorem DoesState.of_ownerKey {hyp : State → Prop} {concl : State → State → Prop} (hlen : f.payload.length = 772)
    (hturn : ∀ b, hyp b → b.chip.inTurnRunning f)
    (hx : ∀ b, hyp b → ∃ t status payload, State.ownerKey f.payload { b with chip := b.chip.accepted f } = (t, status, payload) ∧
      t.pending = b.pending ∧ t.chip.pl = (b.chip.accepted f).pl ∧
      concl b { t with chip := t.chip.respond b.chip.pl.qcpEtype .ownerKey f status payload }) :
    DoesState (.qcpOwnerKey dt f) dt hyp concl := by
  have heffect : ∀ b, hyp b → ∃ e : State, State.receive { op := .ownerKey, f := f } b = e ∧ e.pending = b.pending ∧ concl b e := by
    intro b h
    obtain ⟨hinturn, hstage, hroom⟩ := hturn b h
    obtain ⟨t, status, payload, hkey, hpending, hpl, hconcl⟩ := hx b h
    have haccepted := Chip.accepted_pl hinturn.takes
    have hopen : t.chip.pl.opens f = true := by
      rw [hpl, haccepted, Chip.plAccepted_opens]
      exact hinturn.opens
    have hstart := State.start_ownerKey (s := { b with chip := b.chip.accepted f }) hlen
      (by simpa [Chip.accepted_hm hinturn.takes] using hstage) (by simpa [haccepted, Chip.plAccepted] using hroom) hkey hopen
    refine ⟨_, State.receive_inTurn hinturn ⟨nofun, nofun⟩ ?_, ?_⟩
    · rw [hstart]
      exact ⟨congrArg (·.session) hpl, congrArg (·.next) hpl, congrArg (·.held) hpl⟩
    · rw [hstart]
      refine ⟨hpending, ?_⟩
      rw [haccepted]
      exact hconcl
  refine DoesState.of_runState (exec_qcpOwnerKey dt f) (fun b h => (hturn b h).hears) (fun b h => ?_) (fun b h => ?_)
  all_goals
    obtain ⟨e, rfl, hpending, hconcl⟩ := heffect b h
  · exact hpending
  · exact hconcl

/-- The nonce that an owner key signs over: that of the last HELLO. -/
def Proto.nonceValue (p : Proto) : Hash := match p.nonce with | some n => n.value | none => 0

/-- What OWNER_KEY decides in a state. -/
def State.verdict (s : State) (payload : Bytes) : KeyVerdict :=
  keyVerdict s.fuses.ownerSlots s.chip.hm.owner s.chip.pl.nonceValue s.chip.idHash payload

theorem State.ownerKey_refused {s : State} {payload : Bytes} {code addr : Nat} (h : s.verdict payload = .refused code addr) :
    s.ownerKey payload = ({ s with chip := s.chip.hmErr 2 }, code, errPayload addr 0) := by
  cases hn : s.chip.pl.nonce
  all_goals
    simp only [State.verdict, Proto.nonceValue, hn] at h
    simp only [State.ownerKey, hn, h]

/-- The state with the key accepted: its slots in the fuses and on the chip, its record in the flash. -/
def State.keyAccepted (slots : List Hash) (m : Bytes) (s : State) : State :=
  { s with
    fuses := { s.fuses with ownerSlots := slots }
    flash := if s.flash.present then { s.flash with mem := s.flash.mem.write ownerRecordAt (ownerRecord (slots.length - 1) m) } else s.flash
    chip := (s.chip.updHm (fun h => { h with owner := some (rsaOf m) })).updId (fun d => { d with ownerSlots := slots }) }

theorem State.ownerKey_accepted {s : State} {payload : Bytes} {slots : List Hash} (hstage : s.chip.hm.stage = .running)
    (h : s.verdict payload = .accepted slots) :
    s.ownerKey payload = (s.keyAccepted slots (slice payload 0 384), 0, hashBytes (sha256 (slice payload 0 384))) := by
  cases hn : s.chip.pl.nonce
  all_goals
    simp only [State.verdict, Proto.nonceValue, hn] at h
    simp only [State.ownerKey, hn, h]
    cases hf : s.flash.present <;> simp [State.keyAccepted, hstage, hf]

/-- Taking a command changes nothing that the verdict rests on. -/
theorem State.accepted_verdict {b : State} (h : b.chip.takesQcp f) (payload : Bytes) :
    State.verdict { b with chip := b.chip.accepted f } payload = b.verdict payload := by
  obtain ⟨ports, -, hacc⟩ := h.ingress
  rw [hacc]
  rfl

theorem does_qcpOwnerKey_accepted (hlen : f.payload.length = 772) (nonce : Hash) (slots : List Hash) :
    DoesState (.qcpOwnerKey dt f) dt
      (fun b => b.chip.inTurnRunning f ∧ nonce = (match b.chip.pl.nonce with | some n => n.value | none => 0) ∧
        keyVerdict b.fuses.ownerSlots b.chip.hm.owner nonce b.chip.idHash f.payload = .accepted slots)
      (fun b e => e.fuses = { b.fuses with ownerSlots := slots } ∧ e.chip.hm = { b.chip.hm with owner := some (rsaOf (slice f.payload 0 384)) } ∧
        e.chip.id = { b.chip.id with ownerSlots := slots } ∧
        (b.flash.present = false → e.flash = b.flash) ∧
        (b.flash.present = true → e.flash = { b.flash with
          mem := (b.flash.mem.write ownerRecordAt (ownerRecord (slots.length - 1) (slice f.payload 0 384))) }) ∧
        e.chip.tx = b.chip.tx ++ [responseFrame f b.chip.pl.qcpEtype 0x63 0 0 (hashBytes (sha256 (slice f.payload 0 384)))] ∧
        b.chip.frame e.chip [.qy, .pl, .hm, .id, .tx]) := by
  refine DoesState.of_ownerKey hlen (fun b h => h.1) (fun b h => ?_)
  obtain ⟨hturn, rfl, hverdict⟩ := h
  have htakes := hturn.takes
  have hid : (b.chip.accepted f).id = b.chip.id := Chip.frame_accepted htakes .id (by decide)
  have hkey := State.ownerKey_accepted (s := { b with chip := b.chip.accepted f }) (by simpa [Chip.accepted_hm htakes] using hturn.stage)
    ((State.accepted_verdict htakes f.payload).trans hverdict)
  refine ⟨_, _, _, hkey, rfl, rfl, rfl, ?hm, ?id, ?absent, ?present, ?tx, ?frame⟩
  case hm => simp [State.keyAccepted, Chip.accepted_hm htakes]
  case id => simp [State.keyAccepted, hid]
  case absent => exact fun hf => by simp [State.keyAccepted, hf]
  case present => exact fun hf => by simp [State.keyAccepted, hf]
  case tx => simp [State.keyAccepted, Chip.respond_tx, Chip.accepted_tx htakes, Op.code]
  case frame =>
    exact Chip.frame_mono (Chip.frame_trans (Chip.frame_accepted htakes) (Chip.frame_trans (Chip.frame_updHm _ _)
      (Chip.frame_trans (Chip.frame_updId _ _) (Chip.frame_respond _ _ _ _ _ _)))) (by decide)

theorem does_qcpOwnerKey_refused (hlen : f.payload.length = 772) (nonce : Hash) (code addr : Nat) :
    DoesState (.qcpOwnerKey dt f) dt
      (fun b => b.chip.inTurnRunning f ∧ nonce = (match b.chip.pl.nonce with | some n => n.value | none => 0) ∧
        keyVerdict b.fuses.ownerSlots b.chip.hm.owner nonce b.chip.idHash f.payload = .refused code addr)
      (fun b e => e.fuses = b.fuses ∧ e.flash = b.flash ∧ e.chip.hm = { b.chip.hm with err := setBit b.chip.hm.err 2 } ∧
        e.chip.tx = b.chip.tx ++ [responseFrame f b.chip.pl.qcpEtype 0x63 code 0 (errPayload addr 0)] ∧
        b.chip.frame e.chip [.qy, .pl, .hm, .ic, .lh, .sn, .tx]) := by
  refine DoesState.of_ownerKey hlen (fun b h => h.1) (fun b h => ?_)
  obtain ⟨hturn, rfl, hverdict⟩ := h
  have htakes := hturn.takes
  have hkey : State.ownerKey f.payload { b with chip := b.chip.accepted f } =
      ({ b with chip := (b.chip.accepted f).hmErr 2 }, code, errPayload addr 0) :=
    State.ownerKey_refused ((State.accepted_verdict htakes f.payload).trans hverdict)
  refine ⟨_, _, _, hkey, rfl, by simp, rfl, rfl, ?hm, ?tx, ?frame⟩
  case hm => simp [Chip.accepted_hm htakes]
  case tx => simp [Chip.respond_tx, Chip.accepted_tx htakes, Op.code]
  case frame =>
    dsimp only
    exact Chip.frame_mono (Chip.frame_trans (Chip.frame_accepted htakes) (Chip.frame_trans (Chip.frame_hmErr _ _)
      (Chip.frame_respond _ _ _ _ _ _))) (by decide)

end

/-- Settles O58: each command in its turn, by what it does on the chip that has accepted it. -/
theorem imagesSealsAndKeys : Obligations.ImagesSealsAndKeys := by
  unfold Obligations.ImagesSealsAndKeys
  exact fun dt f =>
    ⟨fun hlen => ⟨does_qcpAdmit_free hlen, does_qcpAdmit_busy hlen, does_qcpFwUpdate_starts hlen, does_qcpFwUpdate_refused hlen⟩,
      fun hbare => ⟨does_qcpAbort_pending hbare, does_qcpAbort_idle hbare⟩,
      fun hlen => ⟨does_qcpSeal_starts hlen, does_qcpSeal_closed hlen⟩,
      fun set w => ⟨does_sealComplete_sealed, does_sealComplete_stays, does_sealComplete_unread⟩,
      fun hlen => does_qcpAttest hlen,
      fun hlen nonce => ⟨does_qcpOwnerKey_accepted hlen nonce, does_qcpOwnerKey_refused hlen nonce⟩⟩

end Sys2Proof.Machine
end

section
/-! PROOFS. The statement on the jobs of the motion and disparity engines (O27): a motion job whose stream's context is faulted stops when it
comes to the field of its reference frame. -/

namespace Sys2Proof.Machine

/-! ### A read for a context that is faulted (R347) -/

/-- A read that nothing refuses and that meets no sector error brings a faulted context no bytes. -/
theorem Chip.readFor_faulted {c : Chip} {x a n : Nat} (r : Requester) (step : Word) (hmet : c.met = [])
    (hallowed : c.refusal (.ctx x) false a n = none) (hfaulted : (c.ctx x).st = .faulted) :
    c.readFor r x step a n = (c.touch false a n, none) := by
  have htt : (c.touch false a n).tt = c.tt := c.frame_touch false a n .tt (by decide)
  have hctx : (c.touch false a n).ctx x = c.ctx x := by rw [Chip.ctx, htt, Chip.ctx]
  simp [Chip.readFor, hallowed, Chip.readSectors_quiet hmet, hctx, hfaulted]

/-- The field of a reference frame that has been written is not read for a faulted context. -/
theorem Chip.fieldOf_faulted {c : Chip} {d : StreamDecl} {f : ClosedFrame} (hmet : c.met = []) (hclose : f.closeIdx ≠ 0)
    (hwritten : ∃ w ∈ c.me.written, w.stream = d.idx ∧ w.closeIdx = f.closeIdx - 1)
    (hallowed : c.refusal (.ctx d.ctx) false (c.motionAt d (f.closeIdx - 1) + 64) (4 * (d.motionDims.1 * d.motionDims.2)) = none)
    (hfaulted : (c.ctx d.ctx).st = .faulted) :
    c.fieldOf d f =
      (c.touch false (c.motionAt d (f.closeIdx - 1) + 64) (4 * (d.motionDims.1 * d.motionDims.2)), none, false) := by
  have hany : c.me.written.any (fun w => w.stream == d.idx && w.closeIdx == f.closeIdx - 1) = true := by
    simpa [List.any_eq_true] using hwritten
  simp [Chip.fieldOf, hclose, hany, Chip.readFor_faulted .motion noStep hmet hallowed hfaulted]

/-! ### The motion job of a stream whose context is faulted -/

theorem Chip.frame_updMe (c : Chip) (f : Motion → Motion) : c.frame (c.updMe f) [.me] := by
  intro x hx
  cases x <;> simp [Blk.same] at hx ⊢

/-- The motion engine can take job j, whose frame's predecessor has its field written, where the context of the job's stream d may read it. -/
structure Chip.motionReads (b : Chip) (j : Job) (d : StreamDecl) : Prop where
  awake : b.awake = true
  free : b.me.eng.run = none
  next : nextJob b.me.eng.q = some j
  stream : b.str.stream j.stream = some d
  closed : j.frame.closeIdx ≠ 0
  written : ∃ w ∈ b.me.written, w.stream = d.idx ∧ w.closeIdx = j.frame.closeIdx - 1
  allowed : b.refusal (.ctx d.ctx) false (b.motionAt d (j.frame.closeIdx - 1) + 64) (4 * (d.motionDims.1 * d.motionDims.2)) = none

section
variable {b : Chip} {j : Job} {d : StreamDecl}

/-- Where that context is faulted, the engine takes the job, makes its requests for the field and stops. -/
theorem Chip.motionStart_faulted (h : b.motionReads j d) (hmet : b.met = []) (hfaulted : (b.ctx d.ctx).st = .faulted) :
    ∃ a n, b.motionStart [] = ((b.updMe (fun m => { m with eng := m.eng.take j })).touch false a n).motionStop := by
  have hfield := Chip.fieldOf_faulted (c := b.updMe (fun m => { m with eng := m.eng.take j })) hmet h.closed h.written h.allowed hfaulted
  have hstream : (b.updMe (fun m => { m with eng := m.eng.take j })).str.stream j.stream = some d := h.stream
  refine ⟨b.motionAt d (j.frame.closeIdx - 1) + 64, 4 * (d.motionDims.1 * d.motionDims.2), ?_⟩
  simp only [Chip.motionStart, h.next, hstream, Chip.attempts, hfield]
  rfl

theorem Chip.motionStart_faulted_run (h : b.motionReads j d) (hmet : b.met = []) (hfaulted : (b.ctx d.ctx).st = .faulted) :
    (b.motionStart []).me.eng.run = none := by
  obtain ⟨a, n, hstart⟩ := Chip.motionStart_faulted h hmet hfaulted
  rw [hstart]
  rfl

theorem Chip.frame_motionStart_faulted (h : b.motionReads j d) (hmet : b.met = []) (hfaulted : (b.ctx d.ctx).st = .faulted) :
    b.frame (b.motionStart []) [.me, .mc] := by
  obtain ⟨a, n, hstart⟩ := Chip.motionStart_faulted h hmet hfaulted
  rw [hstart]
  exact Chip.frame_mono (Chip.frame_trans (b.frame_updMe _) (Chip.frame_trans (Chip.frame_touch _ false a n) (Chip.frame_updMe _ _)))
    (by decide)

end

/-! ### What follows an effect where nothing waits for it (R306, R509) -/

/-- No LIVE mode has a reference, so no anchor waits for the journal, and no context is swapped out. -/
def Chip.calm (c : Chip) : Prop :=
  (∀ d ∈ c.str.active, (c.mode d.idx false).ref = none) ∧ ∀ x ∈ c.ctxIds, (c.ctx x).st ≠ .swapped

theorem Chip.calm_of_frame {b c : Chip} (h : b.frame c [.me, .mc]) (hb : b.calm) : c.calm := by
  have hcfg : c.cfg = b.cfg := h .cfg (by decide)
  have hfg : c.fg = b.fg := h .fg (by decide)
  have htt : c.tt = b.tt := h .tt (by decide)
  have hstr : c.str = b.str := by rw [Chip.str, hcfg, Chip.str]
  have hmode : ∀ s, c.mode s false = b.mode s false := fun s => by simp only [Chip.mode, Chip.fgs, hfg]
  have hctx : ∀ x, c.ctx x = b.ctx x := fun x => by rw [Chip.ctx, htt, Chip.ctx]
  have hids : c.ctxIds = b.ctxIds := by simp only [Chip.ctxIds, hstr, htt, hctx]
  simpa only [Chip.calm, hstr, hmode, hids, hctx] using hb

theorem Chip.lateAnchor_calm {c : Chip} (h : c.calm) : c.lateAnchor = none := by
  refine List.findSome?_eq_none_iff.mpr (fun d hd => ?_)
  simp [h.1 d hd]

theorem Chip.rousable_calm {c : Chip} (h : c.calm) : c.rousable = false := by
  refine List.any_eq_false.mpr (fun x hx => ?_)
  simp [h.2 x hx]

/-- Nothing that follows an effect on a calm chip reaches the motion engine. -/
theorem Chip.follow_me {c : Chip} (h : c.calm) : c.follow.me = c.me := by
  simp [Chip.follow, Chip.payLate, Chip.lateAnchor_calm h, Chip.rouse, Chip.rousable_calm h]

/-! ### The counterexample -/

/-- A 64 x 16 monochrome stream of context 0, whose analysis region is declaration 23. -/
def faultedStream : StreamDecl :=
  { idx := 3, active := true, live := true, settled := true, port := 0, fmt := 1, w := 64, h := 16, fps := 50, sc := 1, tm := 2,
    dlive := 20, partner := 255, rank := 0, ctx := 0, sid := 0x33, seed := 9, span := 4, evid := 65535, liveRing := 65535,
    setRing := 65535, analysis := 23 }

/-- The motion job of the stream's second frame. -/
def secondJob : Job :=
  { stream := 3, order := 0
    frame := { counter := 1, capture := 0, close := 0, closeIdx := 1, slot := 1, lost := 0, first := false, evidDone := true } }

/-- The running device with that stream applied. The field of the stream's first frame has been written to entry 0 of the region table, which
partition 0 owns; the job of its second frame waits; context 0 has faulted since (R150, R311). -/
def faultedDevice : State :=
  let s := runningDevice
  { s with chip := { s.chip with
    cfg := { s.chip.cfg with applied := some {
      parts := [{ id := 0, cls := .lc, arrays := 3, chans := 0xF, banks := 3 }]
      ctxs := [{ id := 0, part := 0, berth := 0, prog := 0 }]
      regions := [{ first := 0, count := 1, id := 23, owner := 0, repl := false, rdonly := false, zero := false, chans := 0xF, reps := 0 }]
      streams := [faultedStream] } }
    me := { eng := { q := [secondJob] }, written := [{ stream := 3, closeIdx := 0, at_ := 0 }] }
    tt := { s.chip.tt with ctx := vset s.chip.tt.ctx 0 { st := .faulted, fault := 5 } } } }

theorem faultedDevice_motionReads : (faultedDevice.chip.arrive {}).motionReads secondJob faultedStream where
  awake := by decide +kernel
  free := by decide +kernel
  next := by decide +kernel
  stream := by decide +kernel
  closed := by decide
  written := by decide +kernel
  allowed := by decide +kernel

theorem faultedDevice_ctx_faulted : ((faultedDevice.chip.arrive {}).ctx faultedStream.ctx).st = .faulted := by decide +kernel

theorem faultedDevice_calm : (faultedDevice.chip.arrive {}).calm := ⟨by decide +kernel, by decide +kernel⟩

/-- MOTION_JOB_START leaves the engine of that device free. -/
theorem faultedDevice_motionStart_run : ((faultedDevice.chip.arrive {}).motionStart []).follow.me.eng.run = none := by
  have hreads := faultedDevice_motionReads
  have hmet : (faultedDevice.chip.arrive {}).met = [] := Chip.arrive_met rfl (by decide +kernel)
  rw [Chip.follow_me (Chip.calm_of_frame (Chip.frame_motionStart_faulted hreads hmet faultedDevice_ctx_faulted) faultedDevice_calm)]
  exact Chip.motionStart_faulted_run hreads hmet faultedDevice_ctx_faulted

/-- Refutes O27: its clause on a motion job that reads the field of the frame before its own (R106) asks that no refusal of R347 strikes the
read. That the stream's context has faulted is none of them, but readFor gives a faulted context no bytes, and the engine stops without an
entry: on faultedDevice the clause wants the job at work, and exec leaves the engine free. -/
theorem not_engineJobsRun : ¬ Obligations.EngineJobsRun := by
  unfold Obligations.EngineJobsRun
  intro h
  obtain ⟨hstarts, -⟩ := h
  obtain ⟨hjobs, -⟩ := hstarts {} secondJob faultedStream
  obtain ⟨-, hreading, -⟩ := hjobs [] (by simp)
  have hreads := faultedDevice_motionReads
  obtain ⟨e, hexec, hrun, -, -, -, hframe⟩ := hreading rfl faultedDevice (by decide +kernel)
    ⟨hreads.awake, hreads.free, hreads.next, hreads.stream, hreads.closed, hreads.written, hreads.allowed⟩
  have hrow := (exec_motionJobStart {} [] faultedDevice).trans (run_ok (by decide +kernel) (by decide +kernel))
  have hchip : e.follow = ((faultedDevice.chip.arrive {}).motionStart []).follow :=
    congrArg State.chip (Host.Outcome.next.inj (hexec.symm.trans hrow))
  have hidle : e.me.eng.run = none := by
    rw [← Chip.follow_me (Chip.calm_of_frame hframe faultedDevice_calm), hchip]
    exact faultedDevice_motionStart_run
  rw [hidle] at hrun
  exact absurd hrun nofun

end Sys2Proof.Machine
end

section
/-! PROOFS. The statements on the arithmetic of the datapath: the numbers it writes are A16 words other than 0x8000 and zero or normal FP32 and
FP16 values (O28), and the states of its random generator are never zero (O29). -/

namespace Sys2Proof.Machine

/-! ### The random generator (R187, R188) -/

theorem seedState_ne_zero (s : Dword) : seedState s ≠ 0 := by
  unfold seedState
  split
  · decide
  · assumption

theorem eq_zero_of_eq_ushiftRight {w k : Nat} {x : BitVec w} (hk : 0 < k) (h : x = x >>> k) : x = 0 := by
  have hdiv : x.toNat / 2 ^ k = x.toNat := by
    rw [← Nat.shiftRight_eq_div_pow, ← BitVec.toNat_ushiftRight, ← h]
  obtain hzero | hpos := Nat.eq_zero_or_pos x.toNat
  · exact BitVec.eq_of_toNat_eq (hzero.trans BitVec.toNat_zero.symm)
  · exact absurd hdiv (Nat.ne_of_lt (Nat.div_lt_self hpos (Nat.one_lt_two_pow (Nat.ne_of_gt hk))))

/-- Its bits follow from the low k, which are 0. -/
theorem eq_zero_of_eq_shiftLeft {w k : Nat} {x : BitVec w} (hk : 0 < k) (h : x = x <<< k) : x = 0 := by
  have hbits : ∀ i, x.getLsbD i = false := by
    intro i
    induction i using Nat.strongRecOn with
    | ind i ih =>
      rw [h, BitVec.getLsbD_shiftLeft]
      by_cases hi : i < k
      · simp only [hi, decide_true, Bool.not_true, Bool.and_false, Bool.false_and]
      · rw [ih (i - k) (by omega), Bool.and_false]
  exact BitVec.eq_of_getLsbD_eq fun i _ => (hbits i).trans BitVec.getLsbD_zero.symm

theorem xor_ushiftRight_ne_zero {w k : Nat} {x : BitVec w} (hk : 0 < k) (hx : x ≠ 0) : x ^^^ (x >>> k) ≠ 0 :=
  fun h => hx (eq_zero_of_eq_ushiftRight hk (BitVec.xor_eq_zero_iff.mp h))

theorem xor_shiftLeft_ne_zero {w k : Nat} {x : BitVec w} (hk : 0 < k) (hx : x ≠ 0) : x ^^^ (x <<< k) ≠ 0 :=
  fun h => hx (eq_zero_of_eq_shiftLeft hk (BitVec.xor_eq_zero_iff.mp h))

/-- Each of the three shifts of a draw keeps a state that is not zero. -/
theorem xs64_state_ne_zero {s : Dword} (hs : s ≠ 0) : (xs64 s).2 ≠ 0 :=
  xor_ushiftRight_ne_zero (by decide) (xor_shiftLeft_ne_zero (by decide) (xor_ushiftRight_ne_zero (by decide) hs))

/-- Settles O29: loading replaces zero, and a draw is three invertible shifts. -/
theorem generatorStatesAreNeverZero : Obligations.GeneratorStatesAreNeverZero := by
  unfold Obligations.GeneratorStatesAreNeverZero
  exact ⟨rfl, seedState_ne_zero, fun s hs => xs64_state_ne_zero hs⟩

/-! ### A16 words (R159, R164) -/

theorem a16_bounds (w : Nat) : -32767 ≤ a16 w ∧ a16 w ≤ 32767 := by
  unfold a16
  split
  · decide
  · simp only [signed]
    split <;> omega

theorem satA16_bounds (x : Word) (f : Nat) : -32767 ≤ satA16 x f ∧ satA16 x f ≤ 32767 := by
  simp only [satA16, clampInt]
  omega

theorem leNat_toLe (n v : Nat) : leNat (toLe n v) = v % 256 ^ n := by
  induction n generalizing v with
  | zero => exact (Nat.mod_one v).symm
  | succ n ih =>
    rw [toLe, leNat, ih, BitVec.toNat_ofNat, Nat.pow_succ' (m := 256), Nat.mod_mul]

/-- Of the 16-bit words only that of -32,768 is 0x8000. -/
theorem unsigned16_bounds {v : Int} (hlo : -32767 ≤ v) (hhi : v ≤ 32767) : unsigned 16 v ≠ 0x8000 ∧ unsigned 16 v < 65536 := by
  simp only [unsigned]
  omega

theorem outBytes_a16_bounds (fout : Nat) (y : Word) :
    leNat (outBytes 0 fout y) ≠ 0x8000 ∧ leNat (outBytes 0 fout y) < 65536 := by
  obtain ⟨hlo, hhi⟩ := satA16_bounds y fout
  have hword := unsigned16_bounds hlo hhi
  have hbytes : leNat (outBytes 0 fout y) = unsigned 16 (satA16 y fout) :=
    (leNat_toLe 2 _).trans (Nat.mod_eq_of_lt hword.2)
  rwa [hbytes]

/-! ### Rounding to a significand (R162) -/

/-- pow2 gives 2^e as a fraction of two powers. -/
theorem pow2_eq (e : Int) : ∃ a b : Nat, pow2 e = (2 ^ a, 2 ^ b) ∧ (a : Int) - b = e := by
  by_cases he : 0 ≤ e
  · exact ⟨e.toNat, 0, if_pos he, by omega⟩
  · exact ⟨0, (-e).toNat, if_neg he, by omega⟩

/-- The exponent of the leading bit of num/den, as roundSig finds it. -/
def leadExp (num den : Nat) : Int :=
  let g : Int := (Nat.log2 num : Int) - (Nat.log2 den : Int)
  if num * (pow2 g).2 < den * (pow2 g).1 then g - 1 else g

/-- The significand of p bits, before it is renormalised where the rounding carried. -/
def sigOf (p num den : Nat) : Nat :=
  let s := pow2 ((p : Int) - 1 - leadExp num den)
  (2 * (num * s.1) + den * s.2) / (2 * (den * s.2))

theorem roundSig_eq (p num den : Nat) (e : Int) :
    roundSig p num den e =
      if sigOf p num den = 2 ^ p then (leadExp num den + 1 + e, 2 ^ (p - 1)) else (leadExp num den + e, sigOf p num den) := rfl

/-- The value lies below the power of two after its leading bit: num/den < 2^(leadExp + 1), the power given as 2^a / 2^b. -/
theorem num_lt_two_pow_leadExp {num den a b : Nat} (hden : 0 < den) (hab : (a : Int) - b = leadExp num den + 1) :
    num * 2 ^ b < den * 2 ^ a := by
  obtain ⟨c, d, hpow, hcd⟩ := pow2_eq ((Nat.log2 num : Int) - (Nat.log2 den : Int))
  simp only [leadExp, hpow] at hab
  split at hab
  next hbelow =>
    have hexp : c + b = a + d := by omega
    refine Nat.lt_of_mul_lt_mul_right (a := 2 ^ d) ?_
    calc num * 2 ^ b * 2 ^ d = num * 2 ^ d * 2 ^ b := Nat.mul_right_comm ..
      _ < den * 2 ^ c * 2 ^ b := Nat.mul_lt_mul_of_pos_right hbelow (Nat.two_pow_pos b)
      _ = den * 2 ^ a * 2 ^ d := by rw [Nat.mul_assoc, ← Nat.pow_add, hexp, Nat.pow_add, Nat.mul_assoc]
  next =>
    have hexp : Nat.log2 num + 1 + b = Nat.log2 den + a := by omega
    calc num * 2 ^ b < 2 ^ (Nat.log2 num + 1) * 2 ^ b := Nat.mul_lt_mul_of_pos_right Nat.lt_log2_self (Nat.two_pow_pos b)
      _ = 2 ^ Nat.log2 den * 2 ^ a := by rw [← Nat.pow_add, hexp, Nat.pow_add]
      _ ≤ den * 2 ^ a := Nat.mul_le_mul_right _ (Nat.log2_self_le (Nat.ne_of_gt hden))

theorem sigOf_le {p num den : Nat} (hden : 0 < den) : sigOf p num den ≤ 2 ^ p := by
  obtain ⟨c, d, hpow, hcd⟩ := pow2_eq ((p : Int) - 1 - leadExp num den)
  have hscaled : num * 2 ^ c < 2 ^ p * (den * 2 ^ d) :=
    calc num * 2 ^ c < den * 2 ^ (p + d) := num_lt_two_pow_leadExp hden (by omega)
      _ = 2 ^ p * (den * 2 ^ d) := by rw [Nat.pow_add, Nat.mul_left_comm]
  have hb : 0 < den * 2 ^ d := Nat.mul_pos hden (Nat.two_pow_pos d)
  simp only [sigOf, hpow]
  refine Nat.le_of_lt_succ ((Nat.div_lt_iff_lt_mul (by omega)).mpr ?_)
  rw [Nat.succ_mul (2 ^ p), Nat.mul_left_comm (2 ^ p)]
  omega

theorem roundSig_snd_lt {p num den : Nat} (hp : 0 < p) (hden : 0 < den) (e : Int) : (roundSig p num den e).2 < 2 ^ p := by
  rw [roundSig_eq]
  split
  · exact Nat.pow_lt_pow_right (by decide) (by omega)
  · exact Nat.lt_of_le_of_ne (sigOf_le hden) ‹_›

/-! ### FP32 and FP16 patterns (R160, R162, R164) -/

theorem b2n_le_one (b : Bool) : b2n b ≤ 1 := by cases b <;> decide

/-- Exponent field and fraction of num/den × 2^e in a format with p significant bits and exponents 1 - bias to bias, as rna32 and rna16
choose them: zero, the largest finite number, zero below the normal numbers, or the rounded significand without its leading bit. -/
def rnaFields (p bias num den : Nat) (e : Int) : Nat × Nat :=
  if num = 0 then (0, 0)
  else
    let r := roundSig p num den e
    if bias < r.1 then (2 * bias, 2 ^ (p - 1) - 1)
    else if r.1 < 1 - (bias : Int) then (0, 0)
    else ((r.1 + bias).toNat, r.2 - 2 ^ (p - 1))

theorem rna32_eq (neg : Bool) (num den : Nat) (e : Int) :
    rna32 neg num den e = BitVec.ofNat 32
      (b2n neg * 2 ^ 31 + (rnaFields 24 127 num den e).1 * 2 ^ 23 + (rnaFields 24 127 num den e).2) := by
  simp only [rna32, rnaFields]
  repeat' split
  all_goals exact congrArg (BitVec.ofNat 32) (by omega)

theorem rna16_eq (neg : Bool) (num den : Nat) (e : Int) :
    rna16 neg num den e = BitVec.ofNat 16
      (b2n neg * 2 ^ 15 + (rnaFields 11 15 num den e).1 * 2 ^ 10 + (rnaFields 11 15 num den e).2) := by
  simp only [rna16, rnaFields]
  repeat' split
  all_goals exact congrArg (BitVec.ofNat 16) (by omega)

/-- The fields are those of a zero or a normal finite number: the exponent field stays below that of infinities and NaNs, and where it is 0
so is the fraction. -/
theorem rnaFields_normal {p bias den : Nat} (num : Nat) (e : Int) (hp : 0 < p) (hbias : 0 < bias) (hden : 0 < den) :
    (rnaFields p bias num den e).1 ≤ 2 * bias ∧ (rnaFields p bias num den e).2 < 2 ^ (p - 1) ∧
      ((rnaFields p bias num den e).1 = 0 → (rnaFields p bias num den e).2 = 0) := by
  have hsig := roundSig_snd_lt (num := num) hp hden e
  have hdouble : 2 ^ p = 2 * 2 ^ (p - 1) := by rw [Nat.mul_comm, Nat.two_pow_pred_mul_two hp]
  have hhalf : 0 < 2 ^ (p - 1) := Nat.two_pow_pos _
  simp only [rnaFields]
  repeat' split
  all_goals dsimp only; omega

theorem rna32_normal (neg : Bool) (num : Nat) {den : Nat} (e : Int) (hden : 0 < den) :
    (rna32 neg num den e).toNat / 2 ^ 23 % 256 ≠ 255 ∧
      ((rna32 neg num den e).toNat / 2 ^ 23 % 256 = 0 → (rna32 neg num den e).toNat % 2 ^ 23 = 0) := by
  obtain ⟨hexp, hfrac, hzero⟩ := rnaFields_normal (p := 24) (bias := 127) num e (by decide) (by decide) hden
  have hsign := b2n_le_one neg
  rw [rna32_eq, BitVec.toNat_ofNat]
  omega

theorem rna16_normal (neg : Bool) (num : Nat) {den : Nat} (e : Int) (hden : 0 < den) :
    (rna16 neg num den e).toNat / 2 ^ 10 % 32 ≠ 31 ∧
      ((rna16 neg num den e).toNat / 2 ^ 10 % 32 = 0 → (rna16 neg num den e).toNat % 2 ^ 10 = 0) := by
  obtain ⟨hexp, hfrac, hzero⟩ := rnaFields_normal (p := 11) (bias := 15) num e (by decide) (by decide) hden
  have hsign := b2n_le_one neg
  rw [rna16_eq, BitVec.toNat_ofNat]
  omega

/-- Settles O28: every A16 word is that of a value clamped to 32,767, and the fields of a rounded number are those of a zero or a normal one. -/
theorem writtenNumbersAreNormal : Obligations.WrittenNumbersAreNormal := by
  unfold Obligations.WrittenNumbersAreNormal
  exact ⟨rfl, a16_bounds, outBytes_a16_bounds,
    fun neg num den e hden => ⟨rna32_normal neg num e hden, rna16_normal neg num e hden⟩⟩

end Sys2Proof.Machine
end

section
/-! PROOFS. What scheduling leaves as it was: the sequence of the tide table through faults, teardowns, written slots and the swapper. -/

namespace Sys2Proof.Machine

/-! ### The sequence of the tide table

A change is steady where it leaves the clocks, the table's pointer and the count of cycles as they were and withdraws no snapshot that was
asked for. It is quiet where it issues no step either. -/

structure Chip.steady (b e : Chip) : Prop where
  clk : e.clk = b.clk
  next : e.tt.next = b.tt.next
  cycles : e.tt.cycles = b.tt.cycles
  ask : b.sn.ask <+: e.sn.ask

structure Chip.quiet (b e : Chip) : Prop where
  steady : b.steady e
  stepNo : e.tt.stepNo = b.tt.stepNo

theorem Chip.steady.refl (c : Chip) : c.steady c := ⟨rfl, rfl, rfl, List.prefix_rfl⟩

theorem Chip.steady.trans {b c d : Chip} (h : b.steady c) (k : c.steady d) : b.steady d :=
  ⟨k.clk.trans h.clk, k.next.trans h.next, k.cycles.trans h.cycles, h.ask.trans k.ask⟩

theorem Chip.quiet.refl (c : Chip) : c.quiet c := ⟨.refl c, rfl⟩

theorem Chip.quiet.trans {b c d : Chip} (h : b.quiet c) (k : c.quiet d) : b.quiet d :=
  ⟨h.steady.trans k.steady, k.stepNo.trans h.stepNo⟩

theorem Chip.steady.foldl {α : Type} {b c : Chip} {f : Chip → α → Chip} (hf : ∀ (c : Chip) x, c.steady (f c x)) (l : List α)
    (h : b.steady c) : b.steady (l.foldl f c) :=
  List.foldlRecOn l f (motive := fun d => b.steady d) h (fun d hd x _ => hd.trans (hf d x))

section
variable {b c d : Chip}

theorem Chip.quiet.foldl {α : Type} {f : Chip → α → Chip} (hf : ∀ (c : Chip) x, c.quiet (f c x)) (l : List α) (h : b.quiet c) :
    b.quiet (l.foldl f c) :=
  List.foldlRecOn l f (motive := fun d => b.quiet d) h (fun d hd x _ => hd.trans (hf d x))

theorem Chip.quiet.ite {p : Prop} [Decidable p] (h : b.quiet c) (k : b.quiet d) : b.quiet (if p then c else d) := by
  split
  · exact h
  · exact k

/-- The snapshots asked for are those of the snapshot block. -/
theorem Chip.ask_of_sn (h : d.sn = c.sn) : c.sn.ask <+: d.sn.ask := ⟨[], by rw [List.append_nil, h]⟩

/-- A change of other blocks than the clocks, the scheduler and the snapshots. -/
theorem Chip.quiet.same (h : b.quiet c) (hclk : d.clk = c.clk) (htt : d.tt = c.tt) (hsn : d.sn = c.sn) : b.quiet d :=
  h.trans ⟨⟨hclk, by rw [htt], by rw [htt], Chip.ask_of_sn hsn⟩, by rw [htt]⟩

theorem Chip.quiet.frame {l : List Blk} (h : b.quiet c) (hf : c.frame d l) (hclk : Blk.clk ∉ l) (htt : Blk.tt ∉ l) (hsn : Blk.sn ∉ l) :
    b.quiet d :=
  h.same (hf .clk hclk) (hf .tt htt) (hf .sn hsn)

theorem Chip.quiet.updOc {f : Orchard → Orchard} (h : b.quiet c) : b.quiet (c.updOc f) := h.same rfl rfl rfl
theorem Chip.quiet.updMe {f : Motion → Motion} (h : b.quiet c) : b.quiet (c.updMe f) := h.same rfl rfl rfl
theorem Chip.quiet.updSd {f : Disparity → Disparity} (h : b.quiet c) : b.quiet (c.updSd f) := h.same rfl rfl rfl
theorem Chip.quiet.updFg {f : FrameGen → FrameGen} (h : b.quiet c) : b.quiet (c.updFg f) := h.same rfl rfl rfl
theorem Chip.quiet.updSv {f : Serving → Serving} (h : b.quiet c) : b.quiet (c.updSv f) := h.same rfl rfl rfl
theorem Chip.quiet.updMc {f : MemCtl → MemCtl} (h : b.quiet c) : b.quiet (c.updMc f) := h.same rfl rfl rfl
theorem Chip.quiet.updBs {f : BasinCtl → BasinCtl} (h : b.quiet c) : b.quiet (c.updBs f) := h.same rfl rfl rfl
theorem Chip.quiet.updSy {f : SyncCtl → SyncCtl} (h : b.quiet c) : b.quiet (c.updSy f) := h.same rfl rfl rfl
theorem Chip.quiet.updIc {f : IntCtl → IntCtl} (h : b.quiet c) : b.quiet (c.updIc f) := h.same rfl rfl rfl
theorem Chip.quiet.updPl {f : Proto → Proto} (h : b.quiet c) : b.quiet (c.updPl f) := h.same rfl rfl rfl
theorem Chip.quiet.updLg {f : Ledger → Ledger} (h : b.quiet c) : b.quiet (c.updLg f) := h.same rfl rfl rfl
theorem Chip.quiet.updDram {f : Memory → Memory} (h : b.quiet c) : b.quiet (c.updDram f) := h.same rfl rfl rfl
theorem Chip.quiet.updBasin {f : Memory → Memory} (h : b.quiet c) : b.quiet (c.updBasin f) := h.same rfl rfl rfl
theorem Chip.quiet.updSram {f : Memory → Memory} (h : b.quiet c) : b.quiet (c.updSram f) := h.same rfl rfl rfl

/-- A change of the scheduler that issues nothing. -/
theorem Chip.quiet.updTt {f : Sched → Sched} (h : b.quiet c)
    (hf : ∀ t, (f t).next = t.next ∧ (f t).cycles = t.cycles ∧ (f t).stepNo = t.stepNo := by exact fun _ => ⟨rfl, rfl, rfl⟩) :
    b.quiet (c.updTt f) := by
  obtain ⟨hnext, hcycles, hstepNo⟩ := hf c.tt
  exact h.trans ⟨⟨rfl, hnext, hcycles, List.prefix_rfl⟩, hstepNo⟩

theorem Chip.quiet.updCtx {x : Nat} {f : Ctx → Ctx} (h : b.quiet c) : b.quiet (c.updCtx x f) := h.updTt

theorem Chip.quiet.updBerth {n : Nat} {f : Berth → Berth} (h : b.quiet c) : b.quiet (c.updBerth n f) := h.updTt

theorem Chip.quiet.updStep {no : Word} {f : Step → Step} (h : b.quiet c) : b.quiet (c.updStep no f) := h.updTt

/-! ### Interrupt sources and status bits (R374, R375) -/

theorem Chip.quiet.askSource {n src : Nat} (h : b.quiet c) : b.quiet (c.askSource n src) := by
  unfold Chip.askSource
  split
  · exact h.trans ⟨⟨rfl, rfl, rfl, List.prefix_append _ _⟩, rfl⟩
  · exact h

theorem Chip.quiet.raiseCore {n src : Nat} {detail : Bytes} (h : b.quiet c) : b.quiet (c.raiseCore n src detail) := by
  have hwake : b.quiet (if (vget (Route.mk 0 0 false) c.ic.route src).watch then c.latchWake 5 src else c) := by
    split
    · exact h.same (by simp) (by simp) (by simp)
    · exact h
  simp only [Chip.raiseCore]
  generalize (if (vget (Route.mk 0 0 false) c.ic.route src).watch then c.latchWake 5 src else c) = w at hwake ⊢
  split
  · exact hwake.updIc.askSource
  · exact hwake

theorem Chip.quiet.raise798 {n bit : Nat} (h : b.quiet c) : b.quiet (c.raise798 n bit) := by
  simp only [Chip.raise798]
  split
  · exact h.updIc.raiseCore
  · exact h.updIc.raiseCore.updIc

theorem Chip.quiet.raiseN {n src : Nat} {detail : Bytes} (h : b.quiet c) : b.quiet (c.raiseN n src detail) := by
  simp only [Chip.raiseN]
  split
  · exact h
  · split
    · exact h.raiseCore
    · exact h.raiseCore.raise798

theorem Chip.quiet.raise {src : Nat} {detail : Bytes} (h : b.quiet c) : b.quiet (c.raise src detail) := h.raiseN

theorem Chip.quiet.fgErr {n : Nat} (h : b.quiet c) : b.quiet (c.fgErr n) := h.updFg.raise
theorem Chip.quiet.svErr {n : Nat} (h : b.quiet c) : b.quiet (c.svErr n) := h.updSv.raise
theorem Chip.quiet.ttErr {n : Nat} (h : b.quiet c) : b.quiet (c.ttErr n) := h.updTt.raise
theorem Chip.quiet.plErr {n : Nat} (h : b.quiet c) : b.quiet (c.plErr n) := h.updPl.raise
theorem Chip.quiet.lgErr {n : Nat} (h : b.quiet c) : b.quiet (c.lgErr n) := h.updLg.raise
theorem Chip.quiet.syErr {n : Nat} (h : b.quiet c) : b.quiet (c.syErr n) := h.updSy.raise

theorem Chip.quiet.mcErr {n addr : Nat} {info step : Word} (h : b.quiet c) : b.quiet (c.mcErr n info addr step) :=
  h.updMc.raise

theorem Chip.quiet.mcEvt {n : Nat} (h : b.quiet c) : b.quiet (c.mcEvt n) := h.mcErr

theorem Chip.quiet.recordViol {r : Requester} {ctx cause addr : Nat} {step : Word} (h : b.quiet c) :
    b.quiet (c.recordViol r ctx cause addr step) :=
  h.updMc.mcErr

theorem Chip.quiet.fgEvent {s bit j flags : Nat} {settled : Bool} (h : b.quiet c) : b.quiet (c.fgEvent s bit j flags settled) := by
  unfold Chip.fgEvent
  split
  · exact h.raise
  · exact h

/-! ### Memories (R328, R333, R344, R354) -/

theorem Chip.quiet.touch {write : Bool} {a n : Nat} (h : b.quiet c) : b.quiet (c.touch write a n) :=
  h.frame (c.frame_touch write a n) (by decide) (by decide) (by decide)

theorem Chip.quiet.dramWrite {a : Nat} {bs : Bytes} (h : b.quiet c) : b.quiet (c.dramWrite a bs) := by
  refine Chip.quiet.foldl (fun d p => ?_) _ h.touch
  split
  · exact .foldl (fun d x => (Chip.quiet.refl d).updDram) _ (.refl d)
  · exact .refl d

theorem Chip.quiet.rewrote {a n : Nat} (h : b.quiet c) : b.quiet (c.rewrote a n) := by
  simp only [Chip.rewrote]
  split
  · exact h
  · exact h.updBs

theorem Chip.quiet.basinClear {banks : List Nat} {o n : Nat} (h : b.quiet c) : b.quiet (c.basinClear banks o n) :=
  .foldl (fun d _ => (Chip.quiet.refl d).updBasin.rewrote) _ h

theorem Chip.quiet.clearStore {a o n : Nat} (h : b.quiet c) : b.quiet (c.clearStore a o n) := h.updSram

theorem Chip.quiet.zeroShare {n : Nat} (h : b.quiet c) : b.quiet (c.zeroShare n) := by
  have harrays : ∀ (o k : Nat) (l : List Nat), b.quiet (l.foldl (fun (c : Chip) a => c.clearStore a o k) c) :=
    fun o k l => .foldl (fun d _ => (Chip.quiet.refl d).clearStore) l h
  unfold Chip.zeroShare
  split
  · exact h
  · simp only
    split <;> split
    · exact (harrays _ _ _).basinClear
    · exact h.basinClear
    · exact harrays _ _ _
    · exact h

/-! ### Sync objects and waiters (R364, R369, R373) -/

theorem Chip.quiet.judgeWatch {i : Nat} (h : b.quiet c) : b.quiet (c.judgeWatch i) := by
  simp only [Chip.judgeWatch]
  split
  · split
    · exact h
    · split
      · exact h
      · exact h.updSy.raiseN
  · exact h

theorem Chip.quiet.judge {o : Nat} (h : b.quiet c) : b.quiet (c.judge o) := by
  unfold Chip.judge
  split
  · exact h
  · refine .foldl (fun d i => ?_) _ h.updSy
    split
    · exact (Chip.quiet.refl d).judgeWatch
    · exact .refl d

theorem Chip.quiet.setObj {o : Nat} {v : Word} (h : b.quiet c) : b.quiet (c.setObj o v) := by
  unfold Chip.setObj
  split
  · exact h
  · exact h.updSy.judge

theorem Chip.quiet.deviceSignal {code o : Nat} (h : b.quiet c) : b.quiet (c.deviceSignal code o) := by
  unfold Chip.deviceSignal Chip.addObj
  split
  · split
    · split
      · exact h
      · exact h.setObj
    · exact h
  · exact h

theorem Chip.quiet.enterWaiter {w : Waiter} (h : b.quiet c) : b.quiet (c.enterWaiter w) := by
  unfold Chip.enterWaiter
  split
  · exact h.updSy
  · exact h.updSy.syErr

theorem Chip.quiet.dropWaiters {p : Waiter → Bool} (h : b.quiet c) : b.quiet (c.dropWaiters p) :=
  .foldl (fun d _ => (Chip.quiet.refl d).enterWaiter) _ h.updSy.updSy

end
end Sys2Proof.Machine
end

section
/-! PROOFS. What the swapper, the ends of steps and queries, teardowns and memory errors leave as it was. -/

namespace Sys2Proof.Machine

/-! ### The swapper (R306 to R310)

It moves contexts and berths, what the arrays take next, and the clocks of waiters. -/

structure Chip.moved (b e : Chip) : Prop where
  frame : b.frame e [.oc, .tt, .sy]
  tt : ∃ ctx berth, e.tt = { b.tt with ctx := ctx, berth := berth }

theorem Chip.frame_refl (c : Chip) (l : List Blk) : c.frame c l := fun x _ => by cases x <;> rfl

theorem Chip.moved.refl (c : Chip) : c.moved c := ⟨c.frame_refl _, _, _, rfl⟩

section
variable {b c d : Chip}

theorem Chip.moved.trans (h : b.moved c) (k : c.moved d) : b.moved d := by
  obtain ⟨ctx, berth, hc⟩ := h.tt
  obtain ⟨ctx', berth', hd⟩ := k.tt
  exact ⟨Chip.frame_mono (Chip.frame_trans h.frame k.frame) (by decide), ctx', berth', by rw [hd, hc]⟩

theorem Chip.moved.foldl {α : Type} {f : Chip → α → Chip} (hf : ∀ (c : Chip) x, c.moved (f c x)) (l : List α) (h : b.moved c) :
    b.moved (l.foldl f c) :=
  List.foldlRecOn l f (motive := fun d => b.moved d) h (fun d hd x _ => hd.trans (hf d x))

theorem Chip.moved.ite {p : Prop} [Decidable p] (h : b.moved c) (k : b.moved d) : b.moved (if p then c else d) := by
  split
  · exact h
  · exact k

theorem Chip.moved.quiet (h : b.moved c) : b.quiet c := by
  obtain ⟨ctx, berth, htt⟩ := h.tt
  exact ⟨⟨h.frame .clk (by decide), by rw [htt], by rw [htt], Chip.ask_of_sn (h.frame .sn (by decide))⟩, by rw [htt]⟩

theorem Chip.moved.updOc {f : Orchard → Orchard} (h : b.moved c) : b.moved (c.updOc f) :=
  h.trans ⟨fun x hx => by cases x <;> simp [Blk.same] at hx ⊢, _, _, rfl⟩

theorem Chip.moved.updSy {f : SyncCtl → SyncCtl} (h : b.moved c) : b.moved (c.updSy f) :=
  h.trans ⟨fun x hx => by cases x <;> simp [Blk.same] at hx ⊢, _, _, rfl⟩

theorem Chip.moved.updArr {a : Nat} {f : Arr → Arr} (h : b.moved c) : b.moved (c.updArr a f) := h.updOc

theorem Chip.moved.updCtx {n : Nat} {f : Ctx → Ctx} (h : b.moved c) : b.moved (c.updCtx n f) :=
  h.trans ⟨fun x hx => by cases x <;> simp [Blk.same] at hx ⊢, _, _, rfl⟩

theorem Chip.moved.updBerth {n : Nat} {f : Berth → Berth} (h : b.moved c) : b.moved (c.updBerth n f) :=
  h.trans ⟨fun x hx => by cases x <;> simp [Blk.same] at hx ⊢, _, _, rfl⟩

theorem Chip.moved.holdWaiters (h : b.moved c) : b.moved c.holdWaiters := by
  simp only [Chip.holdWaiters]
  exact h.updSy

theorem Chip.moved.pick {a : Nat} (h : b.moved c) : b.moved (c.pick a) := by
  simp only [Chip.pick]
  split
  · exact h
  · split
    · exact .ite h.updArr h
    · refine .ite h.updArr (.ite h.updArr ?_)
      split
      · exact h.updArr
      · exact h.updArr

theorem Chip.moved.takeNext {a : Nat} (h : b.moved c) : b.moved (c.takeNext a) := h.updArr.pick.holdWaiters

theorem Chip.moved.takeAll (h : b.moved c) : b.moved c.takeAll := .foldl (fun d _ => (Chip.moved.refl d).takeNext) _ h

theorem Chip.moved.reckon {x : Nat} (h : b.moved c) : b.moved (c.reckon x) := by
  simp only [Chip.reckon]
  split
  · exact .ite h h.updCtx
  · exact .ite (.ite h.updCtx h) (.ite h.updCtx h)
  · exact .ite h.updCtx (.ite h h.updCtx)
  · exact .ite h.updCtx h.updCtx
  · exact h

theorem Chip.moved.consider {x : Nat} (h : b.moved c) : b.moved (c.consider x) := by
  simp only [Chip.consider]
  split
  · exact h
  · split
    · exact h.updBerth.updCtx
    · refine .ite h ?_
      split
      · exact h
      · exact h.updBerth.updCtx.takeAll

theorem Chip.schedule_moved (c : Chip) : c.moved c.schedule :=
  Chip.moved.holdWaiters (.foldl (fun d _ => (Chip.moved.refl d).consider) _ (.foldl (fun d _ => (Chip.moved.refl d).reckon) _ (.refl c)))

theorem Chip.quiet.schedule (h : b.quiet c) : b.quiet c.schedule := h.trans c.schedule_moved.quiet

theorem Chip.quiet.takeAll (h : b.quiet c) : b.quiet c.takeAll := h.trans (Chip.moved.refl c).takeAll.quiet

/-! ### The journal and the ends of steps (R507, R509, R511) -/

theorem Chip.frame_updDram (c : Chip) (f : Memory → Memory) : c.frame (c.updDram f) [.dram] := by
  intro x hx
  cases x <;> simp [Blk.same] at hx ⊢

theorem Chip.frame_wakeChan (c : Chip) (n : Nat) : c.frame (c.wakeChan n) [.mc] := by
  unfold Chip.wakeChan
  exact c.frame_updMc _

theorem Chip.journal_frame (c : Chip) (s : Step) (state : Nat) : c.frame (c.journal s state) [.mc, .dram] := by
  refine List.foldlRecOn (c.journals s.part) _ (motive := fun d : Chip => c.frame d [.mc, .dram]) (c.frame_refl _) (fun d hd a _ => ?_)
  have hentry : c.frame ((d.wakeChan (a / 2 ^ 33)).updDram (fun m => m.write (a + s.jent * 1024) (s.journal state))) [.mc, .dram] :=
    Chip.frame_mono (Chip.frame_trans hd (Chip.frame_trans (d.frame_wakeChan _) (Chip.frame_updDram _ _))) (by decide)
  simp only
  split
  · exact Chip.frame_mono (Chip.frame_trans hentry (Chip.frame_updDram _ _)) (by decide)
  · exact hentry

theorem Chip.quiet.journal {s : Step} {state : Nat} (h : b.quiet c) : b.quiet (c.journal s state) :=
  h.frame (c.journal_frame s state) (by decide) (by decide) (by decide)

theorem Chip.quiet.closeStep {no : Word} {state : Nat} (h : b.quiet c) : b.quiet (c.closeStep no state) := by
  unfold Chip.closeStep
  split
  · exact h
  · exact h.journal.updTt.updCtx

theorem Chip.quiet.unqueue {no : Word} (h : b.quiet c) : b.quiet (c.unqueue no) :=
  h.updTt.updOc.updPl.dropWaiters.takeAll

/-! ### The ends of queries, and peer requests (R279 to R281, R431) -/

theorem Chip.quiet.tokenFrame {payload : Bytes} (h : b.quiet c) : b.quiet (c.tokenFrame payload) := by
  have hsent : b.quiet (c.sendHost 3 c.pl.tokNext payload).1 := by
    unfold Chip.sendHost
    split
    · exact h
    · exact h.same rfl rfl rfl
  simp only [Chip.tokenFrame]
  split
  · exact hsent.updPl.plErr
  · exact hsent.updPl

theorem Chip.quiet.open_ (h : b.quiet c) : b.quiet c.open_.2 := h.same rfl rfl rfl

theorem Chip.quiet.sendToken {i : TokInfo} (h : b.quiet c) : b.quiet (c.sendToken i) := h.open_.open_.updSv.tokenFrame

theorem Chip.quiet.endingErr {reason : Nat} (h : b.quiet c) : b.quiet (c.endingErr reason) := by
  unfold Chip.endingErr
  exact .ite h.svErr (.ite h.svErr h)

theorem Chip.quiet.endQuery {q : Query} {reason detail : Nat} (h : b.quiet c) : b.quiet (c.endQuery q reason detail) :=
  h.sendToken.endingErr

theorem Chip.quiet.endSeq {s : Seq} {reason detail : Nat} {step : Option Word} (h : b.quiet c) :
    b.quiet (c.endSeq s reason detail step) :=
  Chip.quiet.endingErr (Chip.quiet.sendToken (h.updSv))

theorem Chip.quiet.endQueries {p : Nat → Bool} {reason : Nat} (h : b.quiet c) : b.quiet (c.endQueries p reason) :=
  .foldl (fun d _ => (Chip.quiet.refl d).endQuery) _ (.foldl (fun d _ => (Chip.quiet.refl d).endSeq) _ h.updSv)

theorem Chip.quiet.askFor {r : PeerReq} (h : b.quiet c) : b.quiet (c.askFor r) := h.same rfl rfl rfl

theorem Chip.quiet.promote (h : b.quiet c) : b.quiet c.promote := by
  refine .foldl (fun d r => ?_) _ h
  split
  · exact (Chip.quiet.refl d).updPl.askFor
  · exact .refl d

/-! ### Teardowns (R311) -/

theorem Chip.quiet.teardown {x : Nat} {code : Option Nat} {step : Option Word} (h : b.quiet c) : b.quiet (c.teardown x code step) := by
  have hsteps : ∀ l : List Step, b.quiet
      (l.foldl (fun (c : Chip) s => (c.unqueue s.no).closeStep s.no (if some s.no == step then 4 else 3)) c) :=
    fun l => .foldl (fun d _ => (Chip.quiet.refl d).unqueue.closeStep) l h
  simp only [Chip.teardown]
  split
  · exact h
  · refine Chip.quiet.schedule (.takeAll (.promote (.ttErr (.endQueries (.updCtx ?_)))))
    split
    · split
      · exact (hsteps _).dropWaiters.updPl.updFg
      · exact (hsteps _).dropWaiters.updPl.updFg.zeroShare.updBerth
    · exact (hsteps _).dropWaiters.updPl.updFg

theorem Chip.quiet.ctxFault {x code : Nat} (h : b.quiet c) : b.quiet (c.ctxFault x code) := h.teardown

/-! ### Sectors and channels (R348 to R352) -/

theorem Chip.quiet.loseChannel {ch cause : Nat} (h : b.quiet c) : b.quiet (c.loseChannel ch cause) := by
  simp only [Chip.loseChannel]
  split
  · exact h
  · exact .foldl (fun d _ => (Chip.quiet.refl d).ctxFault) _ (.ite h.updMc.updMc.mcEvt h.updMc.updMc.mcEvt.mcEvt)

theorem Chip.quiet.checkChannel {ch : Nat} (h : b.quiet c) : b.quiet (c.checkChannel ch) := by
  simp only [Chip.checkChannel]
  exact .ite h.loseChannel (.ite h.loseChannel h)

theorem Chip.quiet.uncorr {ch slot addr : Nat} (h : b.quiet c) : b.quiet (c.uncorr ch slot addr) := by
  simp only [Chip.uncorr]
  exact h.updMc

theorem Chip.quiet.updChan {n : Nat} {f : Channel → Channel} (h : b.quiet c) : b.quiet (c.updChan n f) := h.updMc

theorem Chip.quiet.mcCorrected {ch : Nat} (h : b.quiet c) : b.quiet (c.mcCorrected ch) := by
  simp only [Chip.mcCorrected]
  exact .ite h.updChan.mcEvt h.updChan.updMc

theorem Chip.quiet.recordSector {r : Requester} {ctx ch outcome addr : Nat} {step : Word} (h : b.quiet c) :
    b.quiet (c.recordSector r ctx ch outcome addr step) := h.updMc

theorem Chip.quiet.setEntry {i : Nat} {e : Entry} (h : b.quiet c) : b.quiet (c.setEntry i e) := h.updMc

theorem Chip.quiet.sector {r : Requester} {ctx : Nat} {step : Word} {e : SectorErr} (h : b.quiet c) :
    b.quiet (c.sector r ctx step e).1 := by
  simp only [Chip.sector]
  split
  · exact h
  · split
    · exact h
    · split
      · dsimp only
        exact .ite h h.mcCorrected
      · split
        · dsimp only
          refine .checkChannel (.ite (.mcEvt (.setEntry (.updChan ?_))) (.updChan ?_))
          · exact .mcEvt (.recordSector h.uncorr)
          · exact .mcEvt (.recordSector h.uncorr)
        · dsimp only
          refine .ite (.checkChannel (.checkChannel ?marked)) (.checkChannel ?marked)
          refine .mcEvt (.mcEvt (.mcEvt (.setEntry (.ite (.updChan (.updChan ?recorded)) (.updChan ?recorded)))))
          refine .recordSector (.ite ?twice ?once)
          · exact h.uncorr.uncorr
          · exact h.uncorr

theorem Chip.quiet.readSectors {r : Requester} {ctx a n : Nat} {step : Word} (h : b.quiet c) : b.quiet (c.readSectors r ctx step a n).1 :=
  List.foldlRecOn _ _ (motive := fun x : Chip × Option Nat => b.quiet x.1) (h.touch.same rfl rfl rfl) (fun _ hx _ _ => hx.sector)

theorem Chip.quiet.readFor {r : Requester} {ctx a n : Nat} {step : Word} (h : b.quiet c) : b.quiet (c.readFor r ctx step a n).1 := by
  have hread : b.quiet (c.readSectors r ctx step a n).1 := h.readSectors
  unfold Chip.readFor
  split
  · dsimp only
    exact h.recordViol.ctxFault
  · split
    case h_1 hr =>
      rw [hr] at hread
      dsimp only
      exact hread.recordViol.ctxFault
    case h_2 hr => rwa [hr] at hread

/-! ### The ledger (R458, R463) -/

theorem Chip.quiet.lgWrite {first failed : Bool} {off : Nat} {bs : Bytes} (h : b.quiet c) : b.quiet (c.lgWrite first failed off bs) := by
  have hread : ∀ (p : Prop) [Decidable p] a, b.quiet (if p then (c, none) else c.readSectors .ledger 0xFF noStep a bs.length).1 :=
    fun p _ a => by
      split
      · exact h
      · exact h.readSectors
  simp only [Chip.lgWrite]
  split
  · exact h
  · split
    · exact .ite (.lgErr h.recordViol.updLg) h.recordViol.updLg
    · exact .ite (.ite (.lgErr (hread _ _).updLg) (hread _ _).updLg) (hread _ _).updLg.dramWrite

theorem Chip.quiet.lgChain {rec : Bytes} (h : b.quiet c) : b.quiet (c.lgChain rec) := h.updLg.lgWrite

theorem Chip.quiet.lgAppendSlot {order : Nat} {rec : Bytes} (h : b.quiet c) : b.quiet (c.lgAppendSlot order rec) := by
  unfold Chip.lgAppendSlot
  refine .ite h (Chip.quiet.updLg (.foldl (fun d _ => (Chip.quiet.refl d).lgChain) _ ?_))
  exact .ite h h.updLg

/-! ### Slots written (R244, R245) -/

theorem Chip.quiet.updFgs {s : Nat} {f : FgStream → FgStream} (h : b.quiet c) : b.quiet (c.updFgs s f) := h.updFg

theorem Chip.quiet.updMode {s : Nat} {settled : Bool} {f : FgMode → FgMode} (h : b.quiet c) : b.quiet (c.updMode s settled f) := h.updFgs

theorem Chip.quiet.noteGone {d : StreamDecl} {settled : Bool} {j : Nat} (h : b.quiet c) : b.quiet (c.noteGone d settled j) :=
  .ite h h.updMode

theorem Chip.quiet.openSlot {d : StreamDecl} {settled : Bool} {j : Nat} {step : Word} (h : b.quiet c) :
    b.quiet (c.openSlot d settled j step).1 := by
  unfold Chip.openSlot
  extract_lets g a refused
  have hrefused : ∀ v d, b.quiet d → b.quiet (refused v d).1 := fun _ _ hd => by
    simp only [refused]
    exact hd.recordViol.ctxFault
  clear_value a refused
  cases c.refusal (.ctx d.ctx) true a 8 with
  | some v => exact hrefused _ _ h
  | none =>
    generalize (Chip.refusal _ _ _ _ _).or _ = beyond
    cases beyond with
    | some v => exact hrefused _ _ h.noteGone.dramWrite
    | none => exact h.noteGone.dramWrite

theorem Chip.quiet.writeSlot {d : StreamDecl} {hd : Header} {luma chroma prov : Bytes} {step : Word} (h : b.quiet c) :
    b.quiet (c.writeSlot d hd luma chroma prov step).1 := by
  have hopen : b.quiet (c.openSlot d hd.settled hd.j step).1 := h.openSlot
  unfold Chip.writeSlot
  dsimp only
  split
  · exact hopen
  · dsimp only
    exact hopen.dramWrite.dramWrite.dramWrite.dramWrite.lgAppendSlot.deviceSignal

theorem Chip.quiet.repeatSource {d : StreamDecl} {settled : Bool} (h : b.quiet c) : b.quiet (c.repeatSource d settled).1 := by
  simp only [Chip.repeatSource]
  split
  · exact h
  · next i _ _ =>
    have hread : b.quiet (c.readFor .sequencer d.ctx noStep (c.slotAt d settled i) d.slotGeo.size).1 := h.readFor
    split
    case h_1 hr => rwa [hr] at hread
    case h_2 hr => rwa [hr] at hread

theorem Chip.quiet.writeRepeat {d : StreamDecl} {settled : Bool} {epoch j den pres cause : Nat} {e : Int} (h : b.quiet c) :
    b.quiet (c.writeRepeat d settled epoch j e den pres cause) := by
  have hsource : b.quiet (c.repeatSource d settled).1 := h.repeatSource
  simp only [Chip.writeRepeat]
  split
  case h_1 hr => rwa [hr] at hsource
  case h_2 hr =>
    rw [hr] at hsource
    exact .ite hsource.writeSlot (.fgEvent (.ite (.fgErr hsource.writeSlot.updMode.updFg) (.fgErr hsource.writeSlot.updMode.updFg)))

end
end Sys2Proof.Machine
end

section
/-! PROOFS. The statement on tide entries (O35): what an entry issues, what it leaves, and the partition that an entry in error resets. -/

namespace Sys2Proof.Machine

section
variable {b c d : Chip}

/-! ### Partition resets (R313, R314) -/

/-- A reset issues nothing on its way to the partition's state. -/
theorem Chip.partReset_eq {p : Nat} (h : (c.str.part p).isSome = true) :
    ∃ e, c.quiet e ∧ c.partReset p = (e.updTt (fun t => { t with pst := vset t.pst p .reset })).ttErr 3 := by
  have hpart : (c.str.part p).isNone = false := by simpa using h
  simp only [Chip.partReset, hpart, Bool.false_eq_true, if_false]
  refine ⟨_, ?_, rfl⟩
  refine .foldl (fun d _ => (Chip.quiet.refl d).clearStore) _ (.basinClear (.updSd (.updMe ?_)))
  refine .foldl (fun d _ => (Chip.quiet.refl d).updCtx) _ (.foldl (fun d _ => (Chip.quiet.refl d).updBerth) _ ?_)
  exact .foldl (fun d _ => (Chip.quiet.refl d).teardown) _ (.foldl (fun d _ => (Chip.quiet.refl d).updBerth) _ (.refl c))

/-! ### Issued steps (R291, R506, R507) -/

/-- A step of the number, the context and the subject given has been issued, and runs for the first time. -/
def Chip.issued (c : Chip) (no : Word) (ctx : Nat) (subj : Subject) : Prop :=
  ∃ s ∈ c.tt.steps, s.no = no ∧ s.ctx = ctx ∧ s.subj = subj ∧ s.runs = 1

/-- Issuing a step appends it under the next step number, and writes its journal entry. -/
theorem Chip.issue_tt (c : Chip) (s : Step) (waits : List Nat) :
    ∃ u, (c.issue s waits).tt = { c.tt with stepNo := c.tt.stepNo + 1, steps := c.tt.steps ++ [u] } ∧
      u.no = c.tt.stepNo ∧ u.ctx = s.ctx ∧ u.subj = s.subj ∧ u.runs = 1 :=
  ⟨_, Chip.journal_frame _ _ _ .tt (by decide), rfl, rfl, rfl, rfl⟩

theorem Chip.issue_issued (c : Chip) (s : Step) (waits : List Nat) : (c.issue s waits).issued c.tt.stepNo s.ctx s.subj := by
  obtain ⟨u, htt, hu⟩ := c.issue_tt s waits
  exact ⟨u, by simp [htt], hu⟩

theorem Chip.issue_frame (c : Chip) (s : Step) (waits : List Nat) : c.frame (c.issue s waits) [.tt, .mc, .dram] :=
  Chip.frame_trans (l := [.tt]) (fun x hx => by cases x <;> simp [Blk.same] at hx ⊢) (Chip.journal_frame _ _ _)

theorem Chip.issue_steady (c : Chip) (s : Step) (waits : List Nat) : c.steady (c.issue s waits) := by
  obtain ⟨u, htt, -⟩ := c.issue_tt s waits
  have hframe := c.issue_frame s waits
  exact ⟨hframe .clk (by decide), by rw [htt], by rw [htt], Chip.ask_of_sn (hframe .sn (by decide))⟩

theorem Chip.issued.updStep {no m : Word} {x : Nat} {subj : Subject} {f : Step → Step} (h : c.issued no x subj)
    (hf : ∀ s, (f s).no = s.no ∧ (f s).ctx = s.ctx ∧ (f s).subj = s.subj ∧ (f s).runs = s.runs := by
      exact fun _ => ⟨rfl, rfl, rfl, rfl⟩) : (c.updStep m f).issued no x subj := by
  obtain ⟨s, hs, hno, hctx, hsubj, hruns⟩ := h
  refine ⟨_, List.mem_map_of_mem hs, ?_⟩
  obtain ⟨fno, fctx, fsubj, fruns⟩ := hf s
  split
  · exact ⟨fno.trans hno, fctx.trans hctx, fsubj.trans hsubj, fruns.trans hruns⟩
  · exact ⟨hno, hctx, hsubj, hruns⟩

/-! ### Kernels handed to the scheduler (R298) -/

theorem Chip.advanceKernels_cases (c : Chip) (no : Word) : c.advanceKernels no = c ∨ ∃ k ks,
    c.advanceKernels no = (c.updStep no (fun s => { s with later := ks })).updTt (fun t => { t with waiting := t.waiting ++ [k] }) := by
  unfold Chip.advanceKernels
  split
  · split
    · exact .inl rfl
    · exact .inr ⟨_, _, rfl⟩
  · exact .inl rfl

theorem Chip.quiet.advanceKernels {no : Word} (h : b.quiet c) : b.quiet (c.advanceKernels no) := by
  obtain heq | ⟨k, ks, heq⟩ := c.advanceKernels_cases no <;> rw [heq]
  · exact h
  · exact h.updStep.updTt

theorem Chip.issued.advanceKernels {no m : Word} {x : Nat} {subj : Subject} (h : c.issued no x subj) :
    (c.advanceKernels m).issued no x subj := by
  obtain heq | ⟨k, ks, heq⟩ := c.advanceKernels_cases m <;> rw [heq]
  · exact h
  · exact h.updStep

theorem Chip.advanceKernels_skipped (c : Chip) (no : Word) : (c.advanceKernels no).tt.skipped = c.tt.skipped := by
  obtain heq | ⟨k, ks, heq⟩ := c.advanceKernels_cases no
  · rw [heq]
  · rw [heq]
    rfl

theorem Chip.quiet.enqueue {no : Word} {ks : List (List QDesc)} (h : b.quiet c) : b.quiet (c.enqueue no ks) := by
  unfold Chip.enqueue
  split
  · exact h
  · exact h.updStep.advanceKernels

theorem Chip.issued.enqueue {no m : Word} {x : Nat} {subj : Subject} {ks : List (List QDesc)} (h : c.issued no x subj) :
    (c.enqueue m ks).issued no x subj := by
  unfold Chip.enqueue
  split
  · exact h
  · exact h.updStep.advanceKernels

theorem Chip.enqueue_skipped (c : Chip) (no : Word) (ks : List (List QDesc)) : (c.enqueue no ks).tt.skipped = c.tt.skipped := by
  unfold Chip.enqueue
  split
  · rfl
  · exact Chip.advanceKernels_skipped _ _

/-! ### Instants (R228, R318) -/

theorem Chip.updMode_mode {s : Nat} (hs : s < 256) (c : Chip) (settled : Bool) (f : FgMode → FgMode) :
    (c.updMode s settled f).mode s settled = f (c.mode s settled) := by
  have hst : (c.updMode s settled f).fgs s =
      (if settled then { c.fgs s with settled := f (c.fgs s).settled } else { c.fgs s with live := f (c.fgs s).live }) := by
    simp only [Chip.fgs, Chip.updMode, Chip.updFgs, Chip.updFg, vget_vupd]
    simp [hs]
  cases settled <;> simp [Chip.mode, hst]

theorem Chip.issueFrame_eq (c : Chip) (d : StreamDecl) (settled be : Bool) (p : InstantPlan) (fin : Option Nat) :
    ∃ s waits, c.issueFrame d settled p be fin = c.issue s waits ∧ s.ctx = d.ctx ∧ s.subj = .frame d.idx settled p.j := by
  unfold Chip.issueFrame
  exact ⟨_, _, rfl, rfl, rfl⟩

end

section
variable {b c : Chip} {k due : Nat} {t : TideDecl} {d : StreamDecl} {be : Bool} {fin : Option Nat}

/-! ### A tide entry comes due (R291 to R296) -/

/-- The table's pointer has moved past entry k, and the snapshot block is as given. -/
def Chip.pastEntry (k : Nat) (sn : Snap) (c : Chip) : Chip := { c with tt := { c.tt with next := k + 1 }, sn := sn }

/-- What an entry of each kind issues, with a class and the end of its budget. -/
def Chip.entryIssue (k : Nat) (t : TideDecl) (due : Nat) (be : Bool) (fin : Option Nat) (c : Chip) : Chip :=
  match t.kind with
  | 0 => match c.str.stream t.target with | some d => c.tideLive d due be fin | none => c
  | 1 => match c.str.stream t.target with | some d => c.tideSettled d be fin | none => c
  | 2 => c.tideStep k t be fin
  | _ => c

theorem Chip.tideIssue_eq (c : Chip) (k : Nat) (t : TideDecl) (due : Nat) :
    ∃ sn be fin, (t.snap = true → (3, k) ∈ sn.ask) ∧ c.tideIssue k t due = (c.pastEntry k sn).entryIssue k t due be fin := by
  unfold Chip.tideIssue
  cases t.snap
  case false => exact ⟨c.sn, _, _, nofun, rfl⟩
  case true => exact ⟨{ c.sn with ask := c.sn.ask ++ [(3, k)] }, _, _, by simp, rfl⟩

theorem Chip.entryDue_some {kind : Nat} (h : c.entryDue kind k = some t) : c.str.tide[k]? = some t ∧ min t.kind 3 = kind := by
  simp only [Chip.entryDue, Option.filter_eq_some_iff, Bool.and_eq_true, beq_iff_eq] at h
  obtain ⟨htide, ⟨⟨-, hkind⟩, -⟩, -⟩ := h
  exact ⟨htide, hkind⟩

/-- A command of a tide entry that is due: the pointer moves on, the entry issues what its kind says, and the scheduler follows. -/
theorem Chip.tideRun_due {kind : Nat} (h : c.entryDue kind k = some t) :
    ∃ sn be fin, (t.snap = true → (3, k) ∈ sn.ask) ∧
      c.tideRun k false = ((c.pastEntry k sn).entryIssue k t (c.tt.start + t.offset * 10000) be fin).schedule := by
  obtain ⟨sn, be, fin, hsnap, heq⟩ := c.tideIssue_eq k t (c.tt.start + t.offset * 10000)
  refine ⟨sn, be, fin, hsnap, ?_⟩
  simp only [Chip.tideRun, (Chip.entryDue_some h).1, Bool.false_eq_true, if_false, heq]

theorem Chip.tideOk_due {kind : Nat} (h : c.entryDue kind k = some t) : c.tideOk kind k false = true := by
  simp [Chip.tideOk, h]

/-! ### Context steps (R294) -/

/-- The entry's last step, of the same tide table, is incomplete. -/
def Chip.stepOpen (k : Nat) (c : Chip) : Prop := ∃ s ∈ c.tt.steps, s.oldTable = false ∧ ∃ n, s.subj = .context k n

/-- Everything that a context entry can do: its step is skipped, or it is not issued, or it is. -/
theorem Chip.tideStep_cases (c : Chip) (k : Nat) (t : TideDecl) (be : Bool) (fin : Option Nat) :
    (c.stepOpen k ∧ c.tideStep k t be fin = (c.updTt (fun t => { t with skipped := satInc t.skipped })).ttErr 1) ∨
    (¬ c.stepOpen k ∧ c.ctxRunnable t.target = false ∧ c.tideStep k t be fin = c) ∨
    (¬ c.stepOpen k ∧ c.ctxRunnable t.target = true ∧ ∃ s waits ks, s.ctx = t.target ∧ s.subj = .context k c.tt.cycles ∧
      c.tideStep k t be fin = (c.open_.2.open_.2.issue s waits).enqueue c.tt.stepNo ks) := by
  unfold Chip.tideStep
  extract_lets same
  have hsame : same = true ↔ c.stepOpen k := by
    simp only [same, List.any_eq_true, Bool.and_eq_true, Bool.not_eq_true', Chip.stepOpen]
    refine exists_congr fun s => and_congr_right fun _ => and_congr_right fun _ => ?_
    cases s.subj <;> simp
  by_cases hopen : c.stepOpen k
  · exact .inl ⟨hopen, by rw [if_pos (hsame.mpr hopen)]⟩
  · right
    rw [if_neg (mt hsame.mp hopen)]
    cases hruns : c.ctxRunnable t.target
    · exact .inl ⟨hopen, rfl, rfl⟩
    · exact .inr ⟨hopen, rfl, _, _, _, rfl, rfl, rfl⟩

/-! ### What an entry leaves as it was -/

theorem Chip.steady.issueFrame {settled : Bool} {p : InstantPlan} (h : b.steady c) : b.steady (c.issueFrame d settled p be fin) := by
  obtain ⟨s, waits, heq, -⟩ := c.issueFrame_eq d settled be p fin
  rw [heq]
  exact h.trans (c.issue_steady s waits)

theorem Chip.steady.quiet {e : Chip} (h : b.steady c) (hq : c.quiet e) : b.steady e := h.trans hq.steady

theorem Chip.steady.tideLive (h : b.steady c) : b.steady (c.tideLive d due be fin) := by
  have hmode : ∀ f, b.steady (c.updMode d.idx false f) := fun f => h.quiet (Chip.quiet.refl c).updMode
  unfold Chip.tideLive
  split
  · exact h
  · split
    · exact h
    · split
      · exact h
      · split
        · exact hmode _
        · exact (hmode _).issueFrame

theorem Chip.steady.issuePeriod (h : b.steady c) : b.steady (c.issuePeriod d be fin) := by
  unfold Chip.issuePeriod
  split
  · exact h
  · refine .foldl (fun e x => ?_) _ (h.quiet (Chip.quiet.refl c).updMode)
    simp only
    split
    · exact (Chip.quiet.refl e).writeRepeat.steady
    · exact (Chip.steady.refl e).issueFrame

theorem Chip.steady.tideSettled (h : b.steady c) : b.steady (c.tideSettled d be fin) := by
  unfold Chip.tideSettled
  split
  · exact h
  · split
    · exact h.quiet (Chip.quiet.refl c).updMode
    · exact h.issuePeriod

theorem Chip.steady.tideStep (h : b.steady c) : b.steady (c.tideStep k t be fin) := by
  obtain ⟨-, heq⟩ | ⟨-, -, heq⟩ | ⟨-, -, s, waits, ks, -, -, heq⟩ := c.tideStep_cases k t be fin <;> rw [heq]
  · exact h.quiet (Chip.quiet.refl c).updTt.ttErr
  · exact h
  · exact (h.quiet (Chip.quiet.refl c).open_.open_).trans ((Chip.issue_steady _ s waits).quiet (Chip.quiet.refl _).enqueue)

theorem Chip.steady.entryIssue (h : b.steady c) : b.steady (c.entryIssue k t due be fin) := by
  unfold Chip.entryIssue
  split
  · split
    · exact h.tideLive
    · exact h
  · split
    · exact h.tideSettled
    · exact h
  · exact h.tideStep
  · exact h

/-- What a tide entry of any kind does (R291, R293): the pointer moves past it, and its SNAP flag asks for a snapshot. -/
theorem Chip.tideRun_steady {kind : Nat} (h : c.entryDue kind k = some t) :
    (c.tideRun k false).tt.next = k + 1 ∧ (t.snap = true → (3, k) ∈ (c.tideRun k false).sn.ask) ∧ (c.tideRun k false).clk = c.clk ∧
      (c.tideRun k false).tt.cycles = c.tt.cycles := by
  obtain ⟨sn, be, fin, hsnap, heq⟩ := Chip.tideRun_due h
  have hsteady : (c.pastEntry k sn).steady (c.tideRun k false) := by
    rw [heq]
    exact ((Chip.steady.refl _).entryIssue).quiet (Chip.schedule_moved _).quiet
  exact ⟨hsteady.next, fun ht => hsteady.ask.subset (hsnap ht), hsteady.clk, hsteady.cycles⟩

/-- A marker does nothing more (R291). -/
theorem Chip.tideRun_marker (h : c.entryDue 3 k = some t) :
    (c.tideRun k false).tt.steps = c.tt.steps ∧ (c.tideRun k false).tt.stepNo = c.tt.stepNo := by
  obtain ⟨sn, be, fin, -, heq⟩ := Chip.tideRun_due h
  have hkind := (Chip.entryDue_some h).2
  have hissue : (c.pastEntry k sn).entryIssue k t (c.tt.start + t.offset * 10000) be fin = c.pastEntry k sn := by
    unfold Chip.entryIssue
    split
    · omega
    · omega
    · omega
    · rfl
  obtain ⟨ctx, berth, htt⟩ := (c.pastEntry k sn).schedule_moved.tt
  rw [heq, hissue, htt]
  exact ⟨rfl, rfl⟩

/-! ### Entries of a kind -/

theorem Chip.tideRun_context (h : c.entryDue 2 k = some t) :
    ∃ sn be fin, c.tideRun k false = ((c.pastEntry k sn).tideStep k t be fin).schedule := by
  obtain ⟨sn, be, fin, -, heq⟩ := Chip.tideRun_due h
  have hkind : t.kind = 2 := by have := (Chip.entryDue_some h).2; omega
  exact ⟨sn, be, fin, by simp only [heq, Chip.entryIssue, hkind]⟩

theorem Chip.tideRun_live (h : c.entryDue 0 k = some t) (hd : c.str.stream t.target = some d) :
    ∃ sn be fin, c.tideRun k false = ((c.pastEntry k sn).tideLive d (c.tt.start + t.offset * 10000) be fin).schedule := by
  obtain ⟨sn, be, fin, -, heq⟩ := Chip.tideRun_due h
  have hkind : t.kind = 0 := by have := (Chip.entryDue_some h).2; omega
  have hstr : (c.pastEntry k sn).str.stream t.target = some d := hd
  exact ⟨sn, be, fin, by simp only [heq, Chip.entryIssue, hkind, hstr]⟩

theorem Chip.tideRun_settled (h : c.entryDue 1 k = some t) (hd : c.str.stream t.target = some d) :
    ∃ sn be fin, c.tideRun k false = ((c.pastEntry k sn).tideSettled d be fin).schedule := by
  obtain ⟨sn, be, fin, -, heq⟩ := Chip.tideRun_due h
  have hkind : t.kind = 1 := by have := (Chip.entryDue_some h).2; omega
  have hstr : (c.pastEntry k sn).str.stream t.target = some d := hd
  exact ⟨sn, be, fin, by simp only [heq, Chip.entryIssue, hkind, hstr]⟩

theorem Chip.issued.schedule {no : Word} {x : Nat} {subj : Subject} (h : c.issued no x subj) : c.schedule.issued no x subj := by
  obtain ⟨ctx, berth, htt⟩ := c.schedule_moved.tt
  rw [Chip.issued, htt]
  exact h

theorem Chip.schedule_tt (c : Chip) : c.schedule.tt.steps = c.tt.steps ∧ c.schedule.tt.stepNo = c.tt.stepNo ∧
    c.schedule.tt.skipped = c.tt.skipped ∧ c.schedule.tt.err = c.tt.err := by
  obtain ⟨ctx, berth, htt⟩ := c.schedule_moved.tt
  rw [htt]
  exact ⟨rfl, rfl, rfl, rfl⟩

theorem Chip.mode_congr {e : Chip} (h : e.fg = c.fg) (s : Nat) (settled : Bool) : e.mode s settled = c.mode s settled := by
  simp only [Chip.mode, Chip.fgs, h]

theorem Chip.schedule_mode (c : Chip) (s : Nat) (settled : Bool) : c.schedule.mode s settled = c.mode s settled :=
  Chip.mode_congr (c.schedule_moved.frame .fg (by decide)) s settled

theorem testBit_setBit (w : Word) {n : Nat} (h : n < 32) : (setBit w n).toNat.testBit n = true := by
  have hlt : 2 ^ n < 2 ^ 32 := Nat.pow_lt_pow_right (by decide) h
  rw [setBit, BitVec.toNat_or, Nat.testBit_or, BitVec.toNat_ofNat, Nat.mod_eq_of_lt hlt, Nat.testBit_two_pow_self, Bool.or_true]

/-- The step is skipped and counted while the entry's last one is incomplete (R294). -/
theorem Chip.tideRun_skips (h : c.entryDue 2 k = some t) (hopen : c.stepOpen k) :
    (c.tideRun k false).tt.steps = c.tt.steps ∧ (c.tideRun k false).tt.stepNo = c.tt.stepNo ∧
      (c.tideRun k false).tt.skipped = satInc c.tt.skipped ∧ (c.tideRun k false).tt.err.toNat.testBit 1 = true := by
  obtain ⟨sn, be, fin, heq⟩ := Chip.tideRun_context h
  have hpast : (c.pastEntry k sn).stepOpen k := hopen
  obtain ⟨-, hskip⟩ | ⟨hnot, -⟩ | ⟨hnot, -⟩ := (c.pastEntry k sn).tideStep_cases k t be fin
  · obtain ⟨hsteps, hstepNo, hskipped, herr⟩ := ((c.pastEntry k sn).tideStep k t be fin).schedule_tt
    rw [heq, hsteps, hstepNo, hskipped, herr, hskip, Chip.ttErr_tt]
    exact ⟨rfl, rfl, rfl, testBit_setBit _ (by decide)⟩
  · exact absurd hpast hnot
  · exact absurd hpast hnot

/-- Else a context that runs has its step issued (R291). -/
theorem Chip.tideRun_issues_context (h : c.entryDue 2 k = some t) (hruns : c.ctxRunnable t.target = true) (hopen : ¬ c.stepOpen k) :
    (c.tideRun k false).tt.stepNo = c.tt.stepNo + 1 ∧ (c.tideRun k false).tt.skipped = c.tt.skipped ∧
      (c.tideRun k false).issued c.tt.stepNo t.target (.context k c.tt.cycles) := by
  obtain ⟨sn, be, fin, heq⟩ := Chip.tideRun_context h
  have hpast : ¬ (c.pastEntry k sn).stepOpen k := hopen
  have hpastRuns : (c.pastEntry k sn).ctxRunnable t.target = true := hruns
  obtain ⟨hyes, -⟩ | ⟨-, hstill, -⟩ | ⟨-, -, s, waits, ks, hctx, hsubj, hissue⟩ := (c.pastEntry k sn).tideStep_cases k t be fin
  · exact absurd hyes hpast
  · exact absurd (hstill.symm.trans hpastRuns) (by decide)
  · obtain ⟨-, hstepNo, hskipped, -⟩ := ((c.pastEntry k sn).tideStep k t be fin).schedule_tt
    obtain ⟨u, htt, -⟩ := (c.pastEntry k sn).open_.2.open_.2.issue_tt s waits
    rw [heq, hstepNo, hskipped, hissue, (Chip.quiet.refl _).enqueue.stepNo, Chip.enqueue_skipped, htt]
    refine ⟨rfl, rfl, .schedule (.enqueue ?_)⟩
    have hissued := (c.pastEntry k sn).open_.2.open_.2.issue_issued s waits
    rw [hctx, hsubj] at hissued
    exact hissued

/-! ### LIVE entries (R228, R318) -/

/-- The earliest instant to be presented, of a stream whose mode has its reference frame. -/
theorem Chip.tideLive_eq {ref : Nat × Nat} {j : Nat} (hruns : c.streamRuns d = true) (href : (c.mode d.idx false).ref = some ref)
    (hnext : c.liveNext d ref due = some j) :
    c.tideLive d due be fin =
      if c.degraded d.idx && !d.anchor (c.fgHdr d) ref.1 j then c.updMode d.idx false (fun m => { m with issued := m.issued ++ [j] })
      else c.issueLive d ref j false be fin := by
  simp only [Chip.tideLive, hruns, href, hnext, Bool.not_true, Bool.false_eq_true, if_false]

theorem Chip.issueFrame_issued (c : Chip) (d : StreamDecl) (settled be : Bool) (p : InstantPlan) (fin : Option Nat) :
    (c.issueFrame d settled p be fin).tt.stepNo = c.tt.stepNo + 1 ∧
      (c.issueFrame d settled p be fin).issued c.tt.stepNo d.ctx (.frame d.idx settled p.j) := by
  obtain ⟨s, waits, heq, hctx, hsubj⟩ := c.issueFrame_eq d settled be p fin
  obtain ⟨u, htt, -⟩ := c.issue_tt s waits
  rw [heq, ← hctx, ← hsubj]
  exact ⟨by rw [htt], c.issue_issued s waits⟩

theorem Chip.issueLive_issued (c : Chip) (d : StreamDecl) (ref : Nat × Nat) (j : Nat) (discard be : Bool) (fin : Option Nat) :
    (c.issueLive d ref j discard be fin).tt.stepNo = c.tt.stepNo + 1 ∧
      (c.issueLive d ref j discard be fin).issued c.tt.stepNo d.ctx (.frame d.idx false j) :=
  Chip.issueFrame_issued _ d false be (c.livePlan d ref j discard) fin

theorem Chip.tideRun_issues_live {ref : Nat × Nat} {j : Nat} (h : c.entryDue 0 k = some t) (hd : c.str.stream t.target = some d)
    (hruns : c.streamRuns d = true) (href : (c.mode d.idx false).ref = some ref)
    (hnext : c.liveNext d ref (c.tt.start + t.offset * 10000) = some j)
    (hanchor : c.degraded d.idx = true → d.anchor (c.fgHdr d) ref.1 j = true) :
    (c.tideRun k false).tt.stepNo = c.tt.stepNo + 1 ∧ (c.tideRun k false).issued c.tt.stepNo d.ctx (.frame d.idx false j) := by
  obtain ⟨sn, be, fin, heq⟩ := Chip.tideRun_live h hd
  have hstays : ¬ ((c.pastEntry k sn).degraded d.idx && !d.anchor ((c.pastEntry k sn).fgHdr d) ref.1 j) = true := by
    intro hpass
    obtain ⟨hdeg, hnot⟩ := Bool.and_eq_true_iff.mp hpass
    have hyes : d.anchor ((c.pastEntry k sn).fgHdr d) ref.1 j = true := hanchor hdeg
    simp [hyes] at hnot
  have hlive := (Chip.tideLive_eq (c := c.pastEntry k sn) (be := be) (fin := fin) hruns href hnext).trans (if_neg hstays)
  obtain ⟨hstepNo, hissued⟩ := (c.pastEntry k sn).issueLive_issued d ref j false be fin
  rw [heq, hlive]
  exact ⟨(Chip.schedule_tt _).2.1.trans hstepNo, hissued.schedule⟩

/-- An instant of a degraded stream that is no anchor passes its entry by (R231, R318). -/
theorem Chip.tideRun_passes {ref : Nat × Nat} {j : Nat} (h : c.entryDue 0 k = some t) (hd : c.str.stream t.target = some d)
    (hidx : d.idx < 256) (hruns : c.streamRuns d = true) (href : (c.mode d.idx false).ref = some ref)
    (hnext : c.liveNext d ref (c.tt.start + t.offset * 10000) = some j) (hdeg : c.degraded d.idx = true)
    (hanchor : d.anchor (c.fgHdr d) ref.1 j = false) :
    (c.tideRun k false).tt.stepNo = c.tt.stepNo ∧ (c.tideRun k false).tt.steps = c.tt.steps ∧
      ((c.tideRun k false).mode d.idx false).issued = (c.mode d.idx false).issued ++ [j] := by
  obtain ⟨sn, be, fin, heq⟩ := Chip.tideRun_live h hd
  have hpasses : ((c.pastEntry k sn).degraded d.idx && !d.anchor ((c.pastEntry k sn).fgHdr d) ref.1 j) = true :=
    Bool.and_eq_true_iff.mpr ⟨hdeg, (congrArg not hanchor : _)⟩
  have hlive := (Chip.tideLive_eq (c := c.pastEntry k sn) (be := be) (fin := fin) hruns href hnext).trans (if_pos hpasses)
  obtain ⟨hsteps, hstepNo, -, -⟩ := ((c.pastEntry k sn).tideLive d (c.tt.start + t.offset * 10000) be fin).schedule_tt
  rw [heq, hsteps, hstepNo, Chip.schedule_mode, hlive, Chip.updMode_mode hidx]
  exact ⟨rfl, rfl, rfl⟩

/-! ### SETTLED entries (R228) -/

/-- A number of steps has been issued; the modes and the degradation set are as they were. -/
structure Chip.issues (n : Nat) (b e : Chip) : Prop where
  stepNo : e.tt.stepNo = b.tt.stepNo + BitVec.ofNat 32 n
  steps : e.tt.steps.length = b.tt.steps.length + n
  fg : e.fg = b.fg
  degraded : e.tt.degraded = b.tt.degraded

theorem Chip.issues.trans {m n : Nat} {e : Chip} (h : b.issues m c) (k : c.issues n e) : b.issues (m + n) e where
  stepNo := by rw [k.stepNo, h.stepNo, BitVec.ofNat_add, BitVec.add_assoc]
  steps := by rw [k.steps, h.steps, Nat.add_assoc]
  fg := k.fg.trans h.fg
  degraded := k.degraded.trans h.degraded

theorem Chip.issueFrame_issues (c : Chip) (d : StreamDecl) (settled be : Bool) (p : InstantPlan) (fin : Option Nat) :
    c.issues 1 (c.issueFrame d settled p be fin) := by
  obtain ⟨s, waits, heq, -⟩ := c.issueFrame_eq d settled be p fin
  obtain ⟨u, htt, -⟩ := c.issue_tt s waits
  rw [heq]
  exact ⟨by rw [htt]; rfl, by simp [htt], c.issue_frame s waits .fg (by decide), by rw [htt]⟩

/-- Steps issued in a row, each while a stream is not degraded. -/
theorem Chip.issues.foldl {α : Type} {f : Chip → α → Chip} {s : Nat} (hf : ∀ (c : Chip) x, c.degraded s = false → c.issues 1 (f c x))
    (l : List α) (c : Chip) (hdeg : c.degraded s = false) : c.issues l.length (l.foldl f c) := by
  induction l generalizing c with
  | nil => exact ⟨by simp, rfl, rfl, rfl⟩
  | cons x xs ih =>
    have hone := hf c x hdeg
    have hrest := hone.trans (ih (f c x) (by rw [Chip.degraded, hone.degraded]; exact hdeg))
    rwa [Nat.add_comm] at hrest

/-- The earliest period of a stream that is not degraded has a step issued for each of its instants. -/
theorem Chip.issuePeriod_issues {p : Period} {rest : List Period} (hperiods : (c.mode d.idx true).periods = p :: rest)
    (hdeg : c.degraded d.idx = false) :
    (c.updMode d.idx true (fun m => { m with periods := rest })).issues (d.periodInstants p).length (c.issuePeriod d be fin) := by
  simp only [Chip.issuePeriod, hperiods]
  refine Chip.issues.foldl (s := d.idx) (fun e x he => ?_) _ _ hdeg
  simp only [he, Bool.false_and, Bool.false_eq_true, if_false]
  exact e.issueFrame_issues _ _ _ _ _

theorem Chip.tideRun_issues_period {p : Period} {rest : List Period} (h : c.entryDue 1 k = some t)
    (hd : c.str.stream t.target = some d) (hruns : c.streamRuns d = true) (hdeg : c.degraded d.idx = false) (hidx : d.idx < 256)
    (hperiods : (c.mode d.idx true).periods = p :: rest) :
    (c.tideRun k false).tt.stepNo = c.tt.stepNo + BitVec.ofNat 32 (d.periodInstants p).length ∧
      (c.tideRun k false).tt.steps.length = c.tt.steps.length + (d.periodInstants p).length ∧
      ((c.tideRun k false).mode d.idx true).periods = rest := by
  obtain ⟨sn, be, fin, heq⟩ := Chip.tideRun_settled h hd
  have hpast : ((c.pastEntry k sn).mode d.idx true).periods = p :: rest := hperiods
  have hpastRuns : (c.pastEntry k sn).streamRuns d = true := hruns
  have hissue : (c.pastEntry k sn).tideSettled d be fin = (c.pastEntry k sn).issuePeriod d be fin := by
    simp [Chip.tideSettled, hpastRuns, hpast]
  have hissues := Chip.issuePeriod_issues (be := be) (fin := fin) hpast hdeg
  obtain ⟨hsteps, hstepNo, -, -⟩ := ((c.pastEntry k sn).issuePeriod d be fin).schedule_tt
  rw [heq, hissue, hsteps, hstepNo, Chip.schedule_mode, hissues.stepNo, hissues.steps, Chip.mode_congr hissues.fg, Chip.updMode_mode hidx]
  exact ⟨rfl, rfl, rfl⟩

/-- With no period formed the entry stays owed (log 33). -/
theorem Chip.tideRun_owes (h : c.entryDue 1 k = some t) (hd : c.str.stream t.target = some d) (hruns : c.streamRuns d = true)
    (hidx : d.idx < 256) (hperiods : (c.mode d.idx true).periods = []) :
    ((c.tideRun k false).mode d.idx true).owed.isSome = true ∧ (c.tideRun k false).tt.steps = c.tt.steps := by
  obtain ⟨sn, be, fin, heq⟩ := Chip.tideRun_settled h hd
  have hpast : ((c.pastEntry k sn).mode d.idx true).periods = [] := hperiods
  have hpastRuns : (c.pastEntry k sn).streamRuns d = true := hruns
  have howe : (c.pastEntry k sn).tideSettled d be fin =
      (c.pastEntry k sn).updMode d.idx true (fun m => { m with owed := m.owed.or (some (be, fin)) }) := by
    simp [Chip.tideSettled, hpastRuns, hpast]
  rw [heq, howe, Chip.schedule_mode, Chip.updMode_mode hidx, (Chip.schedule_tt _).1]
  exact ⟨by simp, rfl⟩

/-! ### An entry in error (R297) -/

theorem Chip.tideOk_bad {kind : Nat} (hawake : c.awake = true) (ht : c.str.tide[k]? = some t) (hkind : min t.kind 3 = kind) :
    c.tideOk kind k true = true := by
  simp [Chip.tideOk, hawake, ht, hkind]

theorem Chip.tideRun_bad (ht : c.str.tide[k]? = some t) (hlt : t.part < 8) (hpart : (c.str.part t.part).isSome = true) :
    vget .absent (c.tideRun k true).tt.pst t.part = .reset ∧ (c.tideRun k true).tt.err.toNat.testBit 6 = true ∧
      (c.tideRun k true).tt.stepNo = c.tt.stepNo := by
  obtain ⟨e, hquiet, heq⟩ := Chip.partReset_eq hpart
  have hrun : c.tideRun k true = ((e.updTt (fun x => { x with pst := vset x.pst t.part .reset })).ttErr 3).ttErr 6 := by
    simp only [Chip.tideRun, ht, if_true, heq]
  rw [hrun, Chip.ttErr_tt, Chip.ttErr_tt]
  exact ⟨by simp [vget_vset, hlt], testBit_setBit _ (by decide), hquiet.stepNo⟩

end

/-! ### The commands of a tide entry -/

theorem exec_tide {dt : When} {k : Nat} {bad : Bool} {r : Nat × Instr}
    (hr : r ∈ [(0, Instr.tideLiveInstant dt k bad), (1, .tideSettledPeriod dt k bad), (2, .tideContextStep dt k bad),
      (3, .tideMarker dt k bad)])
    (s : State) : exec r.2 s = run dt (Chip.tideOk r.1 k bad) (Chip.tideRun k bad) s := by
  simp only [List.mem_cons, List.not_mem_nil, or_false] at hr
  obtain rfl | rfl | rfl | rfl := hr
  · exact exec_tideLiveInstant dt k bad s
  · exact exec_tideSettledPeriod dt k bad s
  · exact exec_tideContextStep dt k bad s
  · exact exec_tideMarker dt k bad s

/-- Settles O35: what each kind of entry issues when it is due, entry by entry, and the reset that an entry in error brings. -/
theorem tideEntriesIssue : Obligations.TideEntriesIssue := by
  unfold Obligations.TideEntriesIssue
  refine ⟨fun dt k t => ⟨fun r hr => ?passed, ?skipped, ?context, fun d ref j p rest => ⟨?live, ?passedBy, ?period, ?owed⟩⟩,
    fun dt k t hlt r hr => ?error⟩
  case passed =>
    refine Does.of_run (exec_tide hr) (fun b h => Chip.tideOk_due h) (fun b h => ?_)
    obtain ⟨hnext, hsnap, hclk, hcycles⟩ := Chip.tideRun_steady h
    exact ⟨hnext, hsnap, hclk, hcycles, fun hmarker => Chip.tideRun_marker (hmarker ▸ h)⟩
  case skipped =>
    exact Does.of_run (exec_tideContextStep dt k false) (fun b h => Chip.tideOk_due h.1) (fun b h => Chip.tideRun_skips h.1 h.2)
  case context =>
    refine Does.of_run (exec_tideContextStep dt k false) (fun b h => Chip.tideOk_due h.1) (fun b ⟨hdue, hruns, hlast⟩ => ?_)
    have hclosed : ¬ b.stepOpen k := fun ⟨s, hs, hnew, n, hsubj⟩ => (hlast s hs).elim (by simp [hnew]) (fun hne => hne n hsubj)
    exact Chip.tideRun_issues_context hdue hruns hclosed
  case live =>
    refine Does.of_run (exec_tideLiveInstant dt k false) (fun b h => Chip.tideOk_due h.1)
      (fun b ⟨hdue, hd, hruns, href, hnext, hanchor⟩ => ?_)
    obtain ⟨hstepNo, s, hs, hno, hctx, hsubj, -⟩ := Chip.tideRun_issues_live hdue hd hruns href hnext hanchor
    exact ⟨hstepNo, s, hs, hno, hctx, hsubj⟩
  case passedBy =>
    exact Does.of_run (exec_tideLiveInstant dt k false) (fun b h => Chip.tideOk_due h.1)
      (fun b ⟨hdue, hd, hruns, hidx, href, hnext, hdeg, hanchor⟩ => Chip.tideRun_passes hdue hd hidx hruns href hnext hdeg hanchor)
  case period =>
    exact Does.of_run (exec_tideSettledPeriod dt k false) (fun b h => Chip.tideOk_due h.1)
      (fun b ⟨hdue, hd, hruns, hdeg, hidx, hperiods⟩ => Chip.tideRun_issues_period hdue hd hruns hdeg hidx hperiods)
  case owed =>
    exact Does.of_run (exec_tideSettledPeriod dt k false) (fun b h => Chip.tideOk_due h.1)
      (fun b ⟨hdue, hd, hruns, hidx, hperiods⟩ => Chip.tideRun_owes hdue hd hruns hidx hperiods)
  case error =>
    exact Does.of_run (exec_tide hr) (fun b ⟨hawake, ht, hkind, _⟩ => Chip.tideOk_bad hawake ht hkind)
      (fun b ⟨_, ht, _, hpart⟩ => Chip.tideRun_bad ht hlt hpart)

end Sys2Proof.Machine
end

section
/-! PROOFS. The statement on the interrupt controller: claims, ends of interrupts and doorbells (O18). -/

namespace Sys2Proof.Machine

/-! ### The source that a claim takes (R378) -/

/-- What is said of the best of the sources below k that pass a test: it is one of them of the highest priority, ties going to the lower
number, and there is none only where none passes. -/
structure IntCtl.isBest (ic : IntCtl) (ok : Nat → Bool) (k : Nat) (best : Option Nat) : Prop where
  of_none : best = none → ∀ m < k, ok m = false
  passes : ∀ n, best = some n → n < k ∧ ok n = true
  beats : ∀ n, best = some n → ∀ m < k, ok m = true →
    (ic.routeOf m).prio < (ic.routeOf n).prio ∨ (ic.routeOf m).prio = (ic.routeOf n).prio ∧ n ≤ m

/-- A further source that fails the test leaves the best as it is. -/
theorem IntCtl.isBest.skip {ic : IntCtl} {ok : Nat → Bool} {k : Nat} {best : Option Nat} (h : ic.isBest ok k best) (hk : ok k = false) :
    ic.isBest ok (k + 1) best := by
  have hbelow : ∀ m < k + 1, ok m = true → m < k := fun m hm hok => by
    have : m ≠ k := fun e => by simp [e, hk] at hok
    omega
  refine ⟨fun hb m hm => Bool.eq_false_iff.mpr (fun hok => ?_), fun n hb => ?_,
    fun n hb m hm hok => h.beats n hb m (hbelow m hm hok) hok⟩
  · simp [h.of_none hb m (hbelow m hm hok)] at hok
  · exact ⟨Nat.lt_succ_of_lt (h.passes n hb).1, (h.passes n hb).2⟩

/-- A further source that passes is the best where there was none, or where the best so far is below it in priority. -/
theorem IntCtl.isBest.take {ic : IntCtl} {ok : Nat → Bool} {k : Nat} {best : Option Nat} (h : ic.isBest ok k best) (hk : ok k = true)
    (hprio : ∀ n, best = some n → (ic.routeOf n).prio < (ic.routeOf k).prio) : ic.isBest ok (k + 1) (some k) := by
  refine ⟨nofun, fun n hn => ?_, fun n hn m hm hok => ?_⟩ <;> cases hn
  · exact ⟨Nat.lt_succ_self k, hk⟩
  · by_cases hmk : m = k
    · subst hmk; exact .inr ⟨rfl, Nat.le_refl _⟩
    · cases best with
      | none => simp [h.of_none rfl m (by omega)] at hok
      | some n =>
        have := h.beats n rfl m (by omega) hok
        have := hprio n rfl
        omega

/-- A further source of no higher priority than the best so far comes after it. -/
theorem IntCtl.isBest.keep {ic : IntCtl} {ok : Nat → Bool} {k n : Nat} (h : ic.isBest ok k (some n))
    (hprio : ¬ (ic.routeOf n).prio < (ic.routeOf k).prio) : ic.isBest ok (k + 1) (some n) := by
  obtain ⟨hn, hok⟩ := h.passes n rfl
  refine ⟨nofun, fun n' hn' => ?_, fun n' hn' m hm hm' => ?_⟩ <;> cases hn'
  · exact ⟨Nat.lt_succ_of_lt hn, hok⟩
  · by_cases hmk : m = k
    · subst hmk; omega
    · exact h.beats n rfl m (by omega) hm'

theorem IntCtl.isBest_best (ic : IntCtl) (ok : Nat → Bool) : ic.isBest ok 1024 (ic.best ok) := by
  unfold IntCtl.best
  generalize 1024 = k
  induction k with
  | zero => exact ⟨nofun, nofun, nofun⟩
  | succ k ih =>
    rw [List.range_succ, List.foldl_append, List.foldl_cons, List.foldl_nil]
    generalize List.foldl _ none (List.range k) = r at ih ⊢
    by_cases hk : ok k = true
    · rw [if_pos hk]
      cases r with
      | none => exact ih.take hk nofun
      | some n =>
        by_cases hprio : (ic.routeOf n).prio < (ic.routeOf k).prio
        · simp only [hprio, if_true]
          exact ih.take hk (fun _ hn => by cases hn; exact hprio)
        · simp only [hprio, if_false]
          exact ih.keep hprio
    · rw [if_neg hk]
      exact ih.skip (Bool.eq_false_iff.mpr hk)

theorem IntCtl.isBest_candidate (ic : IntCtl) (t : Nat) : ic.isBest (ic.qualifies t) 1024 (ic.candidate t) := ic.isBest_best _

theorem IntCtl.candidate_of_wins {ic : IntCtl} {t n : Nat} (h : ic.wins t n) : ic.candidate t = some n := by
  obtain ⟨hn, hq, hwins⟩ := h
  have hcand := ic.isBest_candidate t
  cases hc : ic.candidate t with
  | none => simp [hcand.of_none hc n hn] at hq
  | some m =>
    obtain ⟨hm, hqm⟩ := hcand.passes m hc
    have := hwins m hm hqm
    have := hcand.beats m hc n hn hq
    rw [show m = n by omega]

theorem IntCtl.candidate_of_none {ic : IntCtl} {t : Nat} (h : ∀ n < 1024, ic.qualifies t n = false) : ic.candidate t = none := by
  cases hc : ic.candidate t with
  | none => rfl
  | some m =>
    obtain ⟨hm, hqm⟩ := (ic.isBest_candidate t).passes m hc
    simp [h m hm] at hqm

theorem IntCtl.claim_of_candidate {ic : IntCtl} {t n : Nat} (h : ic.candidate t = some n) :
    ic.claim t = { ic with
      claimed := vset ic.claimed t (w32 (vget 0 ic.count n * 2 ^ 24 + n))
      count := vset ic.count n 0
      stack := vset ic.stack t ((ic.routeOf n).prio :: vget [] ic.stack t) } := by
  unfold IntCtl.claim
  rw [h]
  rfl

theorem IntCtl.claim_of_no_candidate {ic : IntCtl} {t : Nat} (h : ic.candidate t = none) :
    ic.claim t = { ic with claimed := vset ic.claimed t 0xFFFF } := by
  unfold IntCtl.claim
  rw [h]

/-! ### What a raising leaves of the interrupt controller (R374, R375) -/

theorem Chip.raiseCore_ic (c : Chip) (k src : Nat) (d : Bytes) :
    ∃ count last, (c.raiseCore k src d).ic = { c.ic with count := count, last := last } := by
  have hwake : (if (vget (Route.mk 0 0 false) c.ic.route src).watch then c.latchWake 5 src else c).ic = c.ic := by
    split <;> simp
  simp only [Chip.raiseCore]
  generalize (if (vget (Route.mk 0 0 false) c.ic.route src).watch then c.latchWake 5 src else c) = w at hwake ⊢
  split
  · exact ⟨_, _, by simp only [Chip.askSource_blocks, Chip.updIc_blocks, hwake]; rfl⟩
  · exact ⟨c.ic.count, c.ic.last, hwake⟩

/-- Source 798's own bit is set, and IC_ERR_STATUS[0] with it where raisings are lost. -/
theorem Chip.raise798_ic (c : Chip) (k bit : Nat) : ∃ more count last, (c.raise798 k bit).ic =
    { c.ic with err := setBit c.ic.err bit ||| more, count := count, last := last } := by
  simp only [Chip.raise798]
  generalize hd : c.updIc (fun ic => { ic with err := ic.err ||| BitVec.ofNat 32 (2 ^ bit) }) = d
  obtain ⟨count, last, hic⟩ := d.raiseCore_ic k 798 (statusDetail d.ic.err)
  have hdic : d.ic = { c.ic with err := setBit c.ic.err bit } := by rw [← hd]; rfl
  split
  · exact ⟨0#32, count, last, by rw [hic, hdic, BitVec.or_zero]⟩
  · exact ⟨1, count, last, by rw [Chip.updIc, hic, hdic]⟩

theorem Chip.raise_ic (c : Chip) (src : Nat) (d : Bytes) : ∃ err count last, (c.raise src d).ic =
    { c.ic with err := err, count := count, last := last } := by
  obtain ⟨count, last, hic⟩ := c.raiseCore_ic 1 src d
  simp only [Chip.raise, Chip.raiseN]
  rw [if_neg Nat.one_ne_zero]
  split
  · exact ⟨c.ic.err, count, last, hic⟩
  · obtain ⟨more, count', last', hic'⟩ := (c.raiseCore 1 src d).raise798_ic (c.lostRaisings 1 src) 0
    exact ⟨_, count', last', by rw [hic', hic]⟩

theorem Chip.raise798_count_self (c : Chip) (k bit : Nat) (hu : c.up = true) :
    vget 0 (c.raise798 k bit).ic.count 798 = min 255 (vget 0 c.ic.count 798 + k) := by
  simp only [Chip.raise798]
  generalize hd : c.updIc (fun ic => { ic with err := ic.err ||| BitVec.ofNat 32 (2 ^ bit) }) = d
  have hcount := d.raiseCore_count k 798 (statusDetail d.ic.err) (by rw [← hd]; exact hu) (by decide) 798
  rw [if_pos rfl, show d.ic.count = c.ic.count by rw [← hd]; rfl] at hcount
  split <;> exact hcount

theorem setBit_or_testBit (w more : Word) {bit : Nat} (h : bit < 32) : (setBit w bit ||| more).toNat.testBit bit = true := by
  have hself : (BitVec.ofNat 32 (2 ^ bit)).toNat.testBit bit = true := by
    rw [BitVec.toNat_ofNat, Nat.testBit_mod_two_pow]
    simp [h]
  rw [setBit, BitVec.toNat_or, BitVec.toNat_or, Nat.testBit_or, Nat.testBit_or, hself, Bool.or_true, Bool.true_or]

/-- What an error of the interrupt controller does (R385): its bit, one raising of source 798, and nothing else but the time and detail
of that raising and IC_ERR_STATUS[0]. -/
theorem Chip.icErr_effect (c : Chip) {bit : Nat} (hbit : bit < 32) (hu : c.up = true) :
    (c.icErr bit).ic.err.toNat.testBit bit = true ∧ (c.icErr bit).ic.stack = c.ic.stack ∧ (c.icErr bit).ic.claimed = c.ic.claimed ∧
    c.counted (c.icErr bit) 798 ∧ ∀ n, n ≠ 798 → vget 0 (c.icErr bit).ic.count n = vget 0 c.ic.count n := by
  obtain ⟨more, count, last, hic⟩ := c.raise798_ic 1 bit
  rw [Chip.counted, Chip.icErr]
  refine ⟨?_, ?_, ?_, c.raise798_count_self 1 bit hu, fun n hn => c.raise798_count 1 bit hu n hn⟩
  all_goals rw [hic]
  exact setBit_or_testBit _ _ hbit

theorem Chip.frame_icErr (c : Chip) (bit : Nat) : c.frame (c.icErr bit) [.ic, .lh, .sn] := by
  intro x hx
  cases x <;> simp [Blk.same] at hx ⊢

theorem Chip.counted.answer {b c : Chip} {src : Nat} (h : b.counted c src) (r : BusReply) : b.counted (c.answer r) src := by
  simpa only [Chip.counted, Chip.answer_blocks] using h

/-! ### Writes of IC_CLAIM, IC_EOI and IC_SET (R378, R385) -/

/-- A write of a register of the interrupt controller that answers a read is taken, by any master. -/
theorem Chip.busWrite_ic {c : Chip} {o : Nat} (who : Master) (v : Word) (hon : c.windowOn 0xB = true) (ho : o < 2 ^ 16) (h4 : o % 4 = 0)
    (hanswers : (c.readIc o).isNone = false) : c.busWrite who (0xB0000 + o) v = ((c.writeIc o v).getD c).answer .done :=
  Chip.busWrite_eq (w := 0xB) (o := o) (by omega) (by omega) (by omega) (by omega) hon hanswers rfl (by omega) (by omega)

theorem Chip.busWrite_icClaim {c : Chip} {t : Nat} (who : Master) (v : Word) (ht : t < 5) (hon : c.windowOn 0xB = true) :
    c.busWrite who (0xB0400 + 0x10 * t) v = (c.updIc (IntCtl.claim t)).answer .done := by
  obtain ⟨hanswers, hwrite⟩ : (c.readIc (0x400 + 0x10 * t)).isNone = false ∧ c.writeIc (0x400 + 0x10 * t) v = some (c.updIc (IntCtl.claim t)) := by
    obtain rfl | rfl | rfl | rfl | rfl : t = 0 ∨ t = 1 ∨ t = 2 ∨ t = 3 ∨ t = 4 := by omega
    all_goals exact ⟨rfl, rfl⟩
  rw [show 0xB0400 + 0x10 * t = 0xB0000 + (0x400 + 0x10 * t) by omega,
    Chip.busWrite_ic who v hon (by omega) (by omega) hanswers, hwrite, Option.getD_some]

theorem Chip.busWrite_icEoi {c : Chip} {t : Nat} (who : Master) (v : Word) (ht : t < 5) (hon : c.windowOn 0xB = true) :
    c.busWrite who (0xB0408 + 0x10 * t) v = (c.eoi t).answer .done := by
  obtain ⟨hanswers, hwrite⟩ : (c.readIc (0x408 + 0x10 * t)).isNone = false ∧ c.writeIc (0x408 + 0x10 * t) v = some (c.eoi t) := by
    obtain rfl | rfl | rfl | rfl | rfl : t = 0 ∨ t = 1 ∨ t = 2 ∨ t = 3 ∨ t = 4 := by omega
    all_goals exact ⟨rfl, rfl⟩
  rw [show 0xB0408 + 0x10 * t = 0xB0000 + (0x408 + 0x10 * t) by omega,
    Chip.busWrite_ic who v hon (by omega) (by omega) hanswers, hwrite, Option.getD_some]

theorem Chip.busWrite_icSet {c : Chip} (who : Master) (v : Word) (hon : c.windowOn 0xB = true) :
    c.busWrite who 0xB000C v = (c.icSet v).answer .done :=
  Chip.busWrite_ic (o := 0xC) who v hon (by decide) rfl rfl

theorem Chip.eoi_push {c : Chip} {t top : Nat} {rest : List Nat} (h : vget [] c.ic.stack t = top :: rest) :
    c.eoi t = c.updIc (fun ic => { ic with stack := vset ic.stack t rest }) := by
  simp only [Chip.eoi, h]

theorem Chip.eoi_empty {c : Chip} {t : Nat} (h : vget [] c.ic.stack t = []) : c.eoi t = c.icErr 1 := by
  simp only [Chip.eoi, h]

theorem Chip.icSet_doorbell {c : Chip} {v : Word} (hlo : 800 ≤ v.toNat % 1024) (hhi : v.toNat % 1024 < 832) :
    c.icSet v = c.raise (v.toNat % 1024) (statusDetail c.ic.status) := by
  simp [Chip.icSet, hlo, hhi]

theorem Chip.icSet_other {c : Chip} {v : Word} (h : v.toNat % 1024 < 800 ∨ 832 ≤ v.toNat % 1024) : c.icSet v = c.icErr 2 := by
  have : ¬ (800 ≤ v.toNat % 1024 ∧ v.toNat % 1024 < 832) := by omega
  simp [Chip.icSet, this]

/-- Settles O18: a claim takes the source that wins or none, an end pops or is an error, and IC_SET raises a doorbell or is an error. -/
theorem interruptWrites : Obligations.InterruptWrites := by
  unfold Obligations.InterruptWrites
  refine ⟨fun dt who t v ht => ⟨fun n => ?claims, ?claimsNone⟩,
    fun dt who v => ⟨fun t ht => ⟨fun top rest => ?pops, ?popsNone⟩, ?doorbell, ?other⟩⟩
  case claims =>
    refine Does.of_run (exec_icClaim dt who t v) (fun b h => Chip.reaches_of_up who h.1) (fun b ⟨_, hon, hwins⟩ => ?_)
    rw [Chip.busWrite_icClaim who v ht hon, Chip.updIc, IntCtl.claim_of_candidate (IntCtl.candidate_of_wins hwins)]
    rfl
  case claimsNone =>
    refine Does.of_run (exec_icClaim dt who t v) (fun b h => Chip.reaches_of_up who h.1) (fun b ⟨_, hon, hnone⟩ => ?_)
    rw [Chip.busWrite_icClaim who v ht hon, Chip.updIc, IntCtl.claim_of_no_candidate (IntCtl.candidate_of_none hnone)]
    rfl
  case pops =>
    refine Does.of_run (exec_icEoi dt who t v) (fun b h => Chip.reaches_of_up who h.1) (fun b ⟨_, hon, hstack⟩ => ?_)
    rw [Chip.busWrite_icEoi who v ht hon, Chip.eoi_push hstack]
  case popsNone =>
    refine Does.of_run (exec_icEoi dt who t v) (fun b h => Chip.reaches_of_up who h.1) (fun b ⟨hup, hon, hstack⟩ => ?_)
    rw [Chip.busWrite_icEoi who v ht hon, Chip.eoi_empty hstack]
    obtain ⟨hbit, hstack, hclaimed, hcounted, -⟩ := b.icErr_effect (bit := 1) (by decide) hup
    exact ⟨by simp [hstack], by simp [hclaimed], by simpa using hbit, hcounted.answer _, rfl,
      Chip.frame_trans (b.frame_icErr 1) (Chip.frame_answer _ _)⟩
  case doorbell =>
    refine Does.of_run (exec_icSet dt who v) (fun b h => Chip.reaches_of_up who h.1) (fun b ⟨hup, hon, hlo, hhi⟩ => ?_)
    rw [Chip.busWrite_icSet who v hon, Chip.icSet_doorbell hlo hhi]
    obtain ⟨err, count, last, hic⟩ := b.raise_ic (v.toNat % 1024) (statusDetail b.ic.status)
    exact ⟨(b.raise_counted _ _ hup (by omega) (by omega)).answer _, by simp [hic], by simp [hic], rfl,
      Chip.frame_trans (b.frame_raise _ _) (Chip.frame_answer _ _)⟩
  case other =>
    refine Does.of_run (exec_icSet dt who v) (fun b h => Chip.reaches_of_up who h.1) (fun b ⟨hup, hon, hother⟩ => ?_)
    rw [Chip.busWrite_icSet who v hon, Chip.icSet_other hother]
    obtain ⟨hbit, hstack, -, hcounted, hcounts⟩ := b.icErr_effect (bit := 2) (by decide) hup
    exact ⟨by simpa using hbit, by simpa using hcounts, hcounted.answer _, by simp [hstack], rfl,
      Chip.frame_trans (b.frame_icErr 2) (Chip.frame_answer _ _)⟩

end Sys2Proof.Machine
end

section
/-! PROOFS. The statement on sync objects: SY_SIGNAL and SY_RESET (O17). -/

namespace Sys2Proof.Machine

/-! ### Consumption marks (R366, R368) -/

/-- The entry of a key after those whose keys fail a test are dropped. -/
theorem assoc_filter {α : Type} (p : Nat → Bool) (j : Nat) (l : List (Nat × α)) :
    assoc j (l.filter (fun x => p x.1)) = if p j then assoc j l else none := by
  have hboth : (fun x : Nat × α => decide (p x.1 = true ∧ (x.1 == j) = true)) = fun x => p j && x.1 == j := by
    funext x
    by_cases hx : x.1 = j <;> simp [hx]
  unfold assoc
  rw [List.find?_filter, hboth]
  cases p j <;> simp

/-- A context's mark for an object, in the sync block. -/
def SyncCtl.mark (y : SyncCtl) (x o : Nat) : Word := (assoc (markKey x o) y.marks).getD 0

theorem Chip.mark_eq (c : Chip) (x o : Nat) : c.mark x o = c.sy.mark x o := rfl

theorem SyncCtl.target_eq (y : SyncCtl) (w : Waiter) : y.target w = y.mark w.ctx w.obj + w.value := rfl

theorem markKey_mod (x : Nat) {o : Nat} (h : o < 65536) : markKey x o % 65536 = o := by
  unfold markKey
  omega

theorem SyncCtl.mark_setMark (y : SyncCtl) (x o p q : Nat) (m : Word) :
    (y.setMark x o m).mark p q = if markKey p q = markKey x o then m else y.mark p q := by
  unfold SyncCtl.mark SyncCtl.setMark
  by_cases hm : m = 0
  · simp only [hm, if_true, assocDel, assoc_filter (fun k => k != markKey x o), bne_iff_ne]
    split <;> simp_all
  · simp only [hm, if_false, assoc_assocSet]
    split <;> simp

theorem SyncCtl.mark_clearMarks (y : SyncCtl) (x o p : Nat) :
    (y.clearMarks o).mark x p = if markKey x p % 65536 = o then 0 else y.mark x p := by
  unfold SyncCtl.mark SyncCtl.clearMarks
  simp only [assoc_filter (fun k => k % 65536 != o), bne_iff_ne]
  split <;> simp_all

/-! ### What judging waiters changes (R364, R368)

The waiters are marked and marks advance; what is judged and to which mark depends on the marks alone. -/

theorem judgeWaiters_snd (o : Nat) (v : Word) (ws : List Waiter) (y : SyncCtl) :
    (judgeWaiters o v ws y).2 = { y with marks := (judgeWaiters o v ws y).2.marks } := by
  induction ws generalizing y with
  | nil => rfl
  | cons w ws ih =>
    simp only [judgeWaiters]
    split
    · exact ih _
    · exact ih _

theorem judgeWaiters_objs (o : Nat) (v : Word) (ws : List Waiter) (l : List (Nat × SyncObj)) (y : SyncCtl) :
    judgeWaiters o v ws { y with objs := l } = ((judgeWaiters o v ws y).1, { (judgeWaiters o v ws y).2 with objs := l }) := by
  induction ws generalizing y with
  | nil => rfl
  | cons w ws ih =>
    have htarget : SyncCtl.target { y with objs := l } w = y.target w := rfl
    simp only [judgeWaiters, htarget]
    split
    · rw [show SyncCtl.setMark w.ctx o (y.target w) { y with objs := l } = { y.setMark w.ctx o (y.target w) with objs := l } from rfl, ih]
    · rw [ih]

/-- The marks of other objects stay. -/
theorem judgeWaiters_mark_other {o p : Nat} (v : Word) (x : Nat) (ho : o < 65536) (hp : p < 65536) (hne : p ≠ o) (ws : List Waiter)
    (y : SyncCtl) : (judgeWaiters o v ws y).2.mark x p = y.mark x p := by
  induction ws generalizing y with
  | nil => rfl
  | cons w ws ih =>
    have hkey : markKey x p ≠ markKey w.ctx o := fun h => hne (by rw [← markKey_mod x hp, h, markKey_mod w.ctx ho])
    simp only [judgeWaiters, ih]
    split
    · rw [SyncCtl.mark_setMark, if_neg hkey]
    · rfl

/-- The mark of a context stays where the value satisfies none of its waiters. -/
theorem judgeWaiters_mark_unsatisfied {o : Nat} {v : Word} {x : Nat} (ws : List Waiter) (y : SyncCtl)
    (h : ∀ w ∈ ws, w.ctx = x → w.obj = o → w.sat = true ∨ reached v (y.mark x o + w.value) = false) :
    (judgeWaiters o v ws y).2.mark x o = y.mark x o := by
  induction ws generalizing y with
  | nil => rfl
  | cons w ws ih =>
    have hstays : (if (w.obj == o && !w.sat && reached v (y.target w)) = true then y.setMark w.ctx o (y.target w) else y).mark x o =
        y.mark x o := by
      split
      case isFalse => rfl
      case isTrue hhit =>
        simp only [Bool.and_eq_true, beq_iff_eq, Bool.not_eq_true', SyncCtl.target_eq] at hhit
        obtain ⟨⟨hobj, hsat⟩, hreached⟩ := hhit
        have hctx : w.ctx ≠ x := fun hctx => by
          have := h w (List.mem_cons_self ..) hctx hobj
          rw [hctx, hobj] at hreached
          simp [hsat, hreached] at this
        rw [SyncCtl.mark_setMark, if_neg (by unfold markKey; omega)]
    simp only [judgeWaiters]
    rw [ih _ (fun w' hw' hc ho => by rw [hstays]; exact h w' (List.mem_cons_of_mem _ hw') hc ho), hstays]

/-! ### What giving an object a value changes (R364, R373) -/

theorem Chip.frame_updSy (c : Chip) (f : SyncCtl → SyncCtl) : c.frame (c.updSy f) [.sy] := by
  intro x hx
  cases x <;> simp [Blk.same] at hx ⊢

theorem Chip.frame_raiseN (c : Chip) (n src : Nat) (detail : Bytes) : c.frame (c.raiseN n src detail) [.ic, .lh, .sn] := by
  intro x hx
  cases x <;> simp [Blk.same] at hx ⊢

/-- Watches may have advanced and raised their sources; nothing else has changed. -/
structure Chip.watched (b e : Chip) : Prop where
  sy : ∃ watch, e.sy = { b.sy with watch := watch }
  frame : b.frame e [.sy, .ic, .lh, .sn]

theorem Chip.watched.refl (c : Chip) : c.watched c := ⟨⟨c.sy.watch, rfl⟩, fun x _ => by cases x <;> rfl⟩

theorem Chip.watched.trans {b c d : Chip} (h : b.watched c) (k : c.watched d) : b.watched d := by
  obtain ⟨w, hw⟩ := h.sy
  obtain ⟨w', hw'⟩ := k.sy
  exact ⟨⟨w', by rw [hw', hw]⟩, Chip.frame_mono (Chip.frame_trans h.frame k.frame) (by decide)⟩

theorem Chip.watched_judgeWatch (c : Chip) (i : Nat) : c.watched (c.judgeWatch i) := by
  simp only [Chip.judgeWatch]
  split
  · split
    · exact .refl c
    · split
      · exact .refl c
      · exact ⟨⟨_, by simp only [Chip.raiseN_blocks]; rfl⟩, Chip.frame_trans (c.frame_updSy _) (Chip.frame_raiseN _ _ _ _)⟩
  · exact .refl c

theorem Chip.judge_watched {c : Chip} {o : Nat} {x : SyncObj} (h : c.obj o = some x) :
    (c.updSy (fun y => { (judgeWaiters o x.value y.waiters y).2 with waiters := (judgeWaiters o x.value y.waiters y).1 })).watched
      (c.judge o) := by
  unfold Chip.judge
  rw [h]
  refine List.foldlRecOn (motive := fun d => Chip.watched _ d) _ _ (.refl _) (fun d hd i _ => ?_)
  split
  · exact hd.trans (d.watched_judgeWatch i)
  · exact hd

/-- The object has the value, its waiters have been judged against it, and the marks are as judging them left them. -/
theorem Chip.setObj_effect {c : Chip} {o : Nat} {x : SyncObj} (h : c.obj o = some x) (v : Word) :
    (∃ watch, (c.setObj o v).sy = { c.sy with
      objs := assocSet o { x with value := v } c.sy.objs
      waiters := (judgeWaiters o v c.sy.waiters c.sy).1
      marks := (judgeWaiters o v c.sy.waiters c.sy).2.marks
      watch := watch }) ∧
    c.frame (c.setObj o v) [.sy, .ic, .lh, .sn] := by
  have hset : c.setObj o v = (c.updSy (fun y => { y with objs := assocSet o { x with value := v } y.objs })).judge o := by
    unfold Chip.setObj
    rw [h]
  have hobj : (c.updSy (fun y => { y with objs := assocSet o { x with value := v } y.objs })).obj o = some { x with value := v } := by
    rw [Chip.obj, Chip.updSy, assoc_assocSet, if_pos rfl]
  obtain ⟨⟨watch, hsy⟩, hframe⟩ := Chip.judge_watched hobj
  rw [hset]
  refine ⟨⟨watch, ?_⟩, Chip.frame_mono (Chip.frame_trans (c.frame_updSy _) (Chip.frame_trans (Chip.frame_updSy _ _) hframe)) (by decide)⟩
  rw [hsy]
  simp only [Chip.updSy, judgeWaiters_objs]
  rw [judgeWaiters_snd]

theorem Chip.obj_of_setObj {c : Chip} {o : Nat} {x : SyncObj} (h : c.obj o = some x) (v : Word) (p : Nat) :
    (c.setObj o v).obj p = if p = o then some { x with value := v } else c.obj p := by
  obtain ⟨⟨watch, hsy⟩, -⟩ := Chip.setObj_effect h v
  rw [Chip.obj, hsy, assoc_assocSet]
  rfl

theorem Chip.mark_of_setObj {c : Chip} {o : Nat} {x : SyncObj} (h : c.obj o = some x) (v : Word) (p q : Nat) :
    (c.setObj o v).mark p q = (judgeWaiters o v c.sy.waiters c.sy).2.mark p q := by
  obtain ⟨⟨watch, hsy⟩, -⟩ := Chip.setObj_effect h v
  rw [Chip.mark_eq, hsy]
  rfl

/-! ### A reset of an object (R366)

Every mark for the object is 0 before its waiters are judged again. -/

theorem SyncCtl.mark_clearMarks_same (y : SyncCtl) (x : Nat) {o : Nat} (ho : o < 65536) : (y.clearMarks o).mark x o = 0 := by
  rw [SyncCtl.mark_clearMarks, if_pos (markKey_mod x ho)]

theorem SyncCtl.mark_clearMarks_other (y : SyncCtl) (x : Nat) {o p : Nat} (hp : p < 65536) (hne : p ≠ o) :
    (y.clearMarks o).mark x p = y.mark x p := by
  rw [SyncCtl.mark_clearMarks, markKey_mod x hp, if_neg hne]

section
variable {c : Chip} {o : Nat} {x : SyncObj}

theorem Chip.obj_of_clearMarks (h : c.obj o = some x) : (c.updSy (SyncCtl.clearMarks o)).obj o = some x := h

theorem Chip.resetObj_effect (h : c.obj o = some x) :
    (∃ watch, (c.resetObj o).sy = { c.sy with
      objs := assocSet o { x with value := 0 } c.sy.objs
      waiters := (judgeWaiters o 0 c.sy.waiters (c.sy.clearMarks o)).1
      marks := (judgeWaiters o 0 c.sy.waiters (c.sy.clearMarks o)).2.marks
      watch := watch }) ∧
    c.frame (c.resetObj o) [.sy, .ic, .lh, .sn] := by
  obtain ⟨⟨watch, hsy⟩, hframe⟩ := Chip.setObj_effect (Chip.obj_of_clearMarks h) 0
  exact ⟨⟨watch, hsy⟩, Chip.frame_mono (Chip.frame_trans (c.frame_updSy _) hframe) (by decide)⟩

theorem Chip.obj_of_resetObj (h : c.obj o = some x) (p : Nat) :
    (c.resetObj o).obj p = if p = o then some { x with value := 0 } else c.obj p :=
  Chip.obj_of_setObj (Chip.obj_of_clearMarks h) 0 p

theorem Chip.mark_of_resetObj_judged (h : c.obj o = some x) (p q : Nat) :
    (c.resetObj o).mark p q = (judgeWaiters o 0 c.sy.waiters (c.sy.clearMarks o)).2.mark p q :=
  Chip.mark_of_setObj (Chip.obj_of_clearMarks h) 0 p q

/-- A context keeps the mark 0 where the value 0 satisfies none of its waiters. -/
theorem Chip.mark_of_resetObj (h : c.obj o = some x) (ho : o < 65536) {ctx : Nat}
    (hnone : ∀ w ∈ c.sy.waiters, w.ctx = ctx → w.obj = o → w.sat = true ∨ reached 0 w.value = false) : (c.resetObj o).mark ctx o = 0 := by
  have hcleared := c.sy.mark_clearMarks_same ctx ho
  rw [Chip.mark_of_resetObj_judged h, judgeWaiters_mark_unsatisfied, hcleared]
  intro w hw hctx hobj
  simpa [hcleared] using hnone w hw hctx hobj

theorem Chip.mark_of_resetObj_other (h : c.obj o = some x) (ho : o < 65536) {ctx p : Nat} (hp : p < 65536) (hne : p ≠ o) :
    (c.resetObj o).mark ctx p = c.mark ctx p := by
  rw [Chip.mark_of_resetObj_judged h, judgeWaiters_mark_other 0 ctx ho hp hne, c.sy.mark_clearMarks_other ctx hp hne, Chip.mark_eq]

end

/-! ### Writes of SY_SIGNAL and SY_RESET (R363 to R366) -/

section
variable {c e : Chip} {o : Nat} {ok : Bool}

/-- A write of SY_SIGNAL or SY_RESET answers an error where it was refused. -/
theorem Chip.busWrite_sy (who : Master) (v : Word) (hon : c.windowOn 0xA = true) (ho : o = 0x10 ∨ o = 0x14)
    (h : (if o = 0x10 then c.sySignalWrite who v else c.syResetWrite who v) = (e, ok)) :
    c.busWrite who (0xA0000 + o) v = e.answer (if ok then .done else .error (0xA0000 + o)) := by
  have hdomain : (windowDomain 0xA).any c.isOff = false := by simpa [Chip.windowOn] using hon
  have hplace : c.regPlace (0xA0000 + o) = some (.block 0xA o) := by
    rw [Chip.regPlace_block (by omega) (by omega), show (0xA0000 + o) / 2 ^ 16 = 0xA by omega, show (0xA0000 + o) % 2 ^ 16 = o by omega]
  have hreads : c.readWindow 0xA o = some 0 := by obtain rfl | rfl := ho <;> rfl
  have hallowed : c.writeRefused who 0xA o v = none := rfl
  simp only [Chip.busWrite, Chip.regWrite, hplace, hdomain, hreads, hallowed, h]
  cases ok <;> simp [ho]

theorem Chip.busWrite_sySignal (who : Master) (v : Word) (hon : c.windowOn 0xA = true) (h : c.sySignalWrite who v = (e, ok)) :
    c.busWrite who 0xA0010 v = e.answer (if ok then .done else .error 0xA0010) :=
  Chip.busWrite_sy (o := 0x10) who v hon (.inl rfl) h

theorem Chip.busWrite_syReset (who : Master) (v : Word) (hon : c.windowOn 0xA = true) (h : c.syResetWrite who v = (e, ok)) :
    c.busWrite who 0xA0014 v = e.answer (if ok then .done else .error 0xA0014) :=
  Chip.busWrite_sy (o := 0x14) who v hon (.inr rfl) h

end

section
variable {c : Chip} {who : Master} {v : Word} {x : SyncObj}

theorem Chip.sySignalWrite_adds (hobj : c.obj (v.toNat % 65536) = some x) (hallowed : syAllowed who x = true)
    (hamount : v.toNat / 65536 ≠ 0) :
    c.sySignalWrite who v = (c.setObj (v.toNat % 65536) (x.value + BitVec.ofNat 32 (v.toNat / 65536)), true) := by
  simp only [Chip.sySignalWrite, Chip.addObj, hobj, hallowed, hamount, if_true, if_false]

theorem Chip.sySignalWrite_zero (hobj : c.obj (v.toNat % 65536) = some x) (hallowed : syAllowed who x = true)
    (hamount : v.toNat / 65536 = 0) :
    c.sySignalWrite who v = (c, true) := by
  simp only [Chip.sySignalWrite, hobj, hallowed, hamount, if_true]

theorem Chip.syResetWrite_resets (hobj : c.obj (v.toNat % 65536) = some x) (hallowed : syAllowed who x = true) :
    c.syResetWrite who v = (c.resetObj (v.toNat % 65536), true) := by
  simp only [Chip.syResetWrite, hobj, hallowed, if_true]

theorem Chip.sySignalWrite_refused (h : ∀ x, c.obj (v.toNat % 65536) = some x → syAllowed who x = false) :
    c.sySignalWrite who v = (c.syRefuse, false) := by
  unfold Chip.sySignalWrite
  cases hobj : c.obj (v.toNat % 65536) with
  | none => simp only [hobj]
  | some x => simp [hobj, h x hobj]

theorem Chip.syResetWrite_refused (h : ∀ x, c.obj (v.toNat % 65536) = some x → syAllowed who x = false) :
    c.syResetWrite who v = (c.syRefuse, false) := by
  unfold Chip.syResetWrite
  cases hobj : c.obj (v.toNat % 65536) with
  | none => simp only [hobj]
  | some x => simp [hobj, h x hobj]

end

theorem Chip.frame_syErr (c : Chip) (bit : Nat) : c.frame (c.syErr bit) [.sy, .ic, .lh, .sn] :=
  Chip.frame_trans (c.frame_updSy _) (Chip.frame_raise _ _ _)

/-- A refused write is counted and raises source 776 with SY_ERR_STATUS[1]; nothing else changes (R365). -/
theorem Chip.syRefuse_effect {c : Chip} (hup : c.up = true) :
    c.syRefuse.sy = { c.sy with refused := satInc c.sy.refused, err := c.sy.err ||| 2 } ∧ c.counted c.syRefuse 776 ∧
    c.frame c.syRefuse [.sy, .ic, .lh, .sn] := by
  refine ⟨by simp only [Chip.syRefuse, Chip.syErr_sy, Chip.updSy_blocks]; rfl, ?_,
    Chip.frame_mono (Chip.frame_trans (c.frame_updSy _) (Chip.frame_syErr _ 1)) (by decide)⟩
  simp only [Chip.syRefuse, Chip.syErr, Chip.counted]
  rw [Chip.raise_count _ 776 _ (by exact hup) (by decide) 776 (by decide), if_pos rfl]
  simp only [Chip.updSy_blocks]

theorem Does.of_syRefuse {i : Instr} {dt : When} {who : Master} {v : Word} {addr : Nat} {hyp : Chip → Prop}
    (hexec : ∀ s, exec i s = run dt (fun c => c.reaches who) (Chip.busWrite who addr v) s) (hup : ∀ b, hyp b → b.up = true)
    (hrefused : ∀ b, hyp b → b.busWrite who addr v = b.syRefuse.answer (.error addr)) :
    Does i dt hyp (fun b e => e.sy = { b.sy with refused := satInc b.sy.refused, err := b.sy.err ||| 2 } ∧ b.counted e 776 ∧
      e.bus = .error addr ∧ b.frame e [.sy, .ic, .lh, .sn, .bus]) := by
  refine Does.of_run hexec (fun b h => Chip.reaches_of_up who (hup b h)) (fun b h => ?_)
  rw [hrefused b h]
  obtain ⟨hsy, hcounted, hframe⟩ := b.syRefuse_effect (hup b h)
  exact ⟨by simp [hsy], hcounted.answer _, rfl, Chip.frame_trans hframe (Chip.frame_answer _ _)⟩

/-- Settles O17: the write is refused, adds to the object or resets it, and an object given a value has its waiters judged. -/
theorem objectWrites : Obligations.ObjectWrites := by
  unfold Obligations.ObjectWrites
  refine ⟨fun dt who v => ⟨?adds, ?zero, fun i hi => ?refused⟩, fun dt who v => ?resets⟩
  case adds =>
    refine Does.of_run (exec_sySignal dt who v) (fun b h => Chip.reaches_of_up who h.1)
      (fun b ⟨_, hon, hamount, x, hobj, hallowed⟩ => ?_)
    rw [Chip.busWrite_sySignal who v hon (Chip.sySignalWrite_adds hobj hallowed hamount)]
    obtain ⟨⟨watch, hsy⟩, hframe⟩ := Chip.setObj_effect hobj (x.value + BitVec.ofNat 32 (v.toNat / 65536))
    have hvalues := Chip.obj_of_setObj hobj (x.value + BitVec.ofNat 32 (v.toNat / 65536))
    refine ⟨fun x' hx' => ?_, fun o ho => (hvalues o).trans (if_neg ho), rfl, Chip.frame_trans hframe (Chip.frame_answer _ _)⟩
    obtain rfl : x = x' := Option.some.inj (hobj.symm.trans hx')
    exact ⟨(hvalues _).trans (if_pos rfl), by simp [hsy], by simp [hsy]⟩
  case zero =>
    refine Does.of_run (exec_sySignal dt who v) (fun b h => Chip.reaches_of_up who h.1)
      (fun b ⟨_, hon, hamount, x, hobj, hallowed⟩ => ?_)
    rw [Chip.busWrite_sySignal who v hon (Chip.sySignalWrite_zero hobj hallowed hamount)]
    rfl
  case refused =>
    simp only [List.mem_cons, List.not_mem_nil, or_false] at hi
    obtain rfl | rfl := hi
    · exact Does.of_syRefuse (exec_sySignal dt who v) (fun b h => h.1)
        (fun b ⟨_, hon, h⟩ => Chip.busWrite_sySignal who v hon (Chip.sySignalWrite_refused h))
    · exact Does.of_syRefuse (exec_syReset dt who v) (fun b h => h.1)
        (fun b ⟨_, hon, h⟩ => Chip.busWrite_syReset who v hon (Chip.syResetWrite_refused h))
  case resets =>
    refine Does.of_run (exec_syReset dt who v) (fun b h => Chip.reaches_of_up who h.1) (fun b ⟨_, hon, x, hobj, hallowed⟩ => ?_)
    rw [Chip.busWrite_syReset who v hon (Chip.syResetWrite_resets hobj hallowed)]
    have ho : v.toNat % 65536 < 65536 := Nat.mod_lt _ (by decide)
    generalize v.toNat % 65536 = o at hobj ho ⊢
    obtain ⟨⟨watch, hsy⟩, hframe⟩ := Chip.resetObj_effect hobj
    have hvalues := Chip.obj_of_resetObj hobj
    refine ⟨fun x' hx' => ?_, fun ctx hctx => Chip.mark_of_resetObj hobj ho hctx, by simp [hsy], by simp [hsy],
      fun p hp => ⟨(hvalues p).trans (if_neg hp), fun ctx hlt => Chip.mark_of_resetObj_other hobj ho hlt hp⟩, rfl,
      Chip.frame_trans hframe (Chip.frame_answer _ _)⟩
    obtain rfl : x = x' := Option.some.inj (hobj.symm.trans hx')
    exact (hvalues o).trans (if_pos rfl)

end Sys2Proof.Machine
end
